-- ==== Sys2Proof/Word.lean ====
section
/-! DEFINITION. The word types of the Ibvor and their plainest arithmetic (spec/03 R41, spec/20 R272). -/

namespace Sys2Proof

/-- A byte of memory. -/
abbrev Byte := BitVec 8

/-- A 64-bit register, a fabric slot word, or a doubleword of memory. -/
abbrev Word := BitVec 64

/-- A 5-bit format code (R125): the FMT field of a token header, a slot word or a typed block. -/
abbrev Fmt := BitVec 5

end Sys2Proof
end

