-- ==== Sys2Proof/Machine/Bits.lean ====
section
/-! DEFINITION. Bit fields, sign extension and byte order (R3, R4). -/

namespace Sys2Proof.Machine

/-- Bits [hi:lo] of a number. -/
def bits (n hi lo : Nat) : Nat := n / 2 ^ lo % 2 ^ (hi + 1 - lo)

/-- Bit i of a number. -/
def bit (n i : Nat) : Bool := n / 2 ^ i % 2 == 1

/-- Two's complement value of the low `w` bits of `n`. -/
def sval (w n : Nat) : Int :=
  let m := n % 2 ^ w
  if m < 2 ^ (w - 1) then (m : Int) else (m : Int) - (2 ^ w : Nat)

/-- The low `w` bits of an integer, as a number. -/
def low (w : Nat) (z : Int) : Nat := (z % (2 ^ w : Nat)).toNat

/-- The `n` bytes of a number, lowest first (R4). -/
def toBytes : Nat → Nat → List Byte
  | 0, _ => []
  | n + 1, v => BitVec.ofNat 8 v :: toBytes n (v / 256)

/-- The number that bytes stand for, lowest first (R4). -/
def ofBytes : List Byte → Nat
  | [] => 0
  | b :: bs => b.toNat + 256 * ofBytes bs

/-- The number that bytes stand for, highest first (R84's signature encoding). -/
def ofBytesBE (bs : List Byte) : Nat := ofBytes bs.reverse

/-- `n` bytes of a list from `off`, zero where the list ends. -/
def slice (bs : List Byte) (off n : Nat) : List Byte :=
  let t := (bs.drop off).take n
  t ++ List.replicate (n - t.length) 0

/-- A little-endian field of a byte list. -/
def field (bs : List Byte) (off n : Nat) : Nat := ofBytes (slice bs off n)

/-- A list with the bytes from `off` replaced; bytes past its end are dropped. -/
def patch (bs : List Byte) (off : Nat) (new : List Byte) : List Byte :=
  (bs.take off ++ new ++ bs.drop (off + new.length)).take bs.length

/-- Set bits of a number below `2 ^ n`. -/
def popcount : Nat → Nat → Nat
  | 0, _ => 0
  | n + 1, v => v % 2 + popcount n (v / 2)

/-- Leading zeros of a number seen at width `n`. -/
def clz : Nat → Nat → Nat
  | 0, _ => 0
  | n + 1, v => if v / 2 ^ n % 2 == 1 then 0 else clz n v + 1

/-- Whether `v` has reached `n` (R216): (v - n) mod 2^16 below 2^15. -/
def reached (v n : BitVec 16) : Bool := (v - n).toNat < 2 ^ 15

/-- The numbers from `a` to `b` less one. -/
def tagsOf (a b : Nat) : List Nat := (List.range (b - a)).map fun i => a + i

/-- One bit of a reflected CRC-32C step (R288). -/
def crcBit (c : Nat) : Nat := if c % 2 == 1 then (c / 2) ^^^ 0x82F63B78 else c / 2

/-- A CRC-32C state advanced over one byte (R288). -/
def crcByte (c : Nat) (b : Byte) : Nat :=
  crcBit (crcBit (crcBit (crcBit (crcBit (crcBit (crcBit (crcBit (c ^^^ b.toNat))))))))

/-- A CRC-32C state advanced over bytes, with no initial value and no final inversion (R288). -/
def crcBytes (c : Nat) (bs : List Byte) : Nat := bs.foldl crcByte c

/-- CRC-32C of a byte string as a tile block carries it (R45, R288). -/
def crc32c (bs : List Byte) : Nat := crcBytes 0xFFFFFFFF bs ^^^ 0xFFFFFFFF

end Sys2Proof.Machine
end

