-- ==== Sys2Proof/Syntax.lean ====
section
/-! DEFINITION. The instructions and steps of the Ibvor: one constructor per row of spec/opcode_table.json.
Fabric rows carry their slot word's fields, control-core rows their word's fields, and events the units and
data they concern. -/

namespace Sys2Proof

/-- The default layout of a fabric slot word (R31), less its opcode. -/
structure DWord where
  fmt  : BitVec 5 := 0
  mod  : BitVec 3 := 0
  el   : BitVec 2 := 0
  er   : BitVec 2 := 0
  kr   : BitVec 1 := 0
  kidx : BitVec 4 := 0
  nt   : BitVec 2 := 0
  ord  : BitVec 1 := 0
  t1   : BitVec 18 := 0
  t0   : BitVec 18 := 0
  deriving DecidableEq, Repr, Inhabited

/-- The memory layout of a fabric slot word (R36), less its opcode. -/
structure MWord where
  fmt   : BitVec 5 := 0
  mod   : BitVec 3 := 0
  scope : BitVec 3 := 0
  aqrl  : BitVec 1 := 0
  vsrc  : BitVec 2 := 0
  kidx  : BitVec 3 := 0
  nt    : BitVec 2 := 0
  ret   : BitVec 1 := 0
  t1    : BitVec 18 := 0
  t0    : BitVec 18 := 0
  deriving DecidableEq, Repr, Inhabited

/-- The engine layout of a fabric slot word (R37), less its opcode. -/
structure EWord where
  fmt    : BitVec 5 := 0
  mod    : BitVec 3 := 0
  scope  : BitVec 3 := 0
  acq    : BitVec 1 := 0
  rel    : BitVec 1 := 0
  kidx   : BitVec 4 := 0
  nt     : BitVec 2 := 0
  follow : BitVec 1 := 0
  t1     : BitVec 18 := 0
  t0     : BitVec 18 := 0
  deriving DecidableEq, Repr, Inhabited

/-- A stream: a requester that holds one translation entry (R208). -/
inductive StreamId where
  | tilePort (tile : Nat)
  | agn (cluster agn : Nat)
  | taskData (cluster task : Nat)
  | taskFetch (cluster task : Nat)
  | replayUnit (tile : Nat)
  deriving DecidableEq, Repr, Inhabited

/-- The arguments A0 to A5 of a host command record (R352). -/
structure CmdArgs where
  a0 : Word := 0
  a1 : Word := 0
  a2 : Word := 0
  a3 : Word := 0
  a4 : Word := 0
  a5 : Word := 0
  deriving DecidableEq, Repr, Inhabited

/-- What the boot ROM finds at reset (R354): fuses, keys, and the training results. Key values are held as
numbers; `firmwareKey` is the verification key of step 1, `installKeys` the slots 1 to 7 of step 5. -/
structure BootInputs where
  fusedTiles    : List Nat := []
  deviceKey     : Nat := 0
  firmwareKey   : Nat := 0
  firmwareDataKey : Nat := 0
  failedDomains : List Nat := []
  failedPorts   : List Nat := []
  tier2Bytes    : Nat := 0
  installKeys   : List (Nat × Nat) := []
  deriving DecidableEq, Repr, Inhabited

/-- What a peer package asks of a home of this device (R217, R226, R227, R349): a load, bytes to store with RET or not, an
atomic of a MOD of R32 on a word of some bytes, a wait for a version, or a RECLAIM. Versions: EQ and GE of a load, EXP of a
store. -/
inductive PeerOp where
  | load
  | loadEq (v : BitVec 16)
  | loadGe (v : BitVec 16)
  | store (data : List Byte) (ret : Bool)
  | storeExp (data : List Byte) (ret : Bool) (v : BitVec 16)
  | atom (mod : BitVec 3) (signed : Bool) (width : Nat) (x y : Word) (ret : Bool)
  | vwait (v : BitVec 16)
  | reclaim (v : BitVec 16)
  deriving DecidableEq, Repr, Inhabited

/-- One constructor per row of the opcode table. -/
inductive Instr where
  -- fabric instructions: each carries the fields of its slot word (R31, R36, R37)
  /-- R103. Consumes its l operand and emits nothing. -/
  | sink (w : DWord)
  /-- R103. Emits the l run unchanged to every target. -/
  | pass (w : DWord)
  /-- R103. Emits the l run to each target of a fanout list in list order. -/
  | fanout (w : DWord)
  /-- R103. Sends each l element to T0 where the predicate is nonzero and to T1 otherwise; a side that would get no present element gets a CANCEL instead. -/
  | steer (w : DWord)
  /-- R103. Passes on whichever run arrives, on either port, without waiting for a partner. -/
  | merge (w : DWord)
  /-- R103. Emits the l run once the r run of the same tags has arrived, and discards r's data. -/
  | sync (w : DWord)
  /-- R103. Emits constant K under l's tags and mask. -/
  | emit (w : DWord)
  /-- R103. Re-emits the l run with the base ITAG taken from element 0 of r. -/
  | retag (w : DWord)
  /-- R103. Emits the l run as a pinned STICKY, or as a droppable sticky whose recipe index comes from a constant. -/
  | stick (w : DWord)
  /-- R103. Emits a PURGE token of the pairing's context to its targets. -/
  | purge (w : DWord)
  /-- R103. Emits a CANCEL over all of l's tags, whatever l's mask. -/
  | cancel (w : DWord)
  /-- R103. Cuts the l run at element K; the head goes to T0 and the tail to T1. -/
  | split (w : DWord)
  /-- R103. Joins two runs of adjacent tags into one run. -/
  | pack (w : DWord)
  /-- R103. Re-emits the l run as runs of length K. -/
  | unpack (w : DWord)
  /-- R103. Emits each present element's iteration tag as N32 data. -/
  | ctag (w : DWord)
  /-- R103. Delivers the arriving token, header and payload, to host egress. -/
  | egress (w : DWord)
  /-- R122. Sends an allocation request to the named pool; the trigger rests as an allocation trigger until the grant arrives. -/
  | alloc (w : DWord)
  /-- R122. Performs one release of the handle at the pool's tile; frees the slot and grants the head waiter when the count runs out. -/
  | release (w : DWord)
  /-- R122. Moves a HELD slot to GIVEN with a consumer count and passes the handle on. -/
  | give (w : DWord)
  /-- R122. Reads a run from a GIVEN slot named by the handle. -/
  | tld (w : DWord)
  /-- R122. Writes the r run into a HELD slot and passes the handle on after the write. -/
  | tst (w : DWord)
  /-- R122. Requests one ticket from a ticket pool and passes the run on when granted. -/
  | ticket (w : DWord)
  /-- R122. Gives one ticket back, grants the head waiter, and passes the run on. -/
  | retn (w : DWord)
  /-- R118. Reports the free count and wait-list depth of a pool or ticket pool. -/
  | poolq (w : DWord)
  /-- R244. Requests replays of the context's dropped stickies at a slot and port and emits l once they are admitted or faulted. -/
  | recall (w : DWord)
  /-- R244. Moves every droppable sticky of the context in the tile into drop-table records. -/
  | drop (w : DWord)
  /-- R149. Integer l + r, wrapping. -/
  | add (w : DWord)
  /-- R149. Integer l − r, wrapping. -/
  | sub (w : DWord)
  /-- R149. Low half of the integer product. -/
  | mul (w : DWord)
  /-- R149. High half of the integer product. -/
  | mulh (w : DWord)
  /-- R149. Integer quotient truncated toward zero; all ones on divide by zero. -/
  | div (w : DWord)
  /-- R149. Integer remainder; l on divide by zero. -/
  | rem (w : DWord)
  /-- R149. Lesser integer element. -/
  | min (w : DWord)
  /-- R149. Greater integer element. -/
  | max (w : DWord)
  /-- R149. Integer magnitude. -/
  | abs (w : DWord)
  /-- R149. Integer 0 − l, wrapping. -/
  | neg (w : DWord)
  /-- R149. Bitwise and. -/
  | and (w : DWord)
  /-- R149. Bitwise or. -/
  | or (w : DWord)
  /-- R149. Bitwise exclusive or. -/
  | xor (w : DWord)
  /-- R149. l and not r. -/
  | andn (w : DWord)
  /-- R149. Bitwise complement. -/
  | not (w : DWord)
  /-- R149. Left shift by the amount operand. -/
  | shl (w : DWord)
  /-- R149. Logical right shift. -/
  | shr (w : DWord)
  /-- R149. Arithmetic right shift. -/
  | sar (w : DWord)
  /-- R149. Rotate left. -/
  | rol (w : DWord)
  /-- R149. Count of leading zero bits. -/
  | clz (w : DWord)
  /-- R149. Count of set bits. -/
  | popc (w : DWord)
  /-- R149. 1 where the integer condition holds, else 0. -/
  | cmp (w : DWord)
  /-- R149. Saturating integer add. -/
  | adds (w : DWord)
  /-- R149. Saturating integer subtract. -/
  | subs (w : DWord)
  /-- R149. l × r + K, wrapping. -/
  | madk (w : DWord)
  /-- R149. A64 address l + r × K. -/
  | agen (w : DWord)
  /-- R149. Extracts a bit field of l placed by K. -/
  | bfx (w : DWord)
  /-- R149. Makes l's elements absent where r is zero. -/
  | mask (w : DWord)
  /-- R151. Float l + r, rounded once. -/
  | fadd (w : DWord)
  /-- R151. Float l − r. -/
  | fsub (w : DWord)
  /-- R151. Float l × r. -/
  | fmul (w : DWord)
  /-- R151. l × r + K with one rounding. -/
  | fmak (w : DWord)
  /-- R151. K − l × r with one rounding. -/
  | fnmsk (w : DWord)
  /-- R151. Float l / r. -/
  | fdiv (w : DWord)
  /-- R151. Float square root of l. -/
  | fsqrt (w : DWord)
  /-- R152. Lesser float element, numbers preferred. -/
  | fmin (w : DWord)
  /-- R152. Greater float element, numbers preferred. -/
  | fmax (w : DWord)
  /-- R151. Clears the sign bit. -/
  | fabs (w : DWord)
  /-- R151. Inverts the sign bit. -/
  | fneg (w : DWord)
  /-- R153. 1.0 where the float condition holds, else +0.0. -/
  | fcmp (w : DWord)
  /-- R153. N32 class mask of each element. -/
  | fclass (w : DWord)
  /-- R151. l × 2^r, rounded. -/
  | fscale (w : DWord)
  /-- R151. Magnitude of l with the sign of r. -/
  | fcpys (w : DWord)
  /-- R151. Rounds to an integral value. -/
  | fround (w : DWord)
  /-- R155. Bit-exact reciprocal square-root estimate. -/
  | frsqe (w : DWord)
  /-- R155. Bit-exact reciprocal estimate. -/
  | frcpe (w : DWord)
  /-- R154. 2^l, correctly rounded. -/
  | fexp2 (w : DWord)
  /-- R154. log2 l, correctly rounded. -/
  | flog2 (w : DWord)
  /-- R154. Sine of an argument in turns. -/
  | fsin (w : DWord)
  /-- R154. Cosine of an argument in turns. -/
  | fcos (w : DWord)
  /-- R154. Hyperbolic tangent. -/
  | ftanh (w : DWord)
  /-- R154. Logistic sigmoid. -/
  | fsigm (w : DWord)
  /-- R156. Converts within the tile between the listed format pairs. -/
  | cvtl (w : DWord)
  /-- R157. Clamps to a narrower integer format. -/
  | narrow (w : DWord)
  /-- R157. Extends to a wider integer format. -/
  | widen (w : DWord)
  /-- R157. Bit r of each element as 0 or 1. -/
  | plane (w : DWord)
  /-- R157. Gathers bit 0 of each element into one N32. -/
  | bits (w : DWord)
  /-- R158. Pairwise tree sum of the run; in accumulating form, a running total per context, optionally taken in tag order. -/
  | rsum (w : DWord)
  /-- R160. Maximum present element. -/
  | rmax (w : DWord)
  /-- R160. Minimum present element. -/
  | rmin (w : DWord)
  /-- R160. Position of the maximum. -/
  | rargmx (w : DWord)
  /-- R158. Sequential inclusive running sums. -/
  | rscan (w : DWord)
  /-- R160. Permutes lanes by the index run r. -/
  | shuf (w : DWord)
  /-- R160. Broadcasts element K to every lane. -/
  | bcast (w : DWord)
  /-- R160. Rotates lanes by K. -/
  | rotl (w : DWord)
  /-- R160. Moves present elements to the front. -/
  | compact (w : DWord)
  /-- R160. Inverse of COMPACT under r's mask. -/
  | expand (w : DWord)
  /-- R160. Count of present elements. -/
  | rpop (w : DWord)
  /-- R160. Two largest values and their positions. -/
  | rtop2 (w : DWord)
  /-- R226. Loads one element per address, grouped per block, under a version mode. -/
  | ld (w : MWord)
  /-- R226. Stores per block group, creating one new version per group, and emits the versions. -/
  | st (w : MWord)
  /-- R226. Atomic read-modify-write creating a NEXT version. -/
  | atom (w : MWord)
  /-- R226. Compare and swap creating a NEXT version. -/
  | cas (w : MWord)
  /-- R228. Retires retained versions of each block and frees their buffer entries. -/
  | reclaim (w : MWord)
  /-- R228. Orders predecessors before successors at a scope and emits l. -/
  | fence (w : MWord)
  /-- R228. Waits for each block to reach a version without loading. -/
  | vwait (w : MWord)
  /-- R227. Loads a whole typed block as runs with its format and scale. -/
  | ldb (w : MWord)
  /-- R227. Stores a run as one typed block. -/
  | stb (w : MWord)
  /-- R190. Issues a descriptor copy to the cluster's streamer. -/
  | copy (w : EWord)
  /-- R195. Binds a descriptor as a template to a trigger channel. -/
  | arm (w : EWord)
  /-- R195. Unbinds a template once its queued firings complete. -/
  | disarm (w : EWord)
  /-- R196. Issues an indexed read of rows through an index list. -/
  | gather (w : EWord)
  /-- R196. Issues an indexed write of rows through an index list. -/
  | scatter (w : EWord)
  /-- R198. Reports the state, cursor and queue depth of an AGN. -/
  | cpstat (w : EWord)
  /-- R198. Aborts the named AGN's command if it belongs to the issuing context. -/
  | cpstop (w : EWord)
  /-- R180. Queues a matrix multiply-accumulate into an owned accumulator. -/
  | mma (w : EWord)
  /-- R181. Queues a cooperative MMA of a group of clusters. -/
  | mmac (w : EWord)
  /-- R182. Zeroes an accumulator and sets its kind. -/
  | accz (w : EWord)
  /-- R182. Reads an accumulator out as runs. -/
  | accrd (w : EWord)
  /-- R182. Writes run elements into accumulator positions. -/
  | accwr (w : EWord)
  /-- R182. Reports the matrix array's state. -/
  | mmstat (w : EWord)
  /-- R167. Hands a run to the converter node for format and scale conversion. -/
  | cvt (w : EWord)
  /-- R168. Re-blocks a stream into runs of another length. -/
  | reblk (w : EWord)
  /-- R169. Splits a run into bit planes. -/
  | qplane (w : EWord)
  /-- R169. Joins bit planes back into values. -/
  | qunpl (w : EWord)
  /-- R167. Computes a block scale from the maximum magnitude. -/
  | scalemx (w : EWord)
  /-- R260. Queues an auction start at the Registrar. -/
  | aucgo (w : EWord)
  /-- R260. Runs n rounds of an auction, resuming a paused one or starting afresh. -/
  | aucstep (w : EWord)
  /-- R260. Writes a Registrar register. -/
  | aucset (w : EWord)
  /-- R260. Reads a snapshot of the auction state. -/
  | aucget (w : EWord)
  /-- R260. Stops the owner's auction at the end of the round. -/
  | aucstop (w : EWord)
  /-- R327. Raises Trap with a subcode and emits a FAULT token. -/
  | trap (w : DWord)
  /-- R327. Stores a probe record of l into the context's probe ring. -/
  | probe (w : DWord)
  /-- R327. Reads a tile, domain or context counter. -/
  | statq (w : DWord)
  /-- R327. Reads the context's census and engine-command count. -/
  | census (w : DWord)
  /-- R327. Asks the Dean to ring the bells of the graph's own context. -/
  | bellin (w : DWord)
  /-- R306. Allocates the lowest free context tag and binds it to a queue and image. -/
  | ctxnew (w : DWord)
  /-- R306. Makes a reclaimed RETIRING context FREE. -/
  | ctxfree (w : DWord)
  /-- R306. Checks and injects one token image. -/
  | inject (w : DWord)
  /-- R306. Starts the Eraser over a rectangle and banks and reassigns them. -/
  | scrub (w : DWord)
  /-- R306. Hardware placement search that opens a session for a loader task. -/
  | placeh (w : DWord)
  /-- R345. Snapshots or signs a tenant's attendance meters into a report. -/
  | meter (w : DWord)
  /-- R343. Loads or unloads a memory-encryption key slot. -/
  | keyld (w : DWord)
  /-- R319. Originates bells at every source of a context's region. -/
  | bellout (w : DWord)
  -- control-core instructions: fields as R40 lays them out
  /-- R280. gD := gA + gB. -/
  | addC (d : BitVec 5) (a : BitVec 5) (b : BitVec 5)
  /-- R280. gD := gA − gB. -/
  | subC (d : BitVec 5) (a : BitVec 5) (b : BitVec 5)
  /-- R280. Bitwise and. -/
  | andC (d : BitVec 5) (a : BitVec 5) (b : BitVec 5)
  /-- R280. Bitwise or. -/
  | orC (d : BitVec 5) (a : BitVec 5) (b : BitVec 5)
  /-- R280. Bitwise exclusive or. -/
  | xorC (d : BitVec 5) (a : BitVec 5) (b : BitVec 5)
  /-- R280. Left shift by gB[5:0]. -/
  | sll (d : BitVec 5) (a : BitVec 5) (b : BitVec 5)
  /-- R280. Logical right shift. -/
  | srl (d : BitVec 5) (a : BitVec 5) (b : BitVec 5)
  /-- R280. Arithmetic right shift. -/
  | sra (d : BitVec 5) (a : BitVec 5) (b : BitVec 5)
  /-- R280. Signed less-than, 1 or 0. -/
  | slt (d : BitVec 5) (a : BitVec 5) (b : BitVec 5)
  /-- R280. Unsigned less-than. -/
  | sltu (d : BitVec 5) (a : BitVec 5) (b : BitVec 5)
  /-- R280. Low 64 bits of the product. -/
  | mulC (d : BitVec 5) (a : BitVec 5) (b : BitVec 5)
  /-- R280. Signed high 64 bits of the product. -/
  | mulhC (d : BitVec 5) (a : BitVec 5) (b : BitVec 5)
  /-- R280. Unsigned high 64 bits of the product. -/
  | mulhu (d : BitVec 5) (a : BitVec 5) (b : BitVec 5)
  /-- R280. Signed quotient. -/
  | divC (d : BitVec 5) (a : BitVec 5) (b : BitVec 5)
  /-- R280. Unsigned quotient. -/
  | divu (d : BitVec 5) (a : BitVec 5) (b : BitVec 5)
  /-- R280. Signed remainder. -/
  | remC (d : BitVec 5) (a : BitVec 5) (b : BitVec 5)
  /-- R280. Unsigned remainder. -/
  | remu (d : BitVec 5) (a : BitVec 5) (b : BitVec 5)
  /-- R280. Signed lesser. -/
  | minC (d : BitVec 5) (a : BitVec 5) (b : BitVec 5)
  /-- R280. Signed greater. -/
  | maxC (d : BitVec 5) (a : BitVec 5) (b : BitVec 5)
  /-- R280. Leading zeros of gA. -/
  | clzC (d : BitVec 5) (a : BitVec 5)
  /-- R280. Set bits of gA. -/
  | popcC (d : BitVec 5) (a : BitVec 5)
  /-- R281. gD := gA + IMM15. -/
  | addi (d : BitVec 5) (a : BitVec 5) (i : BitVec 15)
  /-- R281. And with IMM15. -/
  | andi (d : BitVec 5) (a : BitVec 5) (i : BitVec 15)
  /-- R281. Or with IMM15. -/
  | ori (d : BitVec 5) (a : BitVec 5) (i : BitVec 15)
  /-- R281. Exclusive or with IMM15. -/
  | xori (d : BitVec 5) (a : BitVec 5) (i : BitVec 15)
  /-- R281. Left shift by IMM15[5:0]. -/
  | slli (d : BitVec 5) (a : BitVec 5) (i : BitVec 6)
  /-- R281. Logical right shift by an immediate. -/
  | srli (d : BitVec 5) (a : BitVec 5) (i : BitVec 6)
  /-- R281. Arithmetic right shift by an immediate. -/
  | srai (d : BitVec 5) (a : BitVec 5) (i : BitVec 6)
  /-- R281. Signed less-than an immediate. -/
  | slti (d : BitVec 5) (a : BitVec 5) (i : BitVec 15)
  /-- R281. gD := sign-extended IMM20 shifted left 12. -/
  | lui (d : BitVec 5) (i : BitVec 20)
  /-- R283. Loads SZ bytes zero-extended under a version mode. -/
  | ldC (d : BitVec 5) (a : BitVec 5) (v : BitVec 5) (m : BitVec 2) (s : BitVec 3) (z : BitVec 2) (q : BitVec 1)
  /-- R283. Loads SZ bytes sign-extended. -/
  | lds (d : BitVec 5) (a : BitVec 5) (v : BitVec 5) (m : BitVec 2) (s : BitVec 3) (z : BitVec 2) (q : BitVec 1)
  /-- R283. Stores the low SZ bytes of gD, creating a version. -/
  | stC (d : BitVec 5) (a : BitVec 5) (v : BitVec 5) (m : BitVec 2) (s : BitVec 3) (z : BitVec 2) (q : BitVec 1)
  /-- R283. Atomic add returning the old word. -/
  | aadd (d : BitVec 5) (a : BitVec 5) (v : BitVec 5) (m : BitVec 2) (s : BitVec 3) (z : BitVec 2) (q : BitVec 1)
  /-- R283. Atomic signed minimum. -/
  | amin (d : BitVec 5) (a : BitVec 5) (v : BitVec 5) (m : BitVec 2) (s : BitVec 3) (z : BitVec 2) (q : BitVec 1)
  /-- R283. Atomic signed maximum. -/
  | amax (d : BitVec 5) (a : BitVec 5) (v : BitVec 5) (m : BitVec 2) (s : BitVec 3) (z : BitVec 2) (q : BitVec 1)
  /-- R283. Atomic exchange. -/
  | axchg (d : BitVec 5) (a : BitVec 5) (v : BitVec 5) (m : BitVec 2) (s : BitVec 3) (z : BitVec 2) (q : BitVec 1)
  /-- R283. Compare and swap returning the old word. -/
  | casC (d : BitVec 5) (a : BitVec 5) (v : BitVec 5) (m : BitVec 2) (s : BitVec 3) (z : BitVec 2) (q : BitVec 1)
  /-- R284. Orders the task's accesses at a scope. -/
  | fenceC (s : BitVec 3)
  /-- R284. Retires retained versions of gA's block. -/
  | reclaimC (d : BitVec 5) (a : BitVec 5) (b : BitVec 5)
  /-- R284. Waits until gA's block reaches a version. -/
  | vwaitC (d : BitVec 5) (a : BitVec 5) (b : BitVec 5)
  /-- R285. Branch if equal. -/
  | beq (a : BitVec 5) (b : BitVec 5) (f : BitVec 15)
  /-- R285. Branch if not equal. -/
  | bne (a : BitVec 5) (b : BitVec 5) (f : BitVec 15)
  /-- R285. Branch if signed less. -/
  | blt (a : BitVec 5) (b : BitVec 5) (f : BitVec 15)
  /-- R285. Branch if signed not less. -/
  | bge (a : BitVec 5) (b : BitVec 5) (f : BitVec 15)
  /-- R285. Branch if unsigned less. -/
  | bltu (a : BitVec 5) (b : BitVec 5) (f : BitVec 15)
  /-- R285. Branch if unsigned not less. -/
  | bgeu (a : BitVec 5) (b : BitVec 5) (f : BitVec 15)
  /-- R285. Jump relative and link. -/
  | jal (d : BitVec 5) (f : BitVec 20)
  /-- R285. Jump to register plus offset and link. -/
  | jalr (d : BitVec 5) (a : BitVec 5) (i : BitVec 15)
  /-- R286. Waits for and takes a token from a bound VC, optionally storing it, and adopts its CTX. -/
  | recv (d : BitVec 5) (a : BitVec 5) (b : BitVec 5)
  /-- R287. Reads, checks and injects a token image. -/
  | send (d : BitVec 5) (a : BitVec 5)
  /-- R286. Binds or unbinds a VC to this task. -/
  | bind (d : BitVec 5) (a : BitVec 5)
  /-- R286. Starts a child task in a free context of the core, waiting for one. -/
  | spawn (d : BitVec 5) (a : BitVec 5) (b : BitVec 5)
  /-- R286. Blocks the task for a cycle count. -/
  | sleep (a : BitVec 5)
  /-- R286. Ends a task of this core. -/
  | kill (d : BitVec 5) (a : BitVec 5)
  /-- R77. Checks and stages one tile block in the session's rectangle. -/
  | cfgw (d : BitVec 5) (a : BitVec 5) (b : BitVec 5)
  /-- R78. Stages one block on every tile of a rectangle list by multicast. -/
  | cfgmc (d : BitVec 5) (a : BitVec 5) (b : BitVec 5)
  /-- R79. Returns the CRC-32C of a staged block. -/
  | cfgcrc (d : BitVec 5) (a : BitVec 5)
  /-- R80. Commits the session: applies route fixes, makes tiles RESIDENT, registers the region and creates image tasks. -/
  | cfgcom (d : BitVec 5)
  /-- R81. Discards the session's staged blocks and frees its tiles. -/
  | cfgrb (d : BitVec 5)
  /-- R82. Opens a session by reserving a rectangle in search or fixed mode. -/
  | place (d : BitVec 5) (a : BitVec 5) (b : BitVec 5)
  /-- R83. Returns the fuse map of one half-row. -/
  | fuseq (d : BitVec 5) (a : BitVec 5)
  /-- R84. Verifies an image's digest and SM2 signature. -/
  | sigchk (d : BitVec 5) (a : BitVec 5) (b : BitVec 5)
  /-- R200. Issues a descriptor copy with a completion register. -/
  | copyC (d : BitVec 5) (a : BitVec 5) (q : BitVec 1) (r : BitVec 1) (s : BitVec 3) (f : BitVec 1)
  /-- R200. Issues a gather with a completion register. -/
  | gatherC (d : BitVec 5) (a : BitVec 5) (b : BitVec 5) (q : BitVec 1) (r : BitVec 1) (s : BitVec 3) (f : BitVec 1)
  /-- R200. Binds a template from the control core. -/
  | armC (d : BitVec 5) (a : BitVec 5) (q : BitVec 1) (r : BitVec 1) (s : BitVec 3)
  /-- R200. Unbinds a template from the control core. -/
  | disarmC (d : BitVec 5) (a : BitVec 5)
  /-- R183. Issues an MMA under the task's context with a completion register. -/
  | mmaC (d : BitVec 5) (a : BitVec 5) (q : BitVec 1) (s : BitVec 3)
  /-- R261. Starts an auction owned by the task's context. -/
  | aucgoC (d : BitVec 5) (a : BitVec 5) (q : BitVec 1) (s : BitVec 3)
  /-- R261. Reads the Registrar's status into gD. -/
  | aucgetC (d : BitVec 5)
  /-- R288. Advances a CRC-32C state over 8 bytes. -/
  | crc32c (d : BitVec 5) (a : BitVec 5) (b : BitVec 5)
  /-- R247. Loads a recipe, evaluates it into gD, tags gD and pins its sources. -/
  | rtag (d : BitVec 5) (a : BitVec 5) (b : BitVec 5)
  /-- R247. Removes gD's recipe tag and unpins unused sources. -/
  | runtag (d : BitVec 5)
  /-- R200. Restarts an AGN stalled on a translation fault. -/
  | resume (d : BitVec 5) (a : BitVec 5)
  /-- R289. Reads a CSR. -/
  | csrr (d : BitVec 5) (c : BitVec 15)
  /-- R289. Writes a CSR and returns its old value. -/
  | csrw (d : BitVec 5) (a : BitVec 5) (c : BitVec 15)
  /-- R279. Raises Trap with a code and enters the handler or exits. -/
  | trapC (c : BitVec 8)
  /-- R324. Freezes a LIVE context, or resumes one it froze. -/
  | halt (d : BitVec 5) (a : BitVec 5)
  /-- R325. Has the Dean ring a context's bells and blocks until SAVED or failure. -/
  | bell (d : BitVec 5) (a : BitVec 5)
  /-- R325. Waits for a context's issued memory groups and engine commands to settle. -/
  | quiesce (d : BitVec 5) (a : BitVec 5)
  -- events of the device that carry data: steps without an encoding (spec/95)
  /-- R213. Write of an ASID to XINV invalidates every translation entry of that ASID and waits for translated accesses to perform. -/
  | xinv (asid : BitVec 16)
  /-- R217. A memory group is performed at its home under its version mode, or waits there. -/
  | homeAccess (who : StreamId)
  /-- R293. A host token image written to an ingress window is appended to the queue buffer, or held until room. -/
  | ingressWrite (window : Nat) (image : List Word)
  /-- R353. A host access to the device aperture is performed at its home as a sys-scope access. -/
  | hostApertureAccess (port off load : Nat) (data : List Byte)
  /-- R351. A host write of TAIL makes the Dean serve the new command records in ring order. -/
  | tail (v : BitVec 32)
  /-- R351. A host write to another mailbox field, such as the ring base, entry count or interrupt addresses. -/
  | mailboxWrite (off : Nat) (v : Word)
  /-- R352. An unknown command OP completes with BadCmd. -/
  | badCommand (op : BitVec 16)
  /-- R354. After reset the boot ROM loads fuses and keys, trains DRAM and ports, verifies firmware and starts the Dean. -/
  | reset (rom : BootInputs)
  /-- R43. A task executes a control-core word whose opcode is 0x00 or not in R42, or whose format-zero fields are nonzero, and takes a precise Illegal fault (BadOp or BadField). -/
  | badOp (w : BitVec 32)
  /-- R349. A peer package's access arrives over an Eprad Switch port and is performed at its home in this device's aperture as a sys-scope access; a load reads `load` bytes. -/
  | peerAccess (off load : Nat) (op : PeerOp)
  -- control-core instructions without fields
  /-- R286. Gives up the core while staying runnable. -/
  | yield
  /-- R289. Returns from the trap handler. -/
  | eret
  /-- R289. Blocks until a VC holds a token, a pending bit clears or a sleep expires. -/
  | wfi
  -- events of the device: the unit that moves is the focus of the state (spec/95)
  /-- R89. A token arrives at a tile and is admitted when enough match entries are free, or waits in its input buffer. -/
  | tokenArrival
  /-- R111. A pool or ticket operation arriving at the pool's tile is served, one per cycle in arrival order. -/
  | poolOp
  /-- R124. A grant reaches the requesting tile, which emits the handle run or passes the ticketed run. -/
  | grantArrival
  /-- R241. The tile's replay unit recomputes a dropped sticky from its recipe and admits the value. -/
  | replay
  /-- R163. A converter node finishes a queued pairing and emits its result in acceptance order. -/
  | converterPairing
  /-- R187. The head of the streamer queue takes a free AGN and starts its command. -/
  | agnAssign
  /-- R193. A streamer command completes, releases, and delivers its completion token, register or follow-on MMA. -/
  | streamComplete
  /-- R195. A token on a bound trigger channel fires the template as a command or is consumed. -/
  | triggerToken
  /-- R194. A transform subgraph result arriving on the return channel is written to the destination. -/
  | transformReturn
  /-- R176. The matrix array starts the next accepted command once earlier ones allow. -/
  | arrayCommandStart
  /-- R181. A cooperative MMAC row starts once every member of the row has accepted. -/
  | mmacRowStart
  /-- R180. A matrix command completes and emits its result. -/
  | arrayCommandComplete
  /-- R250. The Registrar serves the oldest servable command in its queue. -/
  | registrarServe
  /-- R255. One auction round of bids and column awards completes, followed by the end checks. -/
  | auctionRound
  /-- R266. The gate scorer computes and writes the logits of one token vector. -/
  | gateToken
  /-- R209. A walk slot is granted to the oldest waiting miss. -/
  | walkStart
  /-- R210. A walk's level read returns; the walk continues, fills the entry or faults. -/
  | walkStep
  /-- R221. The results of a memory pairing's groups return and the pairing emits once all are performed. -/
  | memoryResponse
  /-- R23. The Dean purges, discards, releases, writes the completion record and frees a RETIRING context. -/
  | contextReclaim
  /-- R294. The Dean picks the eligible queue with the lowest pass and tries to start its head launch. -/
  | deanSelect
  /-- R298. The Dean takes a loader's report word and accepts or rejects the image. -/
  | loaderReport
  /-- R370. After draining and scrubbing, the Dean assigns a resident image's commons banks to its tenant. -/
  | bankAssign
  /-- R301. The Dean waits until a region's links, queues and engines are empty before unloading or reassigning. -/
  | drain
  /-- R72. The Dean unloads a resident image when no context uses it, returning its tiles to FREE. -/
  | imageUnload
  /-- R303. Every 4,096 cycles the Timetable activates or parks one replica per stage. -/
  | timetableSample
  /-- R357. Every 4,096 cycles the Dean estimates power and enforces the cap. -/
  | powerEstimate
  /-- R357. A die temperature above 110 °C halts every LIVE context and sets the cap to 300 W. -/
  | thermalTrip
  /-- R357. Contexts resume when the temperature falls below 95 °C. -/
  | thermalRecovery
  /-- R316. A region's Proctor counter reaches its interval with work outstanding. -/
  | proctorExpiry
  /-- R319. After started firings finish, a tile saves the context's state and sends bells on. -/
  | tileSave
  /-- R320. A context not SAVED within the Proctor interval after BELLOUT raises BellProtocol Stuck. -/
  | bellStuck
  /-- R340. The Eraser finishes and SCRUB emits. -/
  | eraserDone
  /-- R271. A bucket request to dean.2 launches variants of the bucket table. -/
  | bucketRequest
  /-- R271. Once all bucket launches complete, the Dean sends the count to the completion target. -/
  | bucketCompletion
  /-- R297. A token to dean.0 is appended to the completion ring as a host message. -/
  | hostMessage
  /-- R297. A launch header to dean.1 is launched in the sender's queue. -/
  | childLaunch
  /-- R297. A token to a reserved Dean channel is consumed with Route Dean. -/
  | deanChannelReserved
  /-- R278. A token is delivered into a control-core VC queue, waking a task in RECV or WFI. -/
  | vcDelivery
  /-- R275. A task that has retired 1,024 instructions while another is runnable loses the core. -/
  | quantumExpiry
  /-- R286. A sleeping task's cycle count expires and it becomes runnable. -/
  | sleepExpiry
  /-- R290. An instruction fetch of a new 64-byte block completes. -/
  | fetchBlock
  /-- R330. A packet advances one router hop on its VC when the next buffer has room. -/
  | packetHop
  /-- R334. A link flit that fails its check is sent again. -/
  | flitRetry
  /-- R292. Checks and installs a queue record. -/
  | hostQset
  /-- R352. Binds or unbinds an ingress window to a queue of its group. -/
  | hostWbind
  /-- R352. Binds the tenant of aperture accesses on a host port. -/
  | hostPortten
  /-- R357. Sets the package power cap. -/
  | hostPowcap
  /-- R336. Loads router entries of a multicast group. -/
  | hostMcast
  /-- R308. Invalidates and writes an ASID table entry. -/
  | hostAsid
  /-- R309. Loads or unloads a stack domain's gate set. -/
  | hostGate
  /-- R343. Loads or unloads a memory-encryption key slot. -/
  | hostKey
  /-- R72. Unloads an image. -/
  | hostUnload
  /-- R300. Aborts a LIVE or FROZEN context. -/
  | hostAbort
  /-- R300. Returns a held FROZEN context to LIVE. -/
  | hostResume
  /-- R352. Rings a context's bells and completes when it is SAVED. -/
  | hostPreempt
  /-- R364. Restores a SAVED context, optionally at a named origin. -/
  | hostRestore
  /-- R300. Discards a SAVED context. -/
  | hostDiscard
  /-- R345. Snapshots or signs a tenant's meters. -/
  | hostMeter
  /-- R346. Exports a queue's canonical record and dirty bitmap. -/
  | hostExport
  /-- R346. Rebuilds a queue from an exported record. -/
  | hostImport
  /-- R316. Sets the Proctor interval of an image's region. -/
  | hostProctor
  /-- R352. Copies an occupancy map to the host. -/
  | hostMapget
  /-- R370. Drains, scrubs, assigns and pins or unpins commons banks of a cluster. -/
  | hostBanks
  deriving DecidableEq, Repr, Inhabited

/-- Who moves in a turn (log entry 1): a tile's selection round, a control core's next instruction, an event of unit `u` with index `k`, the
Dean taking the next host command record, the host storing into its own memory, or an uncorrectable error in a memory
block (R311). -/
inductive Actor where
  | fire (tile : Nat)
  | core (cluster : Nat)
  | event (i : Instr) (u k : Nat)
  | deanCommand
  | hostStore (addr : Nat) (data : List Byte)
  | memoryError (block : Nat)
  | bstoreError (cluster block : Nat)
  deriving DecidableEq, Repr, Inhabited

/-- One turn: how many fabric cycles pass before it, and who moves. -/
structure Turn where
  delay : Nat := 1
  actor : Actor
  deriving DecidableEq, Repr, Inhabited


end Sys2Proof
end

