-- ==== Sys2Proof/WellFormed.lean ====
section
/-! DEFINITION. Which slot words are well formed: the field sets of R33, R65, R66, R102, R121, R144, R165, R179, R199,
R225, R243, R259, R305 and R326, and the target codes of R34. What depends on the tile, the block or the image
(capabilities, NFAN, constants, PRIV, the image rectangle) is the loader's check, in Machine/Loader.lean. -/

namespace Sys2Proof

/-- A slot word's fields under its layout (R30). -/
inductive SlotWord where
  | d (w : DWord)
  | m (w : MWord)
  | e (w : EWord)
  deriving DecidableEq, Repr, Inhabited

/-- The opcode (R38) and fields of a fabric instruction; none for the other rows. -/
def Instr.slotWord : Instr → Option (Nat × SlotWord)
  | .sink w => some (0x00, .d w)
  | .pass w => some (0x01, .d w)
  | .fanout w => some (0x02, .d w)
  | .steer w => some (0x03, .d w)
  | .merge w => some (0x04, .d w)
  | .sync w => some (0x05, .d w)
  | .emit w => some (0x06, .d w)
  | .retag w => some (0x07, .d w)
  | .stick w => some (0x08, .d w)
  | .purge w => some (0x09, .d w)
  | .cancel w => some (0x0A, .d w)
  | .split w => some (0x0B, .d w)
  | .pack w => some (0x0C, .d w)
  | .unpack w => some (0x0D, .d w)
  | .ctag w => some (0x0E, .d w)
  | .egress w => some (0x0F, .d w)
  | .alloc w => some (0x10, .d w)
  | .release w => some (0x11, .d w)
  | .give w => some (0x12, .d w)
  | .tld w => some (0x13, .d w)
  | .tst w => some (0x14, .d w)
  | .ticket w => some (0x15, .d w)
  | .retn w => some (0x16, .d w)
  | .poolq w => some (0x17, .d w)
  | .recall w => some (0x18, .d w)
  | .drop w => some (0x19, .d w)
  | .add w => some (0x20, .d w)
  | .sub w => some (0x21, .d w)
  | .mul w => some (0x22, .d w)
  | .mulh w => some (0x23, .d w)
  | .div w => some (0x24, .d w)
  | .rem w => some (0x25, .d w)
  | .min w => some (0x26, .d w)
  | .max w => some (0x27, .d w)
  | .abs w => some (0x28, .d w)
  | .neg w => some (0x29, .d w)
  | .and w => some (0x2A, .d w)
  | .or w => some (0x2B, .d w)
  | .xor w => some (0x2C, .d w)
  | .andn w => some (0x2D, .d w)
  | .not w => some (0x2E, .d w)
  | .shl w => some (0x2F, .d w)
  | .shr w => some (0x30, .d w)
  | .sar w => some (0x31, .d w)
  | .rol w => some (0x32, .d w)
  | .clz w => some (0x33, .d w)
  | .popc w => some (0x34, .d w)
  | .cmp w => some (0x35, .d w)
  | .adds w => some (0x36, .d w)
  | .subs w => some (0x37, .d w)
  | .madk w => some (0x38, .d w)
  | .agen w => some (0x39, .d w)
  | .bfx w => some (0x3A, .d w)
  | .mask w => some (0x3B, .d w)
  | .fadd w => some (0x40, .d w)
  | .fsub w => some (0x41, .d w)
  | .fmul w => some (0x42, .d w)
  | .fmak w => some (0x43, .d w)
  | .fnmsk w => some (0x44, .d w)
  | .fdiv w => some (0x45, .d w)
  | .fsqrt w => some (0x46, .d w)
  | .fmin w => some (0x47, .d w)
  | .fmax w => some (0x48, .d w)
  | .fabs w => some (0x49, .d w)
  | .fneg w => some (0x4A, .d w)
  | .fcmp w => some (0x4B, .d w)
  | .fclass w => some (0x4C, .d w)
  | .fscale w => some (0x4D, .d w)
  | .fcpys w => some (0x4E, .d w)
  | .fround w => some (0x4F, .d w)
  | .frsqe w => some (0x60, .d w)
  | .frcpe w => some (0x61, .d w)
  | .fexp2 w => some (0x62, .d w)
  | .flog2 w => some (0x63, .d w)
  | .fsin w => some (0x64, .d w)
  | .fcos w => some (0x65, .d w)
  | .ftanh w => some (0x66, .d w)
  | .fsigm w => some (0x67, .d w)
  | .cvtl w => some (0x68, .d w)
  | .narrow w => some (0x69, .d w)
  | .widen w => some (0x6A, .d w)
  | .plane w => some (0x6B, .d w)
  | .bits w => some (0x6C, .d w)
  | .rsum w => some (0x70, .d w)
  | .rmax w => some (0x71, .d w)
  | .rmin w => some (0x72, .d w)
  | .rargmx w => some (0x73, .d w)
  | .rscan w => some (0x74, .d w)
  | .shuf w => some (0x75, .d w)
  | .bcast w => some (0x76, .d w)
  | .rotl w => some (0x77, .d w)
  | .compact w => some (0x78, .d w)
  | .expand w => some (0x79, .d w)
  | .rpop w => some (0x7A, .d w)
  | .rtop2 w => some (0x7B, .d w)
  | .ld w => some (0x80, .m w)
  | .st w => some (0x81, .m w)
  | .atom w => some (0x82, .m w)
  | .cas w => some (0x83, .m w)
  | .reclaim w => some (0x84, .m w)
  | .fence w => some (0x85, .m w)
  | .vwait w => some (0x86, .m w)
  | .ldb w => some (0x87, .m w)
  | .stb w => some (0x88, .m w)
  | .copy w => some (0x90, .e w)
  | .arm w => some (0x91, .e w)
  | .disarm w => some (0x92, .e w)
  | .gather w => some (0x93, .e w)
  | .scatter w => some (0x94, .e w)
  | .cpstat w => some (0x95, .e w)
  | .cpstop w => some (0x96, .e w)
  | .mma w => some (0xA0, .e w)
  | .mmac w => some (0xA1, .e w)
  | .accz w => some (0xA2, .e w)
  | .accrd w => some (0xA3, .e w)
  | .accwr w => some (0xA4, .e w)
  | .mmstat w => some (0xA5, .e w)
  | .cvt w => some (0xB0, .e w)
  | .reblk w => some (0xB1, .e w)
  | .qplane w => some (0xB2, .e w)
  | .qunpl w => some (0xB3, .e w)
  | .scalemx w => some (0xB4, .e w)
  | .aucgo w => some (0xB8, .e w)
  | .aucstep w => some (0xB9, .e w)
  | .aucset w => some (0xBA, .e w)
  | .aucget w => some (0xBB, .e w)
  | .aucstop w => some (0xBC, .e w)
  | .trap w => some (0xC0, .d w)
  | .probe w => some (0xC1, .d w)
  | .statq w => some (0xC2, .d w)
  | .census w => some (0xC3, .d w)
  | .bellin w => some (0xC4, .d w)
  | .ctxnew w => some (0xE0, .d w)
  | .ctxfree w => some (0xE1, .d w)
  | .inject w => some (0xE2, .d w)
  | .scrub w => some (0xE3, .d w)
  | .placeh w => some (0xE4, .d w)
  | .meter w => some (0xE5, .d w)
  | .keyld w => some (0xE6, .d w)
  | .bellout w => some (0xE7, .d w)
  | _ => none

namespace FieldSet

/-- The FMT sets of R65 and R66, on the code's number. -/
def isZero (f : Nat) : Bool := f == 0
def isAll (f : Nat) : Bool := f ≤ 13 || 28 ≤ f
def isNum (f : Nat) : Bool := f ≤ 13 || f == 28 || f == 29
def isInt (f : Nat) : Bool := (8 ≤ f && f ≤ 13) || f == 28 || f == 29
def isFlt (f : Nat) : Bool := f ≤ 4
def isF32 (f : Nat) : Bool := f == 1
def isN32 (f : Nat) : Bool := f == 11
def isA64 (f : Nat) : Bool := f == 30
def isIdx (f : Nat) : Bool := f == 8 || f == 11 || f == 28 || f == 29
def isW32 (f : Nat) : Bool := f == 8 || f == 11
def isMat (f : Nat) : Bool := f ≤ 27
def isPlane (f : Nat) : Bool := 14 ≤ f && f ≤ 27
def isAny (f : Nat) : Bool := f ≤ 31
def isAcc (f : Nat) : Bool := f == 0 || f == 1 || f == 8
def isAucset (f : Nat) : Bool := f == 1 || f == 11
/-- The destinations of R156's pairs. -/
def isCvtl (f : Nat) : Bool := f == 1 || f == 3 || f == 4 || f == 8 || f == 9 || f == 11 || f == 12 || f == 28 || f == 29

/-- The MOD sets of R65: codes up to a bound, on FMT and MOD numbers. -/
def upTo (b _f m : Nat) : Bool := m ≤ b
/-- Rounding: 000 when FMT is an integer format (R65). -/
def rndMod (f m : Nat) : Bool := if isInt f then m == 0 else m ≤ 5

end FieldSet

open FieldSet

/-- The KR values an opcode accepts. -/
inductive KrRule where
  | no
  | yes
  | either
  deriving DecidableEq, Repr

/-- The version sources an opcode accepts (R225). -/
inductive VerRule where
  | none
  | load
  | store
  | constOrTag
  | some
  deriving DecidableEq, Repr

/-- What an opcode accepts in the default layout. `kz`: KIDX names a third operand while KR = 0; `er`: the right
empty policy is used while KR = 0. -/
structure DRule where
  fmt : Nat → Bool
  mod : Nat → Nat → Bool
  kr  : KrRule
  kz  : Bool
  er  : Bool
  nt  : List Nat

/-- What an opcode accepts in the memory layout. -/
structure MRule where
  fmt  : Nat → Bool
  mod  : Nat → Nat → Bool
  ver  : VerRule
  aqrl : Bool
  ret  : Bool
  nt   : List Nat

/-- What an opcode accepts in the engine layout. -/
structure ERule where
  fmt    : Nat → Bool
  mod    : Nat → Nat → Bool
  scope  : Bool
  acq    : Bool
  rel    : Bool
  kidx   : Bool
  follow : Bool
  nt     : List Nat

/-- R102, R121, R144, R243, R305, R326: the default-layout opcodes. For 0xE0 to 0xE7 the table of R66 has FMT `—`, which R65 makes
zero, and R305 gives each a format: here R305's (DEDUCED, log entry 152). -/
def dRule : Nat → Option DRule
  | 0x00 => some ⟨isZero, upTo 0, .no, false, false, [0]⟩
  | 0x01 => some ⟨isAll, upTo 0, .no, false, false, [1, 2, 3]⟩
  | 0x02 => some ⟨isAll, upTo 0, .no, false, false, [3]⟩
  | 0x03 => some ⟨isAll, upTo 0, .no, false, true, [2]⟩
  | 0x04 => some ⟨isAll, upTo 0, .no, false, true, [1, 2, 3]⟩
  | 0x05 => some ⟨isAll, upTo 0, .no, false, true, [1, 2, 3]⟩
  | 0x06 => some ⟨isAll, upTo 0, .yes, false, false, [1, 2, 3]⟩
  | 0x07 => some ⟨isAll, upTo 0, .no, false, true, [1, 2, 3]⟩
  | 0x08 => some ⟨isAll, upTo 0, .either, false, false, [1, 2, 3]⟩
  | 0x09 => some ⟨isZero, upTo 0, .no, false, false, [1, 2, 3]⟩
  | 0x0A => some ⟨isZero, upTo 0, .no, false, false, [1, 2, 3]⟩
  | 0x0B => some ⟨isAll, upTo 0, .yes, false, false, [2]⟩
  | 0x0C => some ⟨isAll, upTo 0, .no, false, true, [1, 2, 3]⟩
  | 0x0D => some ⟨isAll, upTo 0, .yes, false, false, [1, 2, 3]⟩
  | 0x0E => some ⟨isN32, upTo 0, .no, false, false, [1, 2, 3]⟩
  | 0x0F => some ⟨isAll, upTo 0, .no, false, false, [1, 2, 3]⟩
  | 0x10 => some ⟨isZero, upTo 0, .yes, false, false, [1, 2, 3]⟩
  | 0x11 => some ⟨isZero, upTo 0, .no, false, true, [0, 1, 2, 3]⟩
  | 0x12 => some ⟨isZero, upTo 0, .yes, false, false, [1, 2, 3]⟩
  | 0x13 => some ⟨isAll, upTo 0, .either, false, false, [1, 2, 3]⟩
  | 0x14 => some ⟨isAll, upTo 0, .no, true, true, [1, 2, 3]⟩
  | 0x15 => some ⟨isZero, upTo 0, .yes, false, false, [1, 2, 3]⟩
  | 0x16 => some ⟨isZero, upTo 0, .yes, false, false, [1, 2, 3]⟩
  | 0x17 => some ⟨isZero, upTo 0, .yes, false, false, [1, 2, 3]⟩
  | 0x18 => some ⟨isZero, upTo 0, .yes, false, false, [0, 1, 2, 3]⟩
  | 0x19 => some ⟨isZero, upTo 0, .no, false, false, [0, 1, 2, 3]⟩
  | 0x20 => some ⟨isInt, upTo 0, .either, false, true, [1, 2, 3]⟩
  | 0x21 => some ⟨isInt, upTo 0, .either, false, true, [1, 2, 3]⟩
  | 0x22 => some ⟨isInt, upTo 0, .either, false, true, [1, 2, 3]⟩
  | 0x23 => some ⟨isInt, upTo 0, .either, false, true, [1, 2, 3]⟩
  | 0x24 => some ⟨isInt, upTo 0, .either, false, true, [1, 2, 3]⟩
  | 0x25 => some ⟨isInt, upTo 0, .either, false, true, [1, 2, 3]⟩
  | 0x26 => some ⟨isInt, upTo 0, .either, false, true, [1, 2, 3]⟩
  | 0x27 => some ⟨isInt, upTo 0, .either, false, true, [1, 2, 3]⟩
  | 0x28 => some ⟨isInt, upTo 0, .no, false, false, [1, 2, 3]⟩
  | 0x29 => some ⟨isInt, upTo 0, .no, false, false, [1, 2, 3]⟩
  | 0x2A => some ⟨isInt, upTo 0, .either, false, true, [1, 2, 3]⟩
  | 0x2B => some ⟨isInt, upTo 0, .either, false, true, [1, 2, 3]⟩
  | 0x2C => some ⟨isInt, upTo 0, .either, false, true, [1, 2, 3]⟩
  | 0x2D => some ⟨isInt, upTo 0, .either, false, true, [1, 2, 3]⟩
  | 0x2E => some ⟨isInt, upTo 0, .no, false, false, [1, 2, 3]⟩
  | 0x2F => some ⟨isInt, upTo 0, .either, false, true, [1, 2, 3]⟩
  | 0x30 => some ⟨isInt, upTo 0, .either, false, true, [1, 2, 3]⟩
  | 0x31 => some ⟨isInt, upTo 0, .either, false, true, [1, 2, 3]⟩
  | 0x32 => some ⟨isInt, upTo 0, .either, false, true, [1, 2, 3]⟩
  | 0x33 => some ⟨isInt, upTo 0, .no, false, false, [1, 2, 3]⟩
  | 0x34 => some ⟨isInt, upTo 0, .no, false, false, [1, 2, 3]⟩
  | 0x35 => some ⟨isInt, upTo 5, .either, false, true, [1, 2, 3]⟩
  | 0x36 => some ⟨isInt, upTo 0, .either, false, true, [1, 2, 3]⟩
  | 0x37 => some ⟨isInt, upTo 0, .either, false, true, [1, 2, 3]⟩
  | 0x38 => some ⟨isInt, upTo 0, .no, true, true, [1, 2, 3]⟩
  | 0x39 => some ⟨isIdx, upTo 0, .no, true, true, [1, 2, 3]⟩
  | 0x3A => some ⟨isInt, upTo 0, .yes, false, false, [1, 2, 3]⟩
  | 0x3B => some ⟨isAll, upTo 0, .no, false, true, [1, 2, 3]⟩
  | 0x40 => some ⟨isFlt, upTo 5, .either, false, true, [1, 2, 3]⟩
  | 0x41 => some ⟨isFlt, upTo 5, .either, false, true, [1, 2, 3]⟩
  | 0x42 => some ⟨isFlt, upTo 5, .either, false, true, [1, 2, 3]⟩
  | 0x43 => some ⟨isFlt, upTo 5, .no, true, true, [1, 2, 3]⟩
  | 0x44 => some ⟨isFlt, upTo 5, .no, true, true, [1, 2, 3]⟩
  | 0x45 => some ⟨isFlt, upTo 5, .either, false, true, [1, 2, 3]⟩
  | 0x46 => some ⟨isFlt, upTo 5, .no, false, false, [1, 2, 3]⟩
  | 0x47 => some ⟨isFlt, upTo 0, .either, false, true, [1, 2, 3]⟩
  | 0x48 => some ⟨isFlt, upTo 0, .either, false, true, [1, 2, 3]⟩
  | 0x49 => some ⟨isFlt, upTo 0, .no, false, false, [1, 2, 3]⟩
  | 0x4A => some ⟨isFlt, upTo 0, .no, false, false, [1, 2, 3]⟩
  | 0x4B => some ⟨isFlt, upTo 6, .either, false, true, [1, 2, 3]⟩
  | 0x4C => some ⟨isFlt, upTo 0, .no, false, false, [1, 2, 3]⟩
  | 0x4D => some ⟨isFlt, upTo 5, .either, false, true, [1, 2, 3]⟩
  | 0x4E => some ⟨isFlt, upTo 0, .either, false, true, [1, 2, 3]⟩
  | 0x4F => some ⟨isFlt, upTo 5, .no, false, false, [1, 2, 3]⟩
  | 0x60 => some ⟨isF32, upTo 0, .no, false, false, [1, 2, 3]⟩
  | 0x61 => some ⟨isF32, upTo 0, .no, false, false, [1, 2, 3]⟩
  | 0x62 => some ⟨isF32, upTo 0, .no, false, false, [1, 2, 3]⟩
  | 0x63 => some ⟨isF32, upTo 0, .no, false, false, [1, 2, 3]⟩
  | 0x64 => some ⟨isF32, upTo 0, .no, false, false, [1, 2, 3]⟩
  | 0x65 => some ⟨isF32, upTo 0, .no, false, false, [1, 2, 3]⟩
  | 0x66 => some ⟨isF32, upTo 0, .no, false, false, [1, 2, 3]⟩
  | 0x67 => some ⟨isF32, upTo 0, .no, false, false, [1, 2, 3]⟩
  | 0x68 => some ⟨isCvtl, upTo 5, .no, false, false, [1, 2, 3]⟩
  | 0x69 => some ⟨isInt, upTo 0, .no, false, false, [1, 2, 3]⟩
  | 0x6A => some ⟨isInt, upTo 0, .no, false, false, [1, 2, 3]⟩
  | 0x6B => some ⟨isInt, upTo 0, .either, false, true, [1, 2, 3]⟩
  | 0x6C => some ⟨isInt, upTo 0, .no, false, false, [1, 2, 3]⟩
  | 0x70 => some ⟨isNum, rndMod, .either, false, false, [1, 2, 3]⟩
  | 0x71 => some ⟨isNum, upTo 0, .no, false, false, [1, 2, 3]⟩
  | 0x72 => some ⟨isNum, upTo 0, .no, false, false, [1, 2, 3]⟩
  | 0x73 => some ⟨isNum, upTo 0, .no, false, false, [1, 2, 3]⟩
  | 0x74 => some ⟨isNum, rndMod, .no, false, false, [1, 2, 3]⟩
  | 0x75 => some ⟨isAll, upTo 0, .no, false, true, [1, 2, 3]⟩
  | 0x76 => some ⟨isAll, upTo 0, .yes, false, false, [1, 2, 3]⟩
  | 0x77 => some ⟨isAll, upTo 0, .yes, false, false, [1, 2, 3]⟩
  | 0x78 => some ⟨isAll, upTo 0, .no, false, false, [1, 2, 3]⟩
  | 0x79 => some ⟨isAll, upTo 0, .no, false, true, [1, 2, 3]⟩
  | 0x7A => some ⟨isAll, upTo 0, .no, false, false, [1, 2, 3]⟩
  | 0x7B => some ⟨isNum, upTo 0, .no, false, false, [2]⟩
  | 0xC0 => some ⟨isZero, upTo 0, .yes, false, false, [0, 1, 2, 3]⟩
  | 0xC1 => some ⟨isAll, upTo 0, .no, false, false, [0, 1, 2, 3]⟩
  | 0xC2 => some ⟨isZero, upTo 0, .yes, false, false, [1, 2, 3]⟩
  | 0xC3 => some ⟨isZero, upTo 0, .no, false, false, [1, 2, 3]⟩
  | 0xC4 => some ⟨isZero, upTo 0, .no, false, false, [0, 1, 2, 3]⟩
  | 0xE0 => some ⟨isN32, upTo 0, .no, false, false, [1, 2, 3]⟩
  | 0xE1 => some ⟨isN32, upTo 0, .no, false, false, [0, 1, 2, 3]⟩
  | 0xE2 => some ⟨isA64, upTo 0, .no, false, false, [0, 1, 2, 3]⟩
  | 0xE3 => some ⟨isN32, upTo 0, .no, false, false, [0, 1, 2, 3]⟩
  | 0xE4 => some ⟨isA64, upTo 0, .no, false, false, [1, 2, 3]⟩
  | 0xE5 => some ⟨isA64, upTo 0, .no, false, false, [0, 1, 2, 3]⟩
  | 0xE6 => some ⟨isA64, upTo 0, .no, false, false, [0, 1, 2, 3]⟩
  | 0xE7 => some ⟨isN32, upTo 0, .no, false, false, [0, 1, 2, 3]⟩
  | _ => none

/-- R225: the memory opcodes. -/
def mRule : Nat → Option MRule
  | 0x80 => some ⟨isAll, upTo 2, .load, true, false, [1, 2, 3]⟩
  | 0x81 => some ⟨isAll, upTo 1, .store, true, true, [0, 1, 2, 3]⟩
  | 0x82 => some ⟨isIdx, upTo 5, .none, true, true, [1, 2, 3]⟩
  | 0x83 => some ⟨isW32, upTo 0, .none, true, true, [1, 2, 3]⟩
  | 0x84 => some ⟨isZero, upTo 0, .constOrTag, false, false, [0, 1, 2, 3]⟩
  | 0x85 => some ⟨isZero, upTo 0, .none, false, false, [0, 1, 2, 3]⟩
  | 0x86 => some ⟨isZero, upTo 0, .some, true, false, [1, 2, 3]⟩
  | 0x87 => some ⟨isZero, upTo 2, .load, true, false, [1, 2, 3]⟩
  | 0x88 => some ⟨isZero, upTo 1, .store, true, true, [0, 1, 2, 3]⟩
  | _ => none

/-- R165, R179, R199, R259: the engine opcodes. For GATHER, SCATTER, ACCZ, ACCWR, AUCSTEP and AUCSET the table of R66 has FMT `—`,
which R65 makes zero, and R199, R179 and R259 give each its formats: here theirs (DEDUCED, log entry 152). -/
def eRule : Nat → Option ERule
  | 0x90 => some ⟨isZero, upTo 0, true, true, true, true, true, [1, 2, 3]⟩
  | 0x91 => some ⟨isZero, upTo 0, true, true, true, true, false, [0, 1, 2, 3]⟩
  | 0x92 => some ⟨isZero, upTo 0, false, false, false, true, false, [0, 1, 2, 3]⟩
  | 0x93 => some ⟨isW32, upTo 0, true, true, true, true, true, [1, 2, 3]⟩
  | 0x94 => some ⟨isW32, upTo 0, true, true, true, true, false, [1, 2, 3]⟩
  | 0x95 => some ⟨isZero, upTo 0, false, false, false, false, false, [1, 2, 3]⟩
  | 0x96 => some ⟨isZero, upTo 0, false, false, false, false, false, [0, 1, 2, 3]⟩
  | 0xA0 => some ⟨isMat, upTo 0, true, true, false, true, false, [1, 2, 3]⟩
  | 0xA1 => some ⟨isMat, upTo 0, true, true, false, true, false, [1, 2, 3]⟩
  | 0xA2 => some ⟨isAcc, upTo 0, false, false, false, false, false, [1, 2, 3]⟩
  | 0xA3 => some ⟨isZero, upTo 0, false, false, false, true, false, [1, 2, 3]⟩
  | 0xA4 => some ⟨isAcc, upTo 0, false, false, false, false, false, [1, 2, 3]⟩
  | 0xA5 => some ⟨isZero, upTo 0, false, false, false, false, false, [1, 2, 3]⟩
  | 0xB0 => some ⟨isAny, upTo 5, false, false, false, true, false, [1, 2, 3]⟩
  | 0xB1 => some ⟨isAll, upTo 0, false, false, false, true, false, [1, 2, 3]⟩
  | 0xB2 => some ⟨isPlane, upTo 0, false, false, false, false, false, [1, 2, 3]⟩
  | 0xB3 => some ⟨isPlane, upTo 0, false, false, false, true, false, [1, 2, 3]⟩
  | 0xB4 => some ⟨isMat, upTo 0, false, false, false, false, false, [1, 2, 3]⟩
  | 0xB8 => some ⟨isZero, upTo 0, true, true, false, true, false, [1, 2, 3]⟩
  | 0xB9 => some ⟨isN32, upTo 0, true, true, false, true, false, [1, 2, 3]⟩
  | 0xBA => some ⟨isAucset, upTo 0, false, false, false, true, false, [0, 1, 2, 3]⟩
  | 0xBB => some ⟨isZero, upTo 0, false, false, false, false, false, [1, 2, 3]⟩
  | 0xBC => some ⟨isZero, upTo 0, true, false, false, false, false, [0, 1, 2, 3]⟩
  | _ => none

/-- R34: a target's code is one of an ordinary target, a VC, a trigger channel, an egress port or a Dean channel. -/
def targetOk (t : BitVec 18) : Bool :=
  let n := t.toNat
  if n / 4096 == 32 then
    let cls := n / 512 % 8
    let ix := n / 2 % 32
    n / 64 % 8 == 0 && n % 2 == 0 &&
      (if cls ≤ 1 then ix < 16 else if cls == 2 then ix < 8 else if cls == 3 then ix < 16 else false)
  else true

/-- R31: the target fields that NT leaves unused are zero, and the used ones are targets. -/
def targetsOk (nt : BitVec 2) (t1 t0 : BitVec 18) : Bool :=
  match nt.toNat with
  | 0 => t1 == 0 && t0 == 0
  | 1 => t1 == 0 && targetOk t0
  | 2 => targetOk t1 && targetOk t0
  | _ => t0 == 0 && t1.toNat < 32

/-- R102: EGRESS sends to egress targets only; entries of a fanout list are checked with the block. -/
def egressOk (nt : BitVec 2) (t1 t0 : BitVec 18) : Bool :=
  let isEgress (t : BitVec 18) := t.toNat / 4096 == 32 && t.toNat / 512 % 8 == 2
  match nt.toNat with
  | 1 => isEgress t0
  | 2 => isEgress t1 && isEgress t0
  | _ => true

/-- R33 on the default layout. -/
def DWord.ok (op : Nat) (w : DWord) : Bool :=
  match dRule op with
  | none => false
  | some r =>
    r.fmt w.fmt.toNat && r.mod w.fmt.toNat w.mod.toNat &&
    (match r.kr with
     | .no => w.kr == 0
     | .yes => w.kr == 1
     | .either => true) &&
    (w.kr == 1 || r.kz || w.kidx == 0) &&
    (if w.kr == 1 || !r.er then w.er == 0 else true) &&
    r.nt.contains w.nt.toNat &&
    (if op == 0x70 then w.ord == 0 || w.kr == 1 else w.ord == 0) &&
    targetsOk w.nt w.t1 w.t0 &&
    (op != 0x0F || egressOk w.nt w.t1 w.t0)

/-- R33 on the memory layout. -/
def MWord.ok (op : Nat) (w : MWord) : Bool :=
  match mRule op with
  | none => false
  | some r =>
    r.fmt w.fmt.toNat && r.mod w.fmt.toNat w.mod.toNat && w.scope.toNat ≤ 4 &&
    (match r.ver with
     | .none => w.vsrc == 0
     | .load => (w.mod == 0) == (w.vsrc == 0)
     | .store => if w.mod == 0 then w.vsrc == 0 else w.vsrc == 1 || w.vsrc == 2
     | .constOrTag => w.vsrc == 1 || w.vsrc == 2
     | .some => w.vsrc != 0) &&
    (w.vsrc == 2 || w.kidx == 0) &&
    (r.aqrl || w.aqrl == 0) && (r.ret || w.ret == 0) &&
    r.nt.contains w.nt.toNat && targetsOk w.nt w.t1 w.t0

/-- R33 on the engine layout. -/
def EWord.ok (op : Nat) (w : EWord) : Bool :=
  match eRule op with
  | none => false
  | some r =>
    r.fmt w.fmt.toNat && r.mod w.fmt.toNat w.mod.toNat &&
    (if r.scope then w.scope.toNat ≤ 4 else w.scope == 0) &&
    (r.acq || w.acq == 0) && (r.rel || w.rel == 0) && (r.kidx || w.kidx == 0) && (r.follow || w.follow == 0) &&
    r.nt.contains w.nt.toNat && targetsOk w.nt w.t1 w.t0

/-- R33 on a slot word under its layout. -/
def SlotWord.ok (op : Nat) : SlotWord → Bool
  | .d w => w.ok op
  | .m w => w.ok op
  | .e w => w.ok op

/-- Well-formed instructions: a fabric instruction whose slot word R33 accepts. Every control-core word that decodes
is well formed; what its fields may not hold is checked when it executes (R43). -/
def Instr.wf (i : Instr) : Bool :=
  match i.slotWord with
  | some (op, w) => w.ok op
  | none => true

end Sys2Proof
end

