-- ==== Sys2Proof/Decode.lean ====
section
/-! DEFINITION. The decoders of both instruction sets, total on any bits and rejecting by name, and after them the
encoder, from the encoding tables of R31, R36, R37, R38, R40 and R42. -/

namespace Sys2Proof

/-- Why a slot word or a control-core word is rejected. `reservedOpcode`: R39. `badFields`: R33, R34. `badOp` and
`badField`: R43. `truncated`: fewer bytes than an instruction. -/
inductive DecodeError where
  | reservedOpcode (op : Nat)
  | badFields (op : Nat)
  | badOp (op : Nat)
  | badField (op : Nat)
  | truncated
  deriving DecidableEq, Repr

/-- The fields of a default-layout word (R31). -/
def unpackD (w : BitVec 64) : DWord where
  fmt := w.extractLsb' 51 5
  mod := w.extractLsb' 48 3
  el := w.extractLsb' 46 2
  er := w.extractLsb' 44 2
  kr := w.extractLsb' 43 1
  kidx := w.extractLsb' 39 4
  nt := w.extractLsb' 37 2
  ord := w.extractLsb' 36 1
  t1 := w.extractLsb' 18 18
  t0 := w.extractLsb' 0 18

/-- The fields of a memory-layout word (R36). -/
def unpackM (w : BitVec 64) : MWord where
  fmt := w.extractLsb' 51 5
  mod := w.extractLsb' 48 3
  scope := w.extractLsb' 45 3
  aqrl := w.extractLsb' 44 1
  vsrc := w.extractLsb' 42 2
  kidx := w.extractLsb' 39 3
  nt := w.extractLsb' 37 2
  ret := w.extractLsb' 36 1
  t1 := w.extractLsb' 18 18
  t0 := w.extractLsb' 0 18

/-- The fields of an engine-layout word (R37). -/
def unpackE (w : BitVec 64) : EWord where
  fmt := w.extractLsb' 51 5
  mod := w.extractLsb' 48 3
  scope := w.extractLsb' 45 3
  acq := w.extractLsb' 44 1
  rel := w.extractLsb' 43 1
  kidx := w.extractLsb' 39 4
  nt := w.extractLsb' 37 2
  follow := w.extractLsb' 36 1
  t1 := w.extractLsb' 18 18
  t0 := w.extractLsb' 0 18

/-- The layout that an opcode selects (R30). -/
def unpackSlot (op : Nat) (w : BitVec 64) : SlotWord :=
  if 0x80 ≤ op && op ≤ 0x8F then .m (unpackM w)
  else if 0x90 ≤ op && op ≤ 0xBF then .e (unpackE w)
  else .d (unpackD w)

/-- The instruction of an opcode (R38) with its fields; none for the reserved codes of R39. -/
def slotInstr : Nat → SlotWord → Option Instr
  | 0x00, .d w => some (.sink w)
  | 0x01, .d w => some (.pass w)
  | 0x02, .d w => some (.fanout w)
  | 0x03, .d w => some (.steer w)
  | 0x04, .d w => some (.merge w)
  | 0x05, .d w => some (.sync w)
  | 0x06, .d w => some (.emit w)
  | 0x07, .d w => some (.retag w)
  | 0x08, .d w => some (.stick w)
  | 0x09, .d w => some (.purge w)
  | 0x0A, .d w => some (.cancel w)
  | 0x0B, .d w => some (.split w)
  | 0x0C, .d w => some (.pack w)
  | 0x0D, .d w => some (.unpack w)
  | 0x0E, .d w => some (.ctag w)
  | 0x0F, .d w => some (.egress w)
  | 0x10, .d w => some (.alloc w)
  | 0x11, .d w => some (.release w)
  | 0x12, .d w => some (.give w)
  | 0x13, .d w => some (.tld w)
  | 0x14, .d w => some (.tst w)
  | 0x15, .d w => some (.ticket w)
  | 0x16, .d w => some (.retn w)
  | 0x17, .d w => some (.poolq w)
  | 0x18, .d w => some (.recall w)
  | 0x19, .d w => some (.drop w)
  | 0x20, .d w => some (.add w)
  | 0x21, .d w => some (.sub w)
  | 0x22, .d w => some (.mul w)
  | 0x23, .d w => some (.mulh w)
  | 0x24, .d w => some (.div w)
  | 0x25, .d w => some (.rem w)
  | 0x26, .d w => some (.min w)
  | 0x27, .d w => some (.max w)
  | 0x28, .d w => some (.abs w)
  | 0x29, .d w => some (.neg w)
  | 0x2A, .d w => some (.and w)
  | 0x2B, .d w => some (.or w)
  | 0x2C, .d w => some (.xor w)
  | 0x2D, .d w => some (.andn w)
  | 0x2E, .d w => some (.not w)
  | 0x2F, .d w => some (.shl w)
  | 0x30, .d w => some (.shr w)
  | 0x31, .d w => some (.sar w)
  | 0x32, .d w => some (.rol w)
  | 0x33, .d w => some (.clz w)
  | 0x34, .d w => some (.popc w)
  | 0x35, .d w => some (.cmp w)
  | 0x36, .d w => some (.adds w)
  | 0x37, .d w => some (.subs w)
  | 0x38, .d w => some (.madk w)
  | 0x39, .d w => some (.agen w)
  | 0x3A, .d w => some (.bfx w)
  | 0x3B, .d w => some (.mask w)
  | 0x40, .d w => some (.fadd w)
  | 0x41, .d w => some (.fsub w)
  | 0x42, .d w => some (.fmul w)
  | 0x43, .d w => some (.fmak w)
  | 0x44, .d w => some (.fnmsk w)
  | 0x45, .d w => some (.fdiv w)
  | 0x46, .d w => some (.fsqrt w)
  | 0x47, .d w => some (.fmin w)
  | 0x48, .d w => some (.fmax w)
  | 0x49, .d w => some (.fabs w)
  | 0x4A, .d w => some (.fneg w)
  | 0x4B, .d w => some (.fcmp w)
  | 0x4C, .d w => some (.fclass w)
  | 0x4D, .d w => some (.fscale w)
  | 0x4E, .d w => some (.fcpys w)
  | 0x4F, .d w => some (.fround w)
  | 0x60, .d w => some (.frsqe w)
  | 0x61, .d w => some (.frcpe w)
  | 0x62, .d w => some (.fexp2 w)
  | 0x63, .d w => some (.flog2 w)
  | 0x64, .d w => some (.fsin w)
  | 0x65, .d w => some (.fcos w)
  | 0x66, .d w => some (.ftanh w)
  | 0x67, .d w => some (.fsigm w)
  | 0x68, .d w => some (.cvtl w)
  | 0x69, .d w => some (.narrow w)
  | 0x6A, .d w => some (.widen w)
  | 0x6B, .d w => some (.plane w)
  | 0x6C, .d w => some (.bits w)
  | 0x70, .d w => some (.rsum w)
  | 0x71, .d w => some (.rmax w)
  | 0x72, .d w => some (.rmin w)
  | 0x73, .d w => some (.rargmx w)
  | 0x74, .d w => some (.rscan w)
  | 0x75, .d w => some (.shuf w)
  | 0x76, .d w => some (.bcast w)
  | 0x77, .d w => some (.rotl w)
  | 0x78, .d w => some (.compact w)
  | 0x79, .d w => some (.expand w)
  | 0x7A, .d w => some (.rpop w)
  | 0x7B, .d w => some (.rtop2 w)
  | 0x80, .m w => some (.ld w)
  | 0x81, .m w => some (.st w)
  | 0x82, .m w => some (.atom w)
  | 0x83, .m w => some (.cas w)
  | 0x84, .m w => some (.reclaim w)
  | 0x85, .m w => some (.fence w)
  | 0x86, .m w => some (.vwait w)
  | 0x87, .m w => some (.ldb w)
  | 0x88, .m w => some (.stb w)
  | 0x90, .e w => some (.copy w)
  | 0x91, .e w => some (.arm w)
  | 0x92, .e w => some (.disarm w)
  | 0x93, .e w => some (.gather w)
  | 0x94, .e w => some (.scatter w)
  | 0x95, .e w => some (.cpstat w)
  | 0x96, .e w => some (.cpstop w)
  | 0xA0, .e w => some (.mma w)
  | 0xA1, .e w => some (.mmac w)
  | 0xA2, .e w => some (.accz w)
  | 0xA3, .e w => some (.accrd w)
  | 0xA4, .e w => some (.accwr w)
  | 0xA5, .e w => some (.mmstat w)
  | 0xB0, .e w => some (.cvt w)
  | 0xB1, .e w => some (.reblk w)
  | 0xB2, .e w => some (.qplane w)
  | 0xB3, .e w => some (.qunpl w)
  | 0xB4, .e w => some (.scalemx w)
  | 0xB8, .e w => some (.aucgo w)
  | 0xB9, .e w => some (.aucstep w)
  | 0xBA, .e w => some (.aucset w)
  | 0xBB, .e w => some (.aucget w)
  | 0xBC, .e w => some (.aucstop w)
  | 0xC0, .d w => some (.trap w)
  | 0xC1, .d w => some (.probe w)
  | 0xC2, .d w => some (.statq w)
  | 0xC3, .d w => some (.census w)
  | 0xC4, .d w => some (.bellin w)
  | 0xE0, .d w => some (.ctxnew w)
  | 0xE1, .d w => some (.ctxfree w)
  | 0xE2, .d w => some (.inject w)
  | 0xE3, .d w => some (.scrub w)
  | 0xE4, .d w => some (.placeh w)
  | 0xE5, .d w => some (.meter w)
  | 0xE6, .d w => some (.keyld w)
  | 0xE7, .d w => some (.bellout w)
  | _, _ => none

/-- The instruction of a slot word, or why the loader rejects it (R33, R39). -/
def decodeFabric (w : BitVec 64) : Except DecodeError Instr :=
  let op := (w.extractLsb' 56 8).toNat
  let f := unpackSlot op w
  match slotInstr op f with
  | none => .error (.reservedOpcode op)
  | some i => if f.ok op then .ok i else .error (.badFields op)

/-- The instruction of a control-core word whose opcode is in R42 and whose zero fields are zero (R40, R43). -/
def coreInstr (w : BitVec 32) : Option Instr :=
  match (w.extractLsb' 25 7).toNat with
  | 0x01 => if w &&& 0x00003FF#32 = 0x0000000#32 then some (.addC (w.extractLsb' 20 5) (w.extractLsb' 15 5) (w.extractLsb' 10 5)) else none
  | 0x02 => if w &&& 0x00003FF#32 = 0x0000000#32 then some (.subC (w.extractLsb' 20 5) (w.extractLsb' 15 5) (w.extractLsb' 10 5)) else none
  | 0x03 => if w &&& 0x00003FF#32 = 0x0000000#32 then some (.andC (w.extractLsb' 20 5) (w.extractLsb' 15 5) (w.extractLsb' 10 5)) else none
  | 0x04 => if w &&& 0x00003FF#32 = 0x0000000#32 then some (.orC (w.extractLsb' 20 5) (w.extractLsb' 15 5) (w.extractLsb' 10 5)) else none
  | 0x05 => if w &&& 0x00003FF#32 = 0x0000000#32 then some (.xorC (w.extractLsb' 20 5) (w.extractLsb' 15 5) (w.extractLsb' 10 5)) else none
  | 0x06 => if w &&& 0x00003FF#32 = 0x0000000#32 then some (.sll (w.extractLsb' 20 5) (w.extractLsb' 15 5) (w.extractLsb' 10 5)) else none
  | 0x07 => if w &&& 0x00003FF#32 = 0x0000000#32 then some (.srl (w.extractLsb' 20 5) (w.extractLsb' 15 5) (w.extractLsb' 10 5)) else none
  | 0x08 => if w &&& 0x00003FF#32 = 0x0000000#32 then some (.sra (w.extractLsb' 20 5) (w.extractLsb' 15 5) (w.extractLsb' 10 5)) else none
  | 0x09 => if w &&& 0x00003FF#32 = 0x0000000#32 then some (.slt (w.extractLsb' 20 5) (w.extractLsb' 15 5) (w.extractLsb' 10 5)) else none
  | 0x0A => if w &&& 0x00003FF#32 = 0x0000000#32 then some (.sltu (w.extractLsb' 20 5) (w.extractLsb' 15 5) (w.extractLsb' 10 5)) else none
  | 0x0B => if w &&& 0x00003FF#32 = 0x0000000#32 then some (.mulC (w.extractLsb' 20 5) (w.extractLsb' 15 5) (w.extractLsb' 10 5)) else none
  | 0x0C => if w &&& 0x00003FF#32 = 0x0000000#32 then some (.mulhC (w.extractLsb' 20 5) (w.extractLsb' 15 5) (w.extractLsb' 10 5)) else none
  | 0x0D => if w &&& 0x00003FF#32 = 0x0000000#32 then some (.mulhu (w.extractLsb' 20 5) (w.extractLsb' 15 5) (w.extractLsb' 10 5)) else none
  | 0x0E => if w &&& 0x00003FF#32 = 0x0000000#32 then some (.divC (w.extractLsb' 20 5) (w.extractLsb' 15 5) (w.extractLsb' 10 5)) else none
  | 0x0F => if w &&& 0x00003FF#32 = 0x0000000#32 then some (.divu (w.extractLsb' 20 5) (w.extractLsb' 15 5) (w.extractLsb' 10 5)) else none
  | 0x10 => if w &&& 0x00003FF#32 = 0x0000000#32 then some (.remC (w.extractLsb' 20 5) (w.extractLsb' 15 5) (w.extractLsb' 10 5)) else none
  | 0x11 => if w &&& 0x00003FF#32 = 0x0000000#32 then some (.remu (w.extractLsb' 20 5) (w.extractLsb' 15 5) (w.extractLsb' 10 5)) else none
  | 0x12 => if w &&& 0x00003FF#32 = 0x0000000#32 then some (.minC (w.extractLsb' 20 5) (w.extractLsb' 15 5) (w.extractLsb' 10 5)) else none
  | 0x13 => if w &&& 0x00003FF#32 = 0x0000000#32 then some (.maxC (w.extractLsb' 20 5) (w.extractLsb' 15 5) (w.extractLsb' 10 5)) else none
  | 0x14 => if w &&& 0x0007FFF#32 = 0x0000000#32 then some (.clzC (w.extractLsb' 20 5) (w.extractLsb' 15 5)) else none
  | 0x15 => if w &&& 0x0007FFF#32 = 0x0000000#32 then some (.popcC (w.extractLsb' 20 5) (w.extractLsb' 15 5)) else none
  | 0x18 => some (.addi (w.extractLsb' 20 5) (w.extractLsb' 15 5) (w.extractLsb' 0 15))
  | 0x19 => some (.andi (w.extractLsb' 20 5) (w.extractLsb' 15 5) (w.extractLsb' 0 15))
  | 0x1A => some (.ori (w.extractLsb' 20 5) (w.extractLsb' 15 5) (w.extractLsb' 0 15))
  | 0x1B => some (.xori (w.extractLsb' 20 5) (w.extractLsb' 15 5) (w.extractLsb' 0 15))
  | 0x1C => if w &&& 0x0007FC0#32 = 0x0000000#32 then some (.slli (w.extractLsb' 20 5) (w.extractLsb' 15 5) (w.extractLsb' 0 6)) else none
  | 0x1D => if w &&& 0x0007FC0#32 = 0x0000000#32 then some (.srli (w.extractLsb' 20 5) (w.extractLsb' 15 5) (w.extractLsb' 0 6)) else none
  | 0x1E => if w &&& 0x0007FC0#32 = 0x0000000#32 then some (.srai (w.extractLsb' 20 5) (w.extractLsb' 15 5) (w.extractLsb' 0 6)) else none
  | 0x1F => some (.slti (w.extractLsb' 20 5) (w.extractLsb' 15 5) (w.extractLsb' 0 15))
  | 0x20 => some (.lui (w.extractLsb' 20 5) (w.extractLsb' 0 20))
  | 0x28 => if w &&& 0x0000003#32 = 0x0000000#32 then some (.ldC (w.extractLsb' 20 5) (w.extractLsb' 15 5) (w.extractLsb' 10 5) (w.extractLsb' 8 2) (w.extractLsb' 5 3) (w.extractLsb' 3 2) (w.extractLsb' 2 1)) else none
  | 0x29 => if w &&& 0x0000003#32 = 0x0000000#32 then some (.lds (w.extractLsb' 20 5) (w.extractLsb' 15 5) (w.extractLsb' 10 5) (w.extractLsb' 8 2) (w.extractLsb' 5 3) (w.extractLsb' 3 2) (w.extractLsb' 2 1)) else none
  | 0x2A => if w &&& 0x0000003#32 = 0x0000000#32 then some (.stC (w.extractLsb' 20 5) (w.extractLsb' 15 5) (w.extractLsb' 10 5) (w.extractLsb' 8 2) (w.extractLsb' 5 3) (w.extractLsb' 3 2) (w.extractLsb' 2 1)) else none
  | 0x2B => if w &&& 0x0000003#32 = 0x0000000#32 then some (.aadd (w.extractLsb' 20 5) (w.extractLsb' 15 5) (w.extractLsb' 10 5) (w.extractLsb' 8 2) (w.extractLsb' 5 3) (w.extractLsb' 3 2) (w.extractLsb' 2 1)) else none
  | 0x2C => if w &&& 0x0000003#32 = 0x0000000#32 then some (.amin (w.extractLsb' 20 5) (w.extractLsb' 15 5) (w.extractLsb' 10 5) (w.extractLsb' 8 2) (w.extractLsb' 5 3) (w.extractLsb' 3 2) (w.extractLsb' 2 1)) else none
  | 0x2D => if w &&& 0x0000003#32 = 0x0000000#32 then some (.amax (w.extractLsb' 20 5) (w.extractLsb' 15 5) (w.extractLsb' 10 5) (w.extractLsb' 8 2) (w.extractLsb' 5 3) (w.extractLsb' 3 2) (w.extractLsb' 2 1)) else none
  | 0x2E => if w &&& 0x0000003#32 = 0x0000000#32 then some (.axchg (w.extractLsb' 20 5) (w.extractLsb' 15 5) (w.extractLsb' 10 5) (w.extractLsb' 8 2) (w.extractLsb' 5 3) (w.extractLsb' 3 2) (w.extractLsb' 2 1)) else none
  | 0x2F => if w &&& 0x0000003#32 = 0x0000000#32 then some (.casC (w.extractLsb' 20 5) (w.extractLsb' 15 5) (w.extractLsb' 10 5) (w.extractLsb' 8 2) (w.extractLsb' 5 3) (w.extractLsb' 3 2) (w.extractLsb' 2 1)) else none
  | 0x30 => if w &&& 0x1FFFFF8#32 = 0x0000000#32 then some (.fenceC (w.extractLsb' 0 3)) else none
  | 0x31 => if w &&& 0x00003FF#32 = 0x0000000#32 then some (.reclaimC (w.extractLsb' 20 5) (w.extractLsb' 15 5) (w.extractLsb' 10 5)) else none
  | 0x32 => if w &&& 0x00003FF#32 = 0x0000000#32 then some (.vwaitC (w.extractLsb' 20 5) (w.extractLsb' 15 5) (w.extractLsb' 10 5)) else none
  | 0x38 => some (.beq (w.extractLsb' 20 5) (w.extractLsb' 15 5) (w.extractLsb' 0 15))
  | 0x39 => some (.bne (w.extractLsb' 20 5) (w.extractLsb' 15 5) (w.extractLsb' 0 15))
  | 0x3A => some (.blt (w.extractLsb' 20 5) (w.extractLsb' 15 5) (w.extractLsb' 0 15))
  | 0x3B => some (.bge (w.extractLsb' 20 5) (w.extractLsb' 15 5) (w.extractLsb' 0 15))
  | 0x3C => some (.bltu (w.extractLsb' 20 5) (w.extractLsb' 15 5) (w.extractLsb' 0 15))
  | 0x3D => some (.bgeu (w.extractLsb' 20 5) (w.extractLsb' 15 5) (w.extractLsb' 0 15))
  | 0x3E => some (.jal (w.extractLsb' 20 5) (w.extractLsb' 0 20))
  | 0x3F => some (.jalr (w.extractLsb' 20 5) (w.extractLsb' 15 5) (w.extractLsb' 0 15))
  | 0x40 => if w &&& 0x00003FF#32 = 0x0000000#32 then some (.recv (w.extractLsb' 20 5) (w.extractLsb' 15 5) (w.extractLsb' 10 5)) else none
  | 0x41 => if w &&& 0x0007FFF#32 = 0x0000000#32 then some (.send (w.extractLsb' 20 5) (w.extractLsb' 15 5)) else none
  | 0x42 => if w &&& 0x0007FFF#32 = 0x0000000#32 then some (.bind (w.extractLsb' 20 5) (w.extractLsb' 15 5)) else none
  | 0x43 => if w &&& 0x00003FF#32 = 0x0000000#32 then some (.spawn (w.extractLsb' 20 5) (w.extractLsb' 15 5) (w.extractLsb' 10 5)) else none
  | 0x44 => if w &&& 0x1FFFFFF#32 = 0x0000000#32 then some (.yield) else none
  | 0x45 => if w &&& 0x1F07FFF#32 = 0x0000000#32 then some (.sleep (w.extractLsb' 15 5)) else none
  | 0x46 => if w &&& 0x0007FFF#32 = 0x0000000#32 then some (.kill (w.extractLsb' 20 5) (w.extractLsb' 15 5)) else none
  | 0x48 => if w &&& 0x00003FF#32 = 0x0000000#32 then some (.cfgw (w.extractLsb' 20 5) (w.extractLsb' 15 5) (w.extractLsb' 10 5)) else none
  | 0x49 => if w &&& 0x00003FF#32 = 0x0000000#32 then some (.cfgmc (w.extractLsb' 20 5) (w.extractLsb' 15 5) (w.extractLsb' 10 5)) else none
  | 0x4A => if w &&& 0x0007FFF#32 = 0x0000000#32 then some (.cfgcrc (w.extractLsb' 20 5) (w.extractLsb' 15 5)) else none
  | 0x4B => if w &&& 0x00FFFFF#32 = 0x0000000#32 then some (.cfgcom (w.extractLsb' 20 5)) else none
  | 0x4C => if w &&& 0x00FFFFF#32 = 0x0000000#32 then some (.cfgrb (w.extractLsb' 20 5)) else none
  | 0x4D => if w &&& 0x00003FF#32 = 0x0000000#32 then some (.place (w.extractLsb' 20 5) (w.extractLsb' 15 5) (w.extractLsb' 10 5)) else none
  | 0x4E => if w &&& 0x0007FFF#32 = 0x0000000#32 then some (.fuseq (w.extractLsb' 20 5) (w.extractLsb' 15 5)) else none
  | 0x4F => if w &&& 0x00003FF#32 = 0x0000000#32 then some (.sigchk (w.extractLsb' 20 5) (w.extractLsb' 15 5) (w.extractLsb' 10 5)) else none
  | 0x50 => if w &&& 0x0007C0F#32 = 0x0000000#32 then some (.copyC (w.extractLsb' 20 5) (w.extractLsb' 15 5) (w.extractLsb' 9 1) (w.extractLsb' 8 1) (w.extractLsb' 5 3) (w.extractLsb' 4 1)) else none
  | 0x51 => if w &&& 0x000000F#32 = 0x0000000#32 then some (.gatherC (w.extractLsb' 20 5) (w.extractLsb' 15 5) (w.extractLsb' 10 5) (w.extractLsb' 9 1) (w.extractLsb' 8 1) (w.extractLsb' 5 3) (w.extractLsb' 4 1)) else none
  | 0x52 => if w &&& 0x0007C1F#32 = 0x0000000#32 then some (.armC (w.extractLsb' 20 5) (w.extractLsb' 15 5) (w.extractLsb' 9 1) (w.extractLsb' 8 1) (w.extractLsb' 5 3)) else none
  | 0x53 => if w &&& 0x0007FFF#32 = 0x0000000#32 then some (.disarmC (w.extractLsb' 20 5) (w.extractLsb' 15 5)) else none
  | 0x54 => if w &&& 0x0007D1F#32 = 0x0000000#32 then some (.mmaC (w.extractLsb' 20 5) (w.extractLsb' 15 5) (w.extractLsb' 9 1) (w.extractLsb' 5 3)) else none
  | 0x55 => if w &&& 0x0007D1F#32 = 0x0000000#32 then some (.aucgoC (w.extractLsb' 20 5) (w.extractLsb' 15 5) (w.extractLsb' 9 1) (w.extractLsb' 5 3)) else none
  | 0x56 => if w &&& 0x00FFFFF#32 = 0x0000000#32 then some (.aucgetC (w.extractLsb' 20 5)) else none
  | 0x57 => if w &&& 0x00003FF#32 = 0x0000000#32 then some (.crc32c (w.extractLsb' 20 5) (w.extractLsb' 15 5) (w.extractLsb' 10 5)) else none
  | 0x58 => if w &&& 0x00003FF#32 = 0x0000000#32 then some (.rtag (w.extractLsb' 20 5) (w.extractLsb' 15 5) (w.extractLsb' 10 5)) else none
  | 0x59 => if w &&& 0x00FFFFF#32 = 0x0000000#32 then some (.runtag (w.extractLsb' 20 5)) else none
  | 0x5A => if w &&& 0x0007FFF#32 = 0x0000000#32 then some (.resume (w.extractLsb' 20 5) (w.extractLsb' 15 5)) else none
  | 0x60 => if w &&& 0x00F8000#32 = 0x0000000#32 then some (.csrr (w.extractLsb' 20 5) (w.extractLsb' 0 15)) else none
  | 0x61 => some (.csrw (w.extractLsb' 20 5) (w.extractLsb' 15 5) (w.extractLsb' 0 15))
  | 0x62 => if w &&& 0x1FFFF00#32 = 0x0000000#32 then some (.trapC (w.extractLsb' 0 8)) else none
  | 0x63 => if w &&& 0x1FFFFFF#32 = 0x0000000#32 then some (.eret) else none
  | 0x64 => if w &&& 0x0007FFF#32 = 0x0000000#32 then some (.halt (w.extractLsb' 20 5) (w.extractLsb' 15 5)) else none
  | 0x65 => if w &&& 0x0007FFF#32 = 0x0000000#32 then some (.bell (w.extractLsb' 20 5) (w.extractLsb' 15 5)) else none
  | 0x66 => if w &&& 0x1FFFFFF#32 = 0x0000000#32 then some (.wfi) else none
  | 0x67 => if w &&& 0x0007FFF#32 = 0x0000000#32 then some (.quiesce (w.extractLsb' 20 5) (w.extractLsb' 15 5)) else none
  | _ => none

/-- The opcodes of R42. -/
def coreOps : List Nat := [0x01, 0x02, 0x03, 0x04, 0x05, 0x06, 0x07, 0x08, 0x09, 0x0A, 0x0B, 0x0C, 0x0D, 0x0E, 0x0F, 0x10, 0x11, 0x12, 0x13, 0x14, 0x15, 0x18, 0x19, 0x1A, 0x1B, 0x1C, 0x1D, 0x1E, 0x1F, 0x20, 0x28, 0x29, 0x2A, 0x2B, 0x2C, 0x2D, 0x2E, 0x2F, 0x30, 0x31, 0x32, 0x38, 0x39, 0x3A, 0x3B, 0x3C, 0x3D, 0x3E, 0x3F, 0x40, 0x41, 0x42, 0x43, 0x44, 0x45, 0x46, 0x48, 0x49, 0x4A, 0x4B, 0x4C, 0x4D, 0x4E, 0x4F, 0x50, 0x51, 0x52, 0x53, 0x54, 0x55, 0x56, 0x57, 0x58, 0x59, 0x5A, 0x60, 0x61, 0x62, 0x63, 0x64, 0x65, 0x66, 0x67]

/-- The instruction of a control-core word, or why it takes a precise Illegal fault (R43). -/
def decodeCore (w : BitVec 32) : Except DecodeError Instr :=
  match coreInstr w with
  | some i => .ok i
  | none =>
    let op := (w.extractLsb' 25 7).toNat
    if coreOps.contains op then .error (.badField op) else .error (.badOp op)

/-- What a core runs for a word: the instruction, or the step BAD_OP. -/
def coreStep (w : BitVec 32) : Instr :=
  match decodeCore w with
  | .ok i => i
  | .error _ => .badOp w

/-- A control-core instruction from the bytes at the pc, with the bytes after it (R41). -/
def decodeCoreBytes (bs : List Byte) : Except DecodeError (Instr × List Byte) :=
  if bs.length < 4 then .error .truncated
  else (decodeCore (BitVec.ofNat 32 (Machine.field bs 0 4))).map (·, bs.drop 4)

/-- A slot word from the bytes of a tile block, with the bytes after it (R4, R45). -/
def decodeFabricBytes (bs : List Byte) : Except DecodeError (Instr × List Byte) :=
  if bs.length < 8 then .error .truncated
  else (decodeFabric (BitVec.ofNat 64 (Machine.field bs 0 8))).map (·, bs.drop 8)

/-- The instruction the decoder reads from a word numbered as the opcode table numbers it: words of 32 bits are
control-core words, longer ones slot words. -/
def decodeTableWord (nbits w : Nat) : Option Instr :=
  if nbits ≤ 32 then
    match decodeCoreBytes (Machine.toBytes 4 w) with
    | .ok (i, _) => some i
    | .error _ => none
  else
    match decodeFabricBytes (Machine.toBytes 8 w) with
    | .ok (i, _) => some i
    | .error _ => none

/-- Default-layout fields below an opcode (R31). -/
def packD (op : Nat) (w : DWord) : BitVec 64 :=
  (BitVec.ofNat 8 op ++ w.fmt ++ w.mod ++ w.el ++ w.er ++ w.kr ++ w.kidx ++ w.nt ++ w.ord ++ w.t1 ++ w.t0 : BitVec 64)

/-- Memory-layout fields below an opcode (R36). -/
def packM (op : Nat) (w : MWord) : BitVec 64 :=
  (BitVec.ofNat 8 op ++ w.fmt ++ w.mod ++ w.scope ++ w.aqrl ++ w.vsrc ++ w.kidx ++ w.nt ++ w.ret ++ w.t1 ++ w.t0 : BitVec 64)

/-- Engine-layout fields below an opcode (R37). -/
def packE (op : Nat) (w : EWord) : BitVec 64 :=
  (BitVec.ofNat 8 op ++ w.fmt ++ w.mod ++ w.scope ++ w.acq ++ w.rel ++ w.kidx ++ w.nt ++ w.follow ++ w.t1 ++ w.t0 : BitVec 64)

/-- The slot word of an opcode and its fields. -/
def packSlot (op : Nat) : SlotWord → BitVec 64
  | .d w => packD op w
  | .m w => packM op w
  | .e w => packE op w

/-- The word of a control-core instruction (R40, R42), and of a word that decodes to BAD_OP. -/
def encodeCore : Instr → Option (BitVec 32)
  | .addC d a b => some (0x02000000#32 ||| (d.setWidth 32 <<< 20) ||| (a.setWidth 32 <<< 15) ||| (b.setWidth 32 <<< 10))
  | .subC d a b => some (0x04000000#32 ||| (d.setWidth 32 <<< 20) ||| (a.setWidth 32 <<< 15) ||| (b.setWidth 32 <<< 10))
  | .andC d a b => some (0x06000000#32 ||| (d.setWidth 32 <<< 20) ||| (a.setWidth 32 <<< 15) ||| (b.setWidth 32 <<< 10))
  | .orC d a b => some (0x08000000#32 ||| (d.setWidth 32 <<< 20) ||| (a.setWidth 32 <<< 15) ||| (b.setWidth 32 <<< 10))
  | .xorC d a b => some (0x0A000000#32 ||| (d.setWidth 32 <<< 20) ||| (a.setWidth 32 <<< 15) ||| (b.setWidth 32 <<< 10))
  | .sll d a b => some (0x0C000000#32 ||| (d.setWidth 32 <<< 20) ||| (a.setWidth 32 <<< 15) ||| (b.setWidth 32 <<< 10))
  | .srl d a b => some (0x0E000000#32 ||| (d.setWidth 32 <<< 20) ||| (a.setWidth 32 <<< 15) ||| (b.setWidth 32 <<< 10))
  | .sra d a b => some (0x10000000#32 ||| (d.setWidth 32 <<< 20) ||| (a.setWidth 32 <<< 15) ||| (b.setWidth 32 <<< 10))
  | .slt d a b => some (0x12000000#32 ||| (d.setWidth 32 <<< 20) ||| (a.setWidth 32 <<< 15) ||| (b.setWidth 32 <<< 10))
  | .sltu d a b => some (0x14000000#32 ||| (d.setWidth 32 <<< 20) ||| (a.setWidth 32 <<< 15) ||| (b.setWidth 32 <<< 10))
  | .mulC d a b => some (0x16000000#32 ||| (d.setWidth 32 <<< 20) ||| (a.setWidth 32 <<< 15) ||| (b.setWidth 32 <<< 10))
  | .mulhC d a b => some (0x18000000#32 ||| (d.setWidth 32 <<< 20) ||| (a.setWidth 32 <<< 15) ||| (b.setWidth 32 <<< 10))
  | .mulhu d a b => some (0x1A000000#32 ||| (d.setWidth 32 <<< 20) ||| (a.setWidth 32 <<< 15) ||| (b.setWidth 32 <<< 10))
  | .divC d a b => some (0x1C000000#32 ||| (d.setWidth 32 <<< 20) ||| (a.setWidth 32 <<< 15) ||| (b.setWidth 32 <<< 10))
  | .divu d a b => some (0x1E000000#32 ||| (d.setWidth 32 <<< 20) ||| (a.setWidth 32 <<< 15) ||| (b.setWidth 32 <<< 10))
  | .remC d a b => some (0x20000000#32 ||| (d.setWidth 32 <<< 20) ||| (a.setWidth 32 <<< 15) ||| (b.setWidth 32 <<< 10))
  | .remu d a b => some (0x22000000#32 ||| (d.setWidth 32 <<< 20) ||| (a.setWidth 32 <<< 15) ||| (b.setWidth 32 <<< 10))
  | .minC d a b => some (0x24000000#32 ||| (d.setWidth 32 <<< 20) ||| (a.setWidth 32 <<< 15) ||| (b.setWidth 32 <<< 10))
  | .maxC d a b => some (0x26000000#32 ||| (d.setWidth 32 <<< 20) ||| (a.setWidth 32 <<< 15) ||| (b.setWidth 32 <<< 10))
  | .clzC d a => some (0x28000000#32 ||| (d.setWidth 32 <<< 20) ||| (a.setWidth 32 <<< 15))
  | .popcC d a => some (0x2A000000#32 ||| (d.setWidth 32 <<< 20) ||| (a.setWidth 32 <<< 15))
  | .addi d a i => some (0x30000000#32 ||| (d.setWidth 32 <<< 20) ||| (a.setWidth 32 <<< 15) ||| i.setWidth 32)
  | .andi d a i => some (0x32000000#32 ||| (d.setWidth 32 <<< 20) ||| (a.setWidth 32 <<< 15) ||| i.setWidth 32)
  | .ori d a i => some (0x34000000#32 ||| (d.setWidth 32 <<< 20) ||| (a.setWidth 32 <<< 15) ||| i.setWidth 32)
  | .xori d a i => some (0x36000000#32 ||| (d.setWidth 32 <<< 20) ||| (a.setWidth 32 <<< 15) ||| i.setWidth 32)
  | .slli d a i => some (0x38000000#32 ||| (d.setWidth 32 <<< 20) ||| (a.setWidth 32 <<< 15) ||| i.setWidth 32)
  | .srli d a i => some (0x3A000000#32 ||| (d.setWidth 32 <<< 20) ||| (a.setWidth 32 <<< 15) ||| i.setWidth 32)
  | .srai d a i => some (0x3C000000#32 ||| (d.setWidth 32 <<< 20) ||| (a.setWidth 32 <<< 15) ||| i.setWidth 32)
  | .slti d a i => some (0x3E000000#32 ||| (d.setWidth 32 <<< 20) ||| (a.setWidth 32 <<< 15) ||| i.setWidth 32)
  | .lui d i => some (0x40000000#32 ||| (d.setWidth 32 <<< 20) ||| i.setWidth 32)
  | .ldC d a v m s z q => some (0x50000000#32 ||| (d.setWidth 32 <<< 20) ||| (a.setWidth 32 <<< 15) ||| (v.setWidth 32 <<< 10) ||| (m.setWidth 32 <<< 8) ||| (s.setWidth 32 <<< 5) ||| (z.setWidth 32 <<< 3) ||| (q.setWidth 32 <<< 2))
  | .lds d a v m s z q => some (0x52000000#32 ||| (d.setWidth 32 <<< 20) ||| (a.setWidth 32 <<< 15) ||| (v.setWidth 32 <<< 10) ||| (m.setWidth 32 <<< 8) ||| (s.setWidth 32 <<< 5) ||| (z.setWidth 32 <<< 3) ||| (q.setWidth 32 <<< 2))
  | .stC d a v m s z q => some (0x54000000#32 ||| (d.setWidth 32 <<< 20) ||| (a.setWidth 32 <<< 15) ||| (v.setWidth 32 <<< 10) ||| (m.setWidth 32 <<< 8) ||| (s.setWidth 32 <<< 5) ||| (z.setWidth 32 <<< 3) ||| (q.setWidth 32 <<< 2))
  | .aadd d a v m s z q => some (0x56000000#32 ||| (d.setWidth 32 <<< 20) ||| (a.setWidth 32 <<< 15) ||| (v.setWidth 32 <<< 10) ||| (m.setWidth 32 <<< 8) ||| (s.setWidth 32 <<< 5) ||| (z.setWidth 32 <<< 3) ||| (q.setWidth 32 <<< 2))
  | .amin d a v m s z q => some (0x58000000#32 ||| (d.setWidth 32 <<< 20) ||| (a.setWidth 32 <<< 15) ||| (v.setWidth 32 <<< 10) ||| (m.setWidth 32 <<< 8) ||| (s.setWidth 32 <<< 5) ||| (z.setWidth 32 <<< 3) ||| (q.setWidth 32 <<< 2))
  | .amax d a v m s z q => some (0x5A000000#32 ||| (d.setWidth 32 <<< 20) ||| (a.setWidth 32 <<< 15) ||| (v.setWidth 32 <<< 10) ||| (m.setWidth 32 <<< 8) ||| (s.setWidth 32 <<< 5) ||| (z.setWidth 32 <<< 3) ||| (q.setWidth 32 <<< 2))
  | .axchg d a v m s z q => some (0x5C000000#32 ||| (d.setWidth 32 <<< 20) ||| (a.setWidth 32 <<< 15) ||| (v.setWidth 32 <<< 10) ||| (m.setWidth 32 <<< 8) ||| (s.setWidth 32 <<< 5) ||| (z.setWidth 32 <<< 3) ||| (q.setWidth 32 <<< 2))
  | .casC d a v m s z q => some (0x5E000000#32 ||| (d.setWidth 32 <<< 20) ||| (a.setWidth 32 <<< 15) ||| (v.setWidth 32 <<< 10) ||| (m.setWidth 32 <<< 8) ||| (s.setWidth 32 <<< 5) ||| (z.setWidth 32 <<< 3) ||| (q.setWidth 32 <<< 2))
  | .fenceC s => some (0x60000000#32 ||| s.setWidth 32)
  | .reclaimC d a b => some (0x62000000#32 ||| (d.setWidth 32 <<< 20) ||| (a.setWidth 32 <<< 15) ||| (b.setWidth 32 <<< 10))
  | .vwaitC d a b => some (0x64000000#32 ||| (d.setWidth 32 <<< 20) ||| (a.setWidth 32 <<< 15) ||| (b.setWidth 32 <<< 10))
  | .beq a b f => some (0x70000000#32 ||| (a.setWidth 32 <<< 20) ||| (b.setWidth 32 <<< 15) ||| f.setWidth 32)
  | .bne a b f => some (0x72000000#32 ||| (a.setWidth 32 <<< 20) ||| (b.setWidth 32 <<< 15) ||| f.setWidth 32)
  | .blt a b f => some (0x74000000#32 ||| (a.setWidth 32 <<< 20) ||| (b.setWidth 32 <<< 15) ||| f.setWidth 32)
  | .bge a b f => some (0x76000000#32 ||| (a.setWidth 32 <<< 20) ||| (b.setWidth 32 <<< 15) ||| f.setWidth 32)
  | .bltu a b f => some (0x78000000#32 ||| (a.setWidth 32 <<< 20) ||| (b.setWidth 32 <<< 15) ||| f.setWidth 32)
  | .bgeu a b f => some (0x7A000000#32 ||| (a.setWidth 32 <<< 20) ||| (b.setWidth 32 <<< 15) ||| f.setWidth 32)
  | .jal d f => some (0x7C000000#32 ||| (d.setWidth 32 <<< 20) ||| f.setWidth 32)
  | .jalr d a i => some (0x7E000000#32 ||| (d.setWidth 32 <<< 20) ||| (a.setWidth 32 <<< 15) ||| i.setWidth 32)
  | .recv d a b => some (0x80000000#32 ||| (d.setWidth 32 <<< 20) ||| (a.setWidth 32 <<< 15) ||| (b.setWidth 32 <<< 10))
  | .send d a => some (0x82000000#32 ||| (d.setWidth 32 <<< 20) ||| (a.setWidth 32 <<< 15))
  | .bind d a => some (0x84000000#32 ||| (d.setWidth 32 <<< 20) ||| (a.setWidth 32 <<< 15))
  | .spawn d a b => some (0x86000000#32 ||| (d.setWidth 32 <<< 20) ||| (a.setWidth 32 <<< 15) ||| (b.setWidth 32 <<< 10))
  | .yield => some (0x88000000#32)
  | .sleep a => some (0x8A000000#32 ||| (a.setWidth 32 <<< 15))
  | .kill d a => some (0x8C000000#32 ||| (d.setWidth 32 <<< 20) ||| (a.setWidth 32 <<< 15))
  | .cfgw d a b => some (0x90000000#32 ||| (d.setWidth 32 <<< 20) ||| (a.setWidth 32 <<< 15) ||| (b.setWidth 32 <<< 10))
  | .cfgmc d a b => some (0x92000000#32 ||| (d.setWidth 32 <<< 20) ||| (a.setWidth 32 <<< 15) ||| (b.setWidth 32 <<< 10))
  | .cfgcrc d a => some (0x94000000#32 ||| (d.setWidth 32 <<< 20) ||| (a.setWidth 32 <<< 15))
  | .cfgcom d => some (0x96000000#32 ||| (d.setWidth 32 <<< 20))
  | .cfgrb d => some (0x98000000#32 ||| (d.setWidth 32 <<< 20))
  | .place d a b => some (0x9A000000#32 ||| (d.setWidth 32 <<< 20) ||| (a.setWidth 32 <<< 15) ||| (b.setWidth 32 <<< 10))
  | .fuseq d a => some (0x9C000000#32 ||| (d.setWidth 32 <<< 20) ||| (a.setWidth 32 <<< 15))
  | .sigchk d a b => some (0x9E000000#32 ||| (d.setWidth 32 <<< 20) ||| (a.setWidth 32 <<< 15) ||| (b.setWidth 32 <<< 10))
  | .copyC d a q r s f => some (0xA0000000#32 ||| (d.setWidth 32 <<< 20) ||| (a.setWidth 32 <<< 15) ||| (q.setWidth 32 <<< 9) ||| (r.setWidth 32 <<< 8) ||| (s.setWidth 32 <<< 5) ||| (f.setWidth 32 <<< 4))
  | .gatherC d a b q r s f => some (0xA2000000#32 ||| (d.setWidth 32 <<< 20) ||| (a.setWidth 32 <<< 15) ||| (b.setWidth 32 <<< 10) ||| (q.setWidth 32 <<< 9) ||| (r.setWidth 32 <<< 8) ||| (s.setWidth 32 <<< 5) ||| (f.setWidth 32 <<< 4))
  | .armC d a q r s => some (0xA4000000#32 ||| (d.setWidth 32 <<< 20) ||| (a.setWidth 32 <<< 15) ||| (q.setWidth 32 <<< 9) ||| (r.setWidth 32 <<< 8) ||| (s.setWidth 32 <<< 5))
  | .disarmC d a => some (0xA6000000#32 ||| (d.setWidth 32 <<< 20) ||| (a.setWidth 32 <<< 15))
  | .mmaC d a q s => some (0xA8000000#32 ||| (d.setWidth 32 <<< 20) ||| (a.setWidth 32 <<< 15) ||| (q.setWidth 32 <<< 9) ||| (s.setWidth 32 <<< 5))
  | .aucgoC d a q s => some (0xAA000000#32 ||| (d.setWidth 32 <<< 20) ||| (a.setWidth 32 <<< 15) ||| (q.setWidth 32 <<< 9) ||| (s.setWidth 32 <<< 5))
  | .aucgetC d => some (0xAC000000#32 ||| (d.setWidth 32 <<< 20))
  | .crc32c d a b => some (0xAE000000#32 ||| (d.setWidth 32 <<< 20) ||| (a.setWidth 32 <<< 15) ||| (b.setWidth 32 <<< 10))
  | .rtag d a b => some (0xB0000000#32 ||| (d.setWidth 32 <<< 20) ||| (a.setWidth 32 <<< 15) ||| (b.setWidth 32 <<< 10))
  | .runtag d => some (0xB2000000#32 ||| (d.setWidth 32 <<< 20))
  | .resume d a => some (0xB4000000#32 ||| (d.setWidth 32 <<< 20) ||| (a.setWidth 32 <<< 15))
  | .csrr d c => some (0xC0000000#32 ||| (d.setWidth 32 <<< 20) ||| c.setWidth 32)
  | .csrw d a c => some (0xC2000000#32 ||| (d.setWidth 32 <<< 20) ||| (a.setWidth 32 <<< 15) ||| c.setWidth 32)
  | .trapC c => some (0xC4000000#32 ||| c.setWidth 32)
  | .eret => some (0xC6000000#32)
  | .halt d a => some (0xC8000000#32 ||| (d.setWidth 32 <<< 20) ||| (a.setWidth 32 <<< 15))
  | .bell d a => some (0xCA000000#32 ||| (d.setWidth 32 <<< 20) ||| (a.setWidth 32 <<< 15))
  | .wfi => some (0xCC000000#32)
  | .quiesce d a => some (0xCE000000#32 ||| (d.setWidth 32 <<< 20) ||| (a.setWidth 32 <<< 15))
  | .badOp w => some w
  | _ => none

/-- The slot word of a fabric instruction (R31, R36, R37, R38). -/
def encodeFabric (i : Instr) : Option (BitVec 64) := i.slotWord.map fun p => packSlot p.1 p.2

/-- The encoding of an instruction: its width and word; events of the device have none. -/
def encode (i : Instr) : Option (Nat × Nat) :=
  match encodeFabric i with
  | some w => some (64, w.toNat)
  | none => (encodeCore i).map fun w => (32, w.toNat)

end Sys2Proof
end

