-- ==== Sys2Proof/Config.lean ====
section
/-! DEFINITION. What the implementation fixes and what the manual leaves open. The opaque constants are free
values: they have no body, so a claim about the machine holds whatever they are (log entries 1, 2, 6, 7, 12, 15). -/

namespace Sys2Proof

/-- The turn that comes next when the agenda of the state holds none (log entry 1). -/
opaque Config.freeTurn : Nat → Turn

/-- A value the manual states no result for, taken from the state's counter (log entry 2). -/
opaque Config.freeWord : Nat → Word

/-- Whether the XTS mode of R342 takes the bits of a tweak in the order of GB/T 17964 rather than of IEEE 1619 (log
entry 6). -/
opaque Config.xtsGb : Bool

/-- The nonces of the SM2 signatures that the device makes (R345; log entry 7): by message, and the tries that one signature
takes. -/
opaque Config.sm2Nonce : BitVec 256 → Nat → Nat

/-- The data key and tweak key, unwrapped with SM4 under the device's key-wrapping key (R343; log entry 7). -/
opaque Config.unwrapKeys : Nat → List Byte → BitVec 256

/-- The Dean's estimate of package power in watts (R357 gives no figures; log entry 15). -/
opaque Config.powerWatts : Nat → Nat

/-- Whether a Switch port answers for a package id (R349; log entry 12). -/
opaque Config.peerAnswers : Nat → Nat → Bool

/-- What a peer package returns for a byte of its aperture, and for a block's version (R349; log entry 12). -/
opaque Config.peerByte : Nat → Nat → Byte
opaque Config.peerVersion : Nat → Nat → BitVec 16

/-- Whether a peer's block is marked bad, whether it retains a version, and how many entries a RECLAIM frees there (R217,
R349; log entry 12). -/
opaque Config.peerPoison : Nat → Nat → Bool
opaque Config.peerKeeps : Nat → Nat → BitVec 16 → Bool
opaque Config.peerFreed : Nat → Nat → Nat

/-- The tenant as which a peer package's access is performed here (R349 names none; log entry 12). -/
opaque Config.peerTenant : Nat → Nat

/-- Where the Dean finds the image of an IMAGEID under a queue's ASID (R296 gives no catalogue; log entry 27). -/
opaque Config.imageAddress : Nat → Nat

/-- Where the code of the Dean's loader starts, by ASID, and the virtual address of the start record of a load, by ASID and
IMAGEID (R298 gives neither; log entry 27). -/
opaque Config.loaderStart : Nat → Nat
opaque Config.startRecord : Nat → Nat → Nat

/-- The scratch buffer, report block and verification-key slot that the Dean puts into a start record, by ASID and IMAGEID
(R298; log entry 27). -/
opaque Config.loaderScratch : Nat → Nat → Nat
opaque Config.reportBlock : Nat → Nat → Nat
opaque Config.loaderKeySlot : Nat → Nat

/-- Whether an ASID's images are loaded by a loader image that carries its start records itself (R298 allows it and does not
say when; log entry 27). -/
opaque Config.loaderCarries : Nat → Bool

/-- The MAP and CFG grants of the Dean to an image's task record (R273; log entry 28). -/
opaque Config.taskGrants : Nat → Nat → BitVec 2

/-- How many packets a tile's output queue holds (R24 and R26 name the queue and no size; log entry 128). -/
opaque Config.outputQueue : Nat

/-- Tiles of the die, clusters, stack domains (R9, R10). -/
abbrev Config.tiles : Nat := 8192
abbrev Config.clusters : Nat := 512
abbrev Config.domains : Nat := 16

/-- Match entries of a tile (R87), drop-table records (R240), accumulation registers (R159). -/
abbrev Config.matchEntries : Nat := 64
abbrev Config.dropRecords : Nat := 64
abbrev Config.accRegs : Nat := 16

/-- Context tags and launch queues (R21, R292). -/
abbrev Config.contexts : Nat := 4096
abbrev Config.queues : Nat := 1024

/-- Walk slots and version-buffer entries of a stack domain (R209, R218). -/
abbrev Config.walkSlots : Nat := 128
abbrev Config.versionEntries : Nat := 65536

end Sys2Proof
end

