-- ==== Sys2Proof/Machine/State.lean ====
section
/-! DEFINITION. The state of the Ibvor: tiles, clusters, stack domains, memory with versions, the network, and the
Dean's records, as plain data. Large arrays of units are sparse lists of (index, record) in ascending order, where an
unlisted unit holds its default record. -/

namespace Sys2Proof.Machine

/-- A sparse array: entries in ascending index order. -/
abbrev Assoc (α : Type) := List (Nat × α)

/-! ## Tokens -/

/-- The matching action of a token (R18). -/
inductive Act where
  | normal
  | sticky
  | purge
  | cancel
  | empty
  | bell
  | fault
  deriving DecidableEq, Repr, Inhabited

/-- A token: its header (R17) and payload, one word per element (R19), or the two words of a FAULT payload (R314). -/
structure Token where
  act     : Act := .normal
  fmt     : Fmt := 0
  len     : Nat := 1
  crib    : BitVec 4 := 0
  scale   : BitVec 8 := 0
  ctx     : Nat := 0
  cluster : Nat := 0
  tile    : Nat := 0
  slot    : Nat := 0
  port    : Nat := 0
  drp     : Bool := false
  itag    : BitVec 32 := 0
  mask    : BitVec 32 := 0
  data    : List Word := []
  deriving DecidableEq, Repr, Inhabited

/-- The edge a token travels on (R319): the emitting tile, its slot and the target entry (0 T0, 1 T1, 2 and up fanout
entries). Slots from 32 up name other sources: 32 an entry point, 33 a streamer, 34 a SEND, 35 the Dean. -/
structure Edge where
  tile : Nat := 0
  slot : Nat := 0
  ix   : Nat := 0
  deriving DecidableEq, Repr, Inhabited

/-- Where a token is going (R34). -/
inductive Dest where
  | tile (t : Nat)
  | vc (cluster n : Nat)
  | trig (cluster n : Nat)
  | egress (n : Nat)
  | dean (n : Nat)
  deriving DecidableEq, Repr, Inhabited

/-! ## The match store -/

/-- The uses of a match entry but `operand`, which a pairing holds itself (R87). -/
inductive EntryUse where
  | waiting
  | sticky
  | anti
  | trigger
  | early
  deriving DecidableEq, Repr, Inhabited

/-- A match entry (R87). `id` names a sticky to the pairings that read it, and a trigger to its request; `dead` marks
a purged sticky kept for pairings formed before the PURGE (R95). -/
structure Entry where
  id       : Nat := 0
  use      : EntryUse := .waiting
  tok      : Token := {}
  lastRead : Nat := 0
  dead     : Bool := false
  deriving DecidableEq, Repr, Inhabited

/-- One side of a pairing: a run that holds an entry, a sticky named by id, or a value that holds no entry (R242). -/
inductive Operand where
  | none
  | run (t : Token)
  | stick (id : Nat)
  | held (t : Token)
  deriving DecidableEq, Repr, Inhabited

/-- A formed pairing that has not fired (R91, R24): `born` is the cycle it was formed in. -/
structure Pairing where
  slot : Nat := 0
  ctx  : Nat := 0
  itag : BitVec 32 := 0
  len  : Nat := 1
  l    : Operand := .none
  r    : Operand := .none
  age  : Nat := 0
  born : Nat := 0
  deriving DecidableEq, Repr, Inhabited

/-- A drop-table record (R240): the tag record of a dropped sticky. -/
structure DropRec where
  id       : Nat := 0
  tok      : Token := {}
  poisoned : Option (Nat × Nat) := none
  purged   : Bool := false
  deriving DecidableEq, Repr, Inhabited

/-- An accumulation register of RSUM (R159). `total` is a raw element of the slot's format. -/
structure AccReg where
  ctx   : Nat := 0
  slot  : Nat := 0
  total : Word := 0
  scale : Option (BitVec 8) := none
  deriving DecidableEq, Repr, Inhabited

/-- The expected tag of an ordered slot, held from the first run or CANCEL of a context (R159). -/
structure OrdState where
  ctx  : Nat := 0
  slot : Nat := 0
  next : Nat := 0
  deriving DecidableEq, Repr, Inhabited

/-! ## Pools -/

/-- The states of a pool slot (R110). -/
inductive SlotState where
  | free
  | held
  | given
  deriving DecidableEq, Repr, Inhabited

/-- A pool slot (R110). -/
structure PSlot where
  gen      : Nat := 0
  st       : SlotState := .free
  ownerCtx : Nat := 0
  ownerTag : BitVec 32 := 0
  n        : Nat := 0
  scale    : BitVec 8 := 0
  deriving DecidableEq, Repr, Inhabited

/-- A request on a wait list: who asked, and the id of the trigger entry there (R112, R113). -/
structure Req where
  tile : Nat := 0
  trig : Nat := 0
  slot : Nat := 0
  ctx  : Nat := 0
  itag : BitVec 32 := 0
  deriving DecidableEq, Repr, Inhabited

/-- A pool: slot size in bytes, slots, wait list (R106, R112). -/
structure Pool where
  size  : Nat := 64
  slots : List PSlot := []
  wait  : List Req := []
  deriving DecidableEq, Repr, Inhabited

/-- A ticket pool (R115): declared and free counts, held counts by context, wait list. -/
structure TicketPool where
  declared : Nat := 0
  free     : Nat := 0
  held     : List (Nat × Nat) := []
  wait     : List Req := []
  deriving DecidableEq, Repr, Inhabited

/-- What a pool operation does at the pool's tile (R122). -/
inductive PoolAct where
  | alloc
  | ticket
  | retn
  | give (count : Nat)
  | release
  | tst
  | tld
  | poolq
  | cancelReq
  deriving DecidableEq, Repr, Inhabited

/-- A pool operation on its way to, or waiting at, the pool's tile (R111). `emits`: it comes from a firing that emits
or faults afterwards; a RELEASE made by a cancel does not (R119). -/
structure PoolOp where
  act    : PoolAct := .poolq
  src    : Nat := 0
  slot   : Nat := 0
  ctx    : Nat := 0
  itag   : BitVec 32 := 0
  trig   : Nat := 0
  handle : BitVec 32 := 0
  offset : Nat := 0
  fmt    : Fmt := 0
  nt     : BitVec 2 := 0
  l      : Token := {}
  r      : Token := {}
  emits  : Bool := true
  deriving DecidableEq, Repr, Inhabited

/-- A grant on its way to the requesting tile (R124): the trigger entry, and the handle of an ALLOC or, for a TICKET,
the ticket pool's tile and index. -/
structure Grant where
  trig   : Nat := 0
  handle : Option (BitVec 32) := none
  tile   : Nat := 0
  tk     : Nat := 0
  ctx    : Nat := 0
  deriving DecidableEq, Repr, Inhabited

/-! ## The network -/

/-- Where a packet is (R329, R335, R337). Ports: 0 local, 1 north, 2 east, 3 south, 4 west. `source`: it waits outside a
router's local port, put there by a unit that is no tile; `fork`: a multicast copy at a router's port for an egress;
`door`: put in by a restore, it waits at its tile until the tile takes it (R322). -/
inductive Place where
  | outq (tile : Nat)
  | source (cluster : Nat)
  | router (cluster port : Nat)
  | fork (cluster port way : Nat)
  | link (tile port : Nat)
  | input (tile port : Nat)
  | door (tile : Nat)
  | unit
  deriving DecidableEq, Repr, Inhabited

/-- What a packet carries (R328): its token, a pool operation, or a grant. -/
inductive Cargo where
  | token
  | op (o : PoolOp)
  | grant (g : Grant)
  deriving DecidableEq, Repr, Inhabited

/-- A packet of the routed network: a token, a pool operation, a grant, or a multicast packet of group `mcast` (R335).
`vc`: 0 request, 1 response, 2 token, 3 config (R328). `sent`: the cycle its age counts from (R333); `since`: the cycle in
which it came to its place. `stalled`: refused admission and waiting (R90); `collided`: held after a Collision (R101). -/
structure Packet where
  tok    : Token
  edge   : Edge := {}
  dest   : Dest := .tile 0
  place  : Place := .unit
  vc     : Nat := 2
  mcast  : Option Nat := none
  cargo  : Cargo := .token
  sent   : Nat := 0
  since  : Nat := 0
  stalled : Bool := false
  collided : Bool := false
  deriving DecidableEq, Repr, Inhabited

/-- An output port of a tile or router (R333): the virtual channel it served last, and the cycle from which it is free. -/
structure OutPort where
  vc   : Nat := 2
  free : Nat := 0
  deriving DecidableEq, Repr, Inhabited

/-! ## Translation -/

/-- The leaf a translation entry holds (R206, R208). `shift` is log2 of the page size. -/
structure TEntry where
  asid  : Nat := 0
  vpage : Nat := 0
  shift : Nat := 16
  pa    : Nat := 0
  priv  : Bool := false
  typed : Bool := false
  x     : Bool := false
  w     : Bool := false
  r     : Bool := false
  deriving DecidableEq, Repr, Inhabited

/-- The kinds of an access for its rights and for R211's record. -/
inductive AccKind where
  | read
  | write
  | readWrite
  | fetch
  deriving DecidableEq, Repr, Inhabited

/-- Why a stream stands still (R208, R211, R219): a walk, a fault record awaiting a store, RESUME (an AGN), or a version
(a replay unit). -/
inductive Stall where
  | none
  | walk
  | record (block : Nat)
  | resume
  | version
  deriving DecidableEq, Repr, Inhabited

/-- A miss on a domain's walk wait list, with the cycle it joined in, and the walk it becomes (R209, R210). -/
structure Walk where
  who   : StreamId := .tilePort 0
  asid  : Nat := 0
  tenant : Nat := 0
  va    : Nat := 0
  kind  : AccKind := .read
  level : Nat := 3
  table : Nat := 0
  at_   : Nat := 0
  deriving DecidableEq, Repr, Inhabited

/-! ## Memory -/

/-- The metadata of a 64-byte block (R214, R216, R218, R342): version, poison mark, retained versions with
the key of each, and the key it was last written under (none: never written). -/
structure BlockMeta where
  version  : BitVec 16 := 0
  poison   : Bool := false
  retained : List (BitVec 16 × Option Nat × List Byte) := []
  key      : Option Nat := none
  deriving DecidableEq, Repr, Inhabited

/-- Version modes at a home (R217). -/
inductive VMode where
  | any
  | eq (n : BitVec 16)
  | ge (n : BitVec 16)
  | next
  | exp (n : BitVec 16)
  deriving DecidableEq, Repr, Inhabited

/-- The operations of ATOM and the control-core atomics (R32, R226, R283). -/
inductive AtomOp where
  | add
  | min
  | max
  | xchg
  | and
  | or
  | cas
  deriving DecidableEq, Repr, Inhabited

/-- What one access does at the home of its block (R217, R226): offsets within the block, and values. A `probe` is the
wait of VWAIT, which reads no data (R228). -/
inductive AccessOp where
  | load
  | probe
  | store (bytes : List (Nat × Byte))
  | atom (op : AtomOp) (signed : Bool) (items : List (Nat × Word × Word))
  | reclaim (n : BitVec 16)
  deriving DecidableEq, Repr, Inhabited

/-- An access at a home. `width`: element width of an atomic, in bytes; `key`: the key slot's key of the accessing
tenant; `tenant` is charged `moved` bytes (R344) and checked at bank ports (R339). -/
structure Access where
  block  : Nat := 0
  op     : AccessOp := .load
  mode   : VMode := .any
  ret    : Bool := false
  width  : Nat := 4
  key    : Nat := 0
  tenant : Nat := 0
  moved  : Nat := 64
  deriving DecidableEq, Repr, Inhabited

/-- What completes when an access that waited at its home is performed (R219): a group of a tile port, a task's
instruction, an AGN's index list, or a replay's load of a virtual block. -/
inductive Waiter where
  | group (tile seq k : Nat)
  | task (cluster task : Nat)
  | agn (cluster agn : Nat)
  | replay (tile vblock : Nat)
  deriving DecidableEq, Repr, Inhabited

/-- A version wait or, with `entry`, a RET store waiting for a version-buffer entry, in join order (R218, R219). `asid`: the
ASID it was translated under (R213); `input`: the input port of its home that it came by; `born`: the cycle in which it was
issued, or its command accepted (R325). -/
structure HomeWait where
  who   : Waiter := .task 0 0
  acc   : Access := {}
  ctx   : Nat := 0
  entry : Bool := false
  asid  : Option Nat := none
  input : Nat := 0
  born  : Nat := 0
  deriving DecidableEq, Repr, Inhabited

/-- The states of a memory group (R226). -/
inductive GroupState where
  | todo
  | issued
  | waiting
  | done
  | failed (cause sub : Nat)
  deriving DecidableEq, Repr, Inhabited

/-- A group of a memory pairing: element indexes, their addresses, its home block and the cycle once issued, the access,
and what it read or created. -/
structure Group where
  elems : List (Nat × Nat) := []
  block : Nat := 0
  issuedAt : Nat := 0
  st    : GroupState := .todo
  acc   : Access := {}
  ver   : BitVec 16 := 0
  vals  : List (Nat × Word) := []
  count : Nat := 0
  deriving DecidableEq, Repr, Inhabited

/-- The memory instruction an access belongs to (R225, R283); `range`: one that reads or stores a byte range on the way to
its effect. -/
inductive MemKind where
  | ld
  | st
  | atom
  | cas
  | reclaim
  | fence
  | vwait
  | ldb
  | stb
  | range
  deriving DecidableEq, Repr, Inhabited

/-- A memory pairing in flight at a tile port (R226, R230), with the Rt that it used. `seq` is its issue order, `born` the
cycle it was placed there in. -/
structure MemPairing where
  seq    : Nat := 0
  born   : Nat := 0
  kind   : MemKind := .ld
  slot   : Nat := 0
  ctx    : Nat := 0
  fmt    : Fmt := 0
  scope  : Nat := 0
  acq    : Bool := false
  rel    : Bool := false
  l      : Token := {}
  r      : Option Token := none
  groups : List Group := []
  deriving DecidableEq, Repr, Inhabited

/-! ## Tiles -/

/-- The states of a tile (R70); FUSED is read from the fuse map. -/
inductive TileStatus where
  | free
  | reserved
  | resident
  deriving DecidableEq, Repr, Inhabited

/-- A pool word of a tile block (R45). -/
structure PoolDecl where
  size  : Nat := 64
  count : Nat := 1
  deriving DecidableEq, Repr, Inhabited

/-- The contents of a tile block (R44, R45). -/
structure Block where
  slots   : List Word := []
  consts  : List Word := []
  fans    : List (List (BitVec 18)) := []
  masks   : List (BitVec 32) := []
  pools   : List PoolDecl := []
  tickets : List Nat := []
  recipes : List (List Word) := []
  caps    : Nat := 0
  crc     : Nat := 0
  patid   : Nat := 0
  indeg   : Nat := 0
  flags   : Nat := 0
  deriving DecidableEq, Repr, Inhabited

/-- A tile's part in a context's bell (R319): the edges whose bells have arrived, and whether it has saved. -/
structure TileBell where
  ctx   : Nat := 0
  edges : List Edge := []
  due   : Bool := false
  saved : Bool := false
  ended : List Edge := []
  deriving DecidableEq, Repr, Inhabited

/-- A pairing accepted by a converter node (R163): its number, opcode, fields and operand run. -/
structure ConvCmd where
  id   : Nat := 0
  op   : Nat := 0
  w    : EWord := {}
  slot : Nat := 0
  ctx  : Nat := 0
  l    : Token := {}
  born : Nat := 0
  deriving DecidableEq, Repr, Inhabited

/-- A re-block buffer (R168): tags covered, covered by a CANCEL, and present, elements by position. `typed`: a run has set
FMT and SCALE; `inputs`: the ids of the accepted pairings that it holds elements or absences of (R163). -/
structure ReBuf where
  ctx     : Nat := 0
  slot    : Nat := 0
  base    : Nat := 0
  fmt     : Fmt := 0
  scale   : BitVec 8 := 0
  typed   : Bool := false
  covered : BitVec 32 := 0
  cancels : BitVec 32 := 0
  present : BitVec 32 := 0
  data    : List (Nat × Word) := []
  inputs  : List Nat := []
  deriving DecidableEq, Repr, Inhabited

/-- The counters of a tile that STATQ reads (R88, R118); ME_USED is derived. -/
structure TileCounters where
  mePeak  : BitVec 32 := 0
  meDrop  : BitVec 32 := 0
  meStall : BitVec 32 := 0
  alGrant : BitVec 32 := 0
  alWait  : BitVec 32 := 0
  alOver  : BitVec 32 := 0
  deriving DecidableEq, Repr, Inhabited

/-- A tile (R9, R70, R87, R106, R111, R208, R319). `owner`: the tenant whose contents its stores last held (R301, R340);
`opAt`: the cycle from which it may serve a pool operation (R111, R124);
`stopped`: the pairing, by its `seq`, at which a stalled port stands (R208); `rsince`: the cycle in which a replay's value
that waits for room came (R90). -/
structure Tile where
  status   : TileStatus := .free
  owner    : Option Nat := none
  block    : Option Block := none
  nextId   : Nat := 0
  entries  : List Entry := []
  pairings : List Pairing := []
  drops    : List DropRec := []
  replayQ  : List Nat := []
  accs     : List AccReg := []
  ords     : List OrdState := []
  pools    : List Pool := []
  tickets  : List TicketPool := []
  store    : List Host.Cell := []
  opAt     : Nat := 0
  port     : List MemPairing := []
  portSeq  : Nat := 0
  stopped  : Nat := 0
  entry    : Option TEntry := none
  stall    : Stall := .none
  rentry   : Option TEntry := none
  rstall   : Stall := .none
  rval     : List (Nat × Nat × List Byte) := []
  rfail    : Option (Nat × Nat) := none
  rrun     : Option Token := none
  rsince   : Nat := 0
  rcur     : Option Nat := none
  recalls  : List (Pairing × List Nat) := []
  convQ    : List ConvCmd := []
  rebufs   : List ReBuf := []
  bells    : List TileBell := []
  lastRound : Nat := 0
  counters : TileCounters := {}
  deriving DecidableEq, Repr, Inhabited

/-! ## Engines -/

/-- Who issued an engine command, and where its completion goes (R193, R200): a firing's slot, a task's register, a template
firing, or the register of a task that is saved with context `ctx`, from the cluster at `x`, `y` of its region (R291). -/
inductive CmdSource where
  | slot (tile slot : Nat) (l : Token)
  | task (cluster task reg : Nat)
  | template (t : Nat) (itag : BitVec 32)
  | saved (ctx x y task reg : Nat)
  deriving DecidableEq, Repr, Inhabited

/-- A streamer descriptor (R188), decoded. `soff`, `doff`: the offsets in units of a template firing (R195). -/
structure Desc where
  saddr  : Nat := 0
  daddr  : Nat := 0
  skind  : Nat := 0
  dkind  : Nat := 0
  sfmt   : Nat := 0
  dfmt   : Nat := 0
  sunit  : Bool := false
  dunit  : Bool := false
  plsel  : Nat := 0
  pol    : Bool := false
  ivmode : Bool := false
  dret   : Bool := false
  gate   : Bool := false
  citag  : BitVec 32 := 0
  rlen   : Nat := 1
  cnt0   : Nat := 1
  cnt1   : Nat := 1
  cnt2   : Nat := 1
  ss0    : Int := 0
  ss1    : Int := 0
  ss2    : Int := 0
  ds0    : Int := 0
  ds1    : Int := 0
  ds2    : Int := 0
  chan   : Nat := 0
  tmpl   : Nat := 0
  ctgt   : BitVec 18 := 0
  iaddr  : Nat := 0
  iver   : BitVec 16 := 0
  nidx   : Nat := 1
  limit  : Nat := 0
  mdesc  : Nat := 0
  mfmt   : Nat := 0
  xin    : BitVec 18 := 0
  xret   : Nat := 0
  xinr   : Nat := 0
  xoutr  : Nat := 0
  xform  : Bool := false
  soff   : Int := 0
  doff   : Int := 0
  zeroOk : Bool := true
  deriving DecidableEq, Repr, Inhabited

/-- The streamer operations (R190, R196). -/
inductive StreamOp where
  | copy
  | gather
  | scatter
  deriving DecidableEq, Repr, Inhabited

/-- A command accepted by a streamer (R187) in cycle `born`. `signed`: the index format is I32. Its accesses are performed one after
another and its completion follows the last, so that ACQ and REL ask for nothing more (R222). -/
structure StreamCmd where
  op     : StreamOp := .copy
  signed : Bool := false
  src    : CmdSource := .task 0 0 0
  d      : Desc := {}
  ctx    : Nat := 0
  tenant : Nat := 0
  asid   : Nat := 0
  priv   : Bool := false
  follow : Bool := false
  born   : Nat := 0
  deriving DecidableEq, Repr, Inhabited

/-- What a streamer has read and not yet delivered (R190, R191): one element, or one block or group as bytes, of a
position; `last` marks the last element of its position. An absent one has no value. -/
structure StreamPiece where
  pos   : Nat := 0
  fmt   : Nat := 0
  scale : BitVec 8 := 0
  val   : Option Word := none
  bytes : List Byte := []
  last  : Bool := true
  deriving DecidableEq, Repr, Inhabited

/-- An AGN at work on a command (R187, R190): the cursor (first position not delivered), positions read, the index list
as read, bytes of the unit being read, pieces read and not delivered, bytes of the group being written with the cursor
after it, transform progress, the gate's status mask, and, once it failed, cause, subcode, address and ABORT, and whether
the gate scorer met the fault (R312). -/
structure Agn where
  cmd     : StreamCmd := {}
  cursor  : Nat := 0
  total   : Nat := 0
  fetched : Nat := 0
  idxBytes : List Byte := []
  half    : List Byte := []
  buf     : List StreamPiece := []
  runs    : Nat := 0
  wleft   : List (Nat × Byte) := []
  wend    : Nat := 0
  entry   : Option TEntry := none
  stall   : Stall := .none
  gotOut  : Nat := 0
  gmask   : Nat := 0
  failed  : Option (Nat × Nat × Nat × Bool) := none
  scorer  : Bool := false
  deriving DecidableEq, Repr, Inhabited

/-- An armed template (R195). -/
structure Template where
  cmd     : StreamCmd := {}
  chan    : Nat := 0
  unbind  : List CmdSource := []
  deriving DecidableEq, Repr, Inhabited

/-- What a trigger channel is bound to (R187, R194). -/
inductive Chan where
  | none
  | template (t : Nat)
  | xform (agn : Nat)
  deriving DecidableEq, Repr, Inhabited

/-- A cluster's streamer (R187). -/
structure Streamer where
  queue     : List StreamCmd := []
  agns      : Assoc Agn := []
  templates : Assoc Template := []
  chans     : Assoc Chan := []
  deriving DecidableEq, Repr, Inhabited

/-- Accumulator kinds (R175). -/
inductive AccKindM where
  | f32
  | f64
  | i32
  deriving DecidableEq, Repr, Inhabited

/-- An accumulator (R175): kind, SCALE of kind I32 if set, elements by row × 64 + column. -/
structure Acc where
  kind  : AccKindM := .f32
  scale : Option Int := none
  elems : Assoc Word := []
  deriving DecidableEq, Repr, Inhabited

/-- An operand descriptor of the array (R178), decoded. -/
structure MDesc where
  aaddr   : Nat := 0
  zero    : Bool := false
  bpl     : Nat := 0
  apl     : Nat := 0
  bfmt    : Nat := 0
  boff    : Nat := 0
  k       : Nat := 1
  n       : Nat := 1
  m       : Nat := 1
  astride : Nat := 0
  acch    : BitVec 32 := 0
  gy      : Nat := 0
  gx      : Nat := 0
  gh      : Nat := 1
  gw      : Nat := 1
  zeroOk  : Bool := true
  deriving DecidableEq, Repr, Inhabited

/-- The matrix operations (R179). -/
inductive ArrayOp where
  | mma
  | mmac
  | accz
  | accrd
  | accwr
  | mmstat
  deriving DecidableEq, Repr, Inhabited

/-- A command of the array (R176). `itag` is the tag of its completion; `fmt` 32: the A format is BFMT (R183). `behind`:
accepted after a GIVE that is held (R177); `passed`: the rows of A that a member of an MMAC's row was passed, with the fault
they met: cause, subcode, address (R181). -/
structure ArrayCmd where
  op      : ArrayOp := .mmstat
  fmt     : Nat := 0
  desc    : Nat := 0
  handle  : BitVec 32 := 0
  shape   : Nat := 0
  src     : CmdSource := .task 0 0 0
  ctx     : Nat := 0
  tenant  : Nat := 0
  itag    : BitVec 32 := 0
  l       : Token := {}
  r       : Token := {}
  born    : Nat := 0
  started : Bool := false
  behind  : Bool := false
  passed  : Option (List (List (List Byte)) × Option (Nat × Nat × Nat)) := none
  d       : MDesc := {}
  deriving DecidableEq, Repr, Inhabited

/-- The matrix array of a cluster (R172 to R182): accumulators, their pool, the command queue, held GIVEs, and the
counters of MMSTAT. -/
structure MArray where
  accs     : Assoc Acc := []
  pool     : Pool := { size := 8192, slots := List.replicate 4 {} }
  queue    : List ArrayCmd := []
  gives    : List PoolOp := []
  done     : BitVec 32 := 0
  busy     : BitVec 32 := 0
  deriving DecidableEq, Repr, Inhabited

/-- The Registrar's states (R249). -/
inductive RegState where
  | idle
  | running
  | paused
  | done
  | limit
  | ceiling
  | stopped
  | failed
  deriving DecidableEq, Repr, Inhabited

/-- The Registrar operations (R259). -/
inductive RegOp where
  | aucgo
  | aucstep
  | aucset
  | aucget
  | aucstop
  deriving DecidableEq, Repr, Inhabited

/-- A command of the Registrar's queue (R250). -/
structure RegCmd where
  op     : RegOp := .aucget
  desc   : Nat := 0
  code   : Nat := 0
  value  : Nat := 0
  src    : CmdSource := .task 0 0 0
  ctx    : Nat := 0
  tenant : Nat := 0
  itag   : BitVec 32 := 0
  born   : Nat := 0
  deriving DecidableEq, Repr, Inhabited

/-- The problem a Registrar works on (R251, R254, R255): `opened` is the command that started it, `cmd` the one that runs it
now. Scores and prices are F32 words. `belled`: a bell stopped it (R263). -/
structure Auction where
  oaddr   : Nat := 0
  nrow    : Nat := 1
  ncol    : Nat := 1
  scores  : List (List Nat) := []
  caps    : List Nat := []
  mask    : Nat := 0
  prices  : List Nat := []
  assign  : List (Option Nat) := []
  bids    : List Nat := []
  rounds  : Nat := 0
  cmdRounds : Nat := 0
  phase   : Nat := 1
  steps   : Option Nat := none
  belled  : Bool := false
  cmd     : RegCmd := {}
  opened  : RegCmd := {}
  deriving DecidableEq, Repr, Inhabited

/-- A cluster's Registrar (R249, R253). -/
structure Registrar where
  state    : RegState := .idle
  owner    : Option Nat := none
  queue    : List RegCmd := []
  eps      : BitVec 32 := 0x3F800000
  epsMin   : BitVec 32 := 0x3F800000
  epsDiv   : BitVec 32 := 1
  roundMax : BitVec 32 := 65536
  priceMax : BitVec 32 := 0x7F800000
  auction  : Option Auction := none
  stops    : List RegCmd := []
  deriving DecidableEq, Repr, Inhabited

/-! ## Control cores -/

/-- Why a task is BLOCKED (R275): `access`, for the access time of a memory access, and `memory`, while that access waits
at its home, and `config`, for the time of a configuration instruction (R371). A QUIESCE waits for what was issued up to cycle `upTo`, or for all of it (R325); a
task of a context whose bell is ringing is parked until it is saved (R291). -/
inductive BlockReason where
  | recv (vc : Nat)
  | send
  | pending
  | sleep (wake : Nat)
  | wfi
  | access
  | memory
  | fetch
  | walk (fetch : Bool)
  | record (block : Nat)
  | engine
  | spawn
  | dean
  | layout
  | config (done : Nat)
  | xinv (asid : Nat)
  | bell (ctx reg : Nat)
  | quiesce (ctx reg : Nat) (upTo : Option Nat)
  | parked
  deriving DecidableEq, Repr, Inhabited

/-- The states of a task context (R275). -/
inductive TaskState where
  | free
  | runnable
  | running
  | blocked (why : BlockReason)
  deriving DecidableEq, Repr, Inhabited

/-- A task's memory access under way (R275, R283): the access and its virtual address, what its instruction does once it is
performed, the fault that it met while it waited, and whether a replay makes it (R248). -/
structure TaskAccess where
  acc    : Access := {}
  va     : Nat := 0
  bad    : Option (Nat × Nat) := none
  replay : Bool := false
  reg    : Nat := 0
  off    : Nat := 0
  size   : Nat := 8
  signed : Bool := false
  kind   : MemKind := .ld
  deriving DecidableEq, Repr, Inhabited

/-- A piece of a byte range that a task's instruction reads or stores, within one block (log entry 20): its virtual
address and size, the version it names, its home address and key, and, once performed, the bytes read. -/
structure RangePiece where
  va    : Nat := 0
  size  : Nat := 0
  ver   : Option (BitVec 16) := none
  home  : Nat := 0
  key   : Nat := 0
  done  : Bool := false
  bytes : List Byte := []
  deriving DecidableEq, Repr, Inhabited

/-- A task context (R272 to R274, R246, R290). `ranged`: the pieces that the instruction at pc has reached. CTX 0xFFF means none; `spawned`: SPAWN created it (R276). -/
structure Task where
  st       : TaskState := .free
  regs     : List Word := List.replicate 32 0
  pc       : Word := 0
  tenant   : Nat := 0
  ctx      : Nat := 0xFFF
  inh      : Bool := false
  priv     : Bool := false
  map      : Bool := false
  cfg      : Bool := false
  epc      : Word := 0
  cause    : Word := 0
  tvec     : Word := 0
  badaddr  : Word := 0
  score    : BitVec 32 := 0
  instret  : Word := 0
  asid     : Nat := 0
  recipes  : List (List (BitVec 32)) := List.replicate 8 []
  tags     : List (Nat × Nat) := []
  dirty    : List Nat := []
  dentry   : Option TEntry := none
  fentry   : Option TEntry := none
  line     : Option (Nat × List Byte) := none
  image    : Option (Nat × Nat × Nat) := none
  spawned  : Bool := false
  access   : TaskAccess := {}
  ranged   : List RangePiece := []
  deriving DecidableEq, Repr, Inhabited

/-- A virtual channel of a control core (R278). -/
structure Vc where
  bound : Option Nat := none
  queue : List Token := []
  deriving DecidableEq, Repr, Inhabited

/-- A SPAWN that waits for a free context (R286): its task, gD, start pc and the child's g1. -/
structure SpawnReq where
  task : Nat := 0
  reg  : Nat := 0
  pc   : Word := 0
  arg  : Word := 0
  deriving DecidableEq, Repr, Inhabited

/-- An image task that waits for a FREE task context (R15, R276): the origin of its image's region, and its record's
index. -/
structure ImageReq where
  x0 : Nat := 0
  y0 : Nat := 0
  n  : Nat := 0
  deriving DecidableEq, Repr, Inhabited

/-- A cluster's control core (R275, R286). -/
structure Core where
  tasks     : Assoc Task := []
  running   : Option Nat := none
  last      : Nat := 7
  retired   : Nat := 0
  vcs       : Assoc Vc := []
  spawnWait : List SpawnReq := []
  imageWait : List ImageReq := []
  deriving DecidableEq, Repr, Inhabited

/-- A cluster (R9): banks, engines and core. `bpoison`: the blocks of the B store that are marked bad (R184). -/
structure Cluster where
  banks     : List Nat := List.replicate 16 0
  pins      : List Bool := List.replicate 16 false
  streamer  : Streamer := {}
  array     : MArray := {}
  bstore    : List Host.Cell := []
  bpoison   : List Nat := []
  registrar : Registrar := {}
  core      : Core := {}
  deriving DecidableEq, Repr, Inhabited

/-! ## Stack domains -/

/-- A stack domain's gate scorer and counters (R264, R268, R210, R218): the gate set's tenant, E and H; the GATE commands
(cluster, AGN) whose vectors have reached it, in order; whether a load waits or runs. -/
structure Domain where
  gate    : Option (Nat × Nat × Nat) := none
  sram    : Assoc (BitVec 16) := []
  gateQ   : List (Nat × Nat) := []
  loading : Bool := false
  wkWalk  : BitVec 32 := 0
  wkWait  : BitVec 32 := 0
  vbWait  : BitVec 32 := 0
  deriving DecidableEq, Repr, Inhabited

/-! ## The Dean -/

/-- The states of a context (R21). -/
inductive CtxState where
  | free
  | live
  | frozen
  | saved
  | retiring
  deriving DecidableEq, Repr, Inhabited

/-- Who froze a context (R300, R324, R357). -/
inductive FreezeWhy where
  | none
  | halt
  | fault
  | thermal
  deriving DecidableEq, Repr, Inhabited

/-- A context (R21 to R23, R130, R306). `bell`: the cycle of a BELLOUT in progress; `inject`: initial tokens still to be
injected while the injection hold stands. -/
structure Ctx where
  st       : CtxState := .free
  hold     : Bool := false
  inject   : Nat := 0
  queue    : Nat := 0
  image    : Nat := 0
  cls      : Nat := 0
  asid     : Nat := 0
  tenant   : Nat := 0
  mode     : BitVec 32 := 0
  bucket   : List (Nat × Nat) := []
  fbase    : Nat := 0
  priv     : Bool := false
  why      : FreezeWhy := .none
  tag      : Nat := 0
  leak     : Nat := 0
  abort    : Nat := 0
  aborted  : Bool := false
  faults   : Nat := 0
  tNew     : Nat := 0
  tRet     : Nat := 0
  binds    : List (Nat × Nat) := []
  bell     : Option Nat := none
  fromBellin : Bool := false
  parent   : Option Nat := none
  reclaimed : Bool := false
  deriving DecidableEq, Repr, Inhabited

/-- A queue record (R292). -/
structure QueueRec where
  tenant : Nat := 0
  weight : Nat := 0
  cls    : Nat := 0
  mode   : Nat := 0
  flags  : Nat := 0
  asid   : Nat := 0
  fbase  : Nat := 0
  cring  : Nat := 0
  crlen  : Nat := 1
  qbuf   : Nat := 0
  qlen   : Nat := 1
  bucket : List (Nat × Nat) := []
  deriving DecidableEq, Repr, Inhabited

/-- A launch the Dean holds beside a queue's buffer: a child launch or a bucket launch (R297, R271). -/
structure Launch where
  image  : Nat := 0
  tag    : Nat := 0
  tokens : List Token := []
  parent : Option Nat := none
  deriving DecidableEq, Repr, Inhabited

/-- A launch queue (R292 to R295, R299, R346): its record, byte offsets into QBUF, the token images written and not yet
taken, those held on the link, the Dean's launches, pass, skips, completions, dirty pages, and the saved contexts that
restore at its next dispatch (R322). -/
structure Queue where
  rcd      : QueueRec := {}
  head     : Nat := 0
  tail     : Nat := 0
  images   : List (List Byte) := []
  held     : List (List Byte) := []
  launches : List Launch := []
  pass     : BitVec 32 := 0
  skips    : Nat := 0
  n        : Nat := 0
  dirty    : List Nat := []
  restore  : List Nat := []
  deriving DecidableEq, Repr, Inhabited

/-- The Timetable's record of a stage (R46, R302, R303): rectangle, replicas, pool, active replicas, and how many
samples in a row every active replica's depth was 0. -/
structure Stage where
  x0 : Nat := 0
  y0 : Nat := 0
  x1 : Nat := 0
  y1 : Nat := 0
  nrep : Nat := 1
  inpool : Nat := 0
  active : Nat := 1
  zeros : Nat := 0
  deriving DecidableEq, Repr, Inhabited

/-- A resident image's region (R80, R310, R316). `banked`: its commons banks are assigned (R370); `laid`: its memory is
laid out; `leaving`: it is to be unloaded; `next`: the tenant for whose image it makes room (R72); `moving`: it gives way
to a region at which its saved context is restored (R364); `drained`: R301's step 3 is done. -/
structure Region where
  image     : Nat := 0
  tenant    : Nat := 0
  asid      : Nat := 0
  priv      : Bool := false
  x0        : Nat := 0
  y0        : Nat := 0
  w         : Nat := 1
  h         : Nat := 1
  bytes     : List Byte := []
  entries   : List (Nat × Nat × Nat × Nat) := []
  stages    : List Stage := []
  pexp      : Nat := 24
  progress  : Nat := 0
  lastStart : Nat := 0
  banked    : Bool := false
  laid      : Bool := false
  leaving   : Bool := false
  next      : Option Nat := none
  moving    : Bool := false
  drained   : Bool := false
  deriving DecidableEq, Repr, Inhabited

/-- A staged block of a session (R77): tile, block, CRC-32C of its body as staged, and its route fixes (KIND, INDEX,
SUB, LSB). -/
structure Staged where
  tile  : Nat := 0
  blk   : Block := {}
  crc   : Nat := 0
  fixes : List (Nat × Nat × Nat × Nat) := []
  deriving DecidableEq, Repr, Inhabited

/-- A configuration session (R74, R82) of a task, named by cluster and TASK; `saved`: the context with which that task is
saved, while it is (R291). -/
structure Session where
  cluster : Nat := 0
  task    : Nat := 0
  addr    : Nat := 0
  header  : List Byte := []
  x0      : Nat := 0
  y0      : Nat := 0
  w       : Nat := 1
  h       : Nat := 1
  staged  : List Staged := []
  saved   : Option Nat := none
  deriving DecidableEq, Repr, Inhabited

/-- What an image is loaded for: a launch of a queue, or the restore of a saved context (R296, R322). -/
inductive LoadFor where
  | launch (l : Launch)
  | restore (ctx : Nat)
  deriving DecidableEq, Repr, Inhabited

/-- An image that a loader works on (R296, R298): the queue, what for, the report's home block, the version awaited, and
whether the report has accepted it. -/
structure Loading where
  queue    : Nat := 0
  image    : Nat := 0
  for_     : LoadFor := .restore 0
  report   : Nat := 0
  version  : BitVec 16 := 0
  accepted : Bool := false
  deriving DecidableEq, Repr, Inhabited

/-- A bucket request whose launches have not all completed (R271). -/
structure Bucket where
  id    : Nat := 0
  tile  : Nat := 0
  ctx   : Nat := 0
  tgt   : BitVec 18 := 0
  itag  : BitVec 32 := 0
  total : Nat := 0
  left  : Nat := 0
  deriving DecidableEq, Repr, Inhabited

/-- A record of the save area (R321). Positions are region-relative; tiles named within the saved data count from
`origin`, the region's first tile at the save. -/
inductive SaveRec where
  | context (mode : BitVec 32) (binds : List (Nat × Nat)) (census origin : Nat) (regs : List (Nat × Nat)) (tasks : List (Nat × Nat × Nat))
  | entry (x y : Nat) (e : Entry)
  | pairing (x y : Nat) (p : Pairing)
  | channel (x y : Nat) (e : Edge) (t : Token)
  | slot (x y pool index : Nat) (s : PSlot) (contents : List Byte)
  | acc (x y index : Nat) (s : PSlot) (a : Acc)
  | tickets (x y : Nat) (held : List Nat)
  | request (x y : Nat) (tk : Bool) (pool : Nat) (rx ry : Nat) (r : Req)
  | accreg (x y : Nat) (a : AccReg)
  | order (x y : Nat) (o : OrdState)
  | crib (x y : Nat) (d : DropRec)
  | grant (x y : Nat) (px py : Nat) (g : Grant)
  | conv (x y : Nat) (q : List ConvCmd) (b : List ReBuf)
  | mem (x y : Nat) (m : MemPairing)
  | array (x y : Nat) (q : List ArrayCmd)
  | stream (x y : Nat) (q : List StreamCmd) (a : Assoc Agn) (t : Assoc Template) (c : Assoc Chan)
  | registrar (x y : Nat) (st : RegState) (eps : BitVec 32) (q : List RegCmd) (a : Option Auction)
  | task (x y : Nat) (k : Nat) (t : Task) (vcs : List Nat)
  | vcq (x y n : Nat) (q : List Token)
  deriving DecidableEq, Repr, Inhabited

/-- A SCRUB in progress (R306, R340): rectangle, banks, new tenant, and the firing that waits for it. -/
structure Scrub where
  rect   : Nat := 0
  banks  : Nat := 0
  tenant : Nat := 0
  src    : Option (Nat × Pairing × BitVec 2) := none
  deriving DecidableEq, Repr, Inhabited

/-- An ASID table entry (R308). -/
structure AsidEntry where
  valid  : Bool := false
  root   : Nat := 0
  tenant : Nat := 0
  deriving DecidableEq, Repr, Inhabited

/-- A memory-encryption key slot (R342). -/
structure KeySlot where
  tenant : Nat := 0
  key    : Nat := 0
  deriving DecidableEq, Repr, Inhabited

/-- The boot states (R355). -/
inductive BootState where
  | running
  | ready
  | failed
  deriving DecidableEq, Repr, Inhabited

/-- The Dean mailbox (R351, R355). -/
structure Mailbox where
  boot     : BootState := .running
  step     : Nat := 0
  detail   : Nat := 0
  firmware : Nat := 0
  ring     : Nat := 0
  entries  : Nat := 1
  tail     : BitVec 32 := 0
  head     : BitVec 32 := 0
  cmdIntr  : Nat := 0
  msgIntr  : Assoc Nat := []
  deriving DecidableEq, Repr, Inhabited

/-- A fault record (R312). -/
structure FaultRec where
  cause   : Nat := 0
  sub     : Nat := 0
  ctx     : Nat := 0xFFFF
  tenant  : Nat := 0
  source  : Nat := 0
  unit    : Nat := 0
  x       : Nat := 0
  y       : Nat := 0
  abort   : Bool := false
  itag    : Nat := 0
  address : Nat := 0
  version : Nat := 0
  cycle   : Nat := 0
  count   : Nat := 0
  seq     : Nat := 0
  deriving DecidableEq, Repr, Inhabited

/-- What waits for a FREE tag (R306): a CTXNEW firing, or a launch of a queue whose image is resident (R296). -/
inductive NewWait where
  | firing (tile : Nat) (p : Pairing)
  | launch (queue : Nat) (l : Launch)
  deriving DecidableEq, Repr, Inhabited

/-- Where the host command at HEAD stands (R351): not begun, begun and waiting, draining a cluster's banks (R301),
waiting for a context's bell, or for its restore (`placed`: a loader has its image), or decided with a status and its detail. -/
inductive Doing where
  | idle
  | waiting
  | draining (cluster : Nat)
  | bell (ctx : Nat)
  | restore (ctx : Nat) (placed : Bool)
  | decided (code detail : Nat)
  deriving DecidableEq, Repr, Inhabited

/-- The Dean and the device-wide records. `afters`: firings whose effect or result waits for earlier accesses (R306), each
with its tile and the port sequence number, or the tenant, that they are told by. `tier2`, `tier2Ports`, `switchPorts`: the
installed capacity, and the ports of each role that trained (R348). `estimate`: the last estimate of package power
(R357); `idlePass`: the pass of every queue that has held nothing yet (R294). -/
structure Dean where
  fused     : List Nat := []
  ctxs      : Assoc Ctx := []
  queues    : Assoc Queue := []
  vtime     : BitVec 32 := 0
  reserve   : List Nat := []
  newWaits  : List NewWait := []
  afters    : List (Nat × Nat × Pairing) := []
  windows   : Assoc Nat := []
  regions   : List Region := []
  sessions  : List Session := []
  loading   : List Loading := []
  buckets   : List Bucket := []
  nextBucket : Nat := 0
  asids     : Assoc AsidEntry := []
  keys      : Assoc KeySlot := []
  vkeys     : Assoc Nat := []
  devKey    : Nat := 0
  meters    : Assoc (List Nat) := []
  lastPower : Nat := 0
  cap       : Nat := 1800
  hot       : Bool := false
  portTen   : List Nat := [0, 0]
  mcast     : Assoc (BitVec 5) := []
  mail      : Mailbox := {}
  saves     : Assoc (List SaveRec) := []
  maps      : Assoc (List Byte) := []
  nextMap   : Nat := 0
  faults    : Assoc FaultRec := []
  faultN    : Nat := 0
  scrubs    : List Scrub := []
  bellWaits : List (Nat × Nat × Pairing) := []
  doing     : Doing := .idle
  fwDigest  : BitVec 256 := 0
  offDomains : List Nat := []
  tier2     : Nat := 0
  tier2Ports : Nat := 0
  switchPorts : List Nat := []
  lastSample : Nat := 0
  estimate  : Nat := 0
  idlePass  : BitVec 32 := 0
  placedAt  : Nat := 0
  placedBy  : Nat := 0
  deriving DecidableEq, Repr, Inhabited

/-! ## The machine -/

/-- What the running instruction belongs to: a tile's firing, a task, an event of unit `u` with index `k`, or a
host command with its arguments. -/
inductive Focus where
  | idle
  | firing (tile : Nat) (p : Pairing)
  | task (cluster task : Nat)
  | event (u k : Nat)
  | command (a : CmdArgs)
  deriving DecidableEq, Repr, Inhabited

/-- The machine. `agenda`, `tick` and `focus` are the model's own (log entries 1 and 2); `egress` and `intr` record
what the host has received. Memory is keyed by home address: a physical address, or 2^52 + cluster × 2^19 + byte for a
commons. -/
structure State where
  agenda   : List Turn := []
  tick     : Nat := 0
  focus    : Focus := .idle
  cycle    : Nat := 0
  mem      : List Host.Cell := []
  blocks   : Assoc BlockMeta := []
  waits    : List HomeWait := []
  misses   : List Walk := []
  walks    : List Walk := []
  net      : List Packet := []
  outputs  : Assoc OutPort := []
  tiles    : Assoc Tile := []
  clusters : Assoc Cluster := []
  domains  : Assoc Domain := []
  dean     : Dean := {}
  egress   : List (Nat × Token) := []
  intr     : List (Nat × Nat) := []
  hostRead : List Byte := []
  deriving DecidableEq, Repr, Inhabited

/-- The machine right after reset (R354): before the boot ROM has run, with no unit holding anything. -/
def State.reset : State := {}

/-- Why the machine stops. -/
inductive Fault where
  /-- Raised by `step` once a boot step has failed (R354: the first failure stops the boot). Safe: nothing moves. -/
  | bootFailed
  deriving DecidableEq, Repr, Inhabited

/-- Why a step has no meaning. -/
inductive Refusal where
  /-- An instruction that has no meaning in the model yet. Safe: the run stops. -/
  | notModelled (mnemonic : String)
  /-- `exec` of a fabric instruction when the focus is no firing; `step` never does this. Safe: the run stops. -/
  | noFiring
  /-- `exec` of a control-core instruction when the focus is no task; `step` never does this. Safe: the run stops. -/
  | noTask
  deriving DecidableEq, Repr, Inhabited

end Sys2Proof.Machine
end

