-- ==== Sys2Proof/Machine/Store.lean ====
section
/-! DEFINITION. Sparse arrays and memory cells: reads and writes that keep the ascending, canonical form. -/

namespace Sys2Proof.Machine

/-- The record at an index, or the default of an unlisted one. -/
def assocGet {α : Type} (d : α) : Assoc α → Nat → α
  | [], _ => d
  | (k, v) :: t, i => if k = i then v else assocGet d t i

/-- Whether an index is listed. -/
def assocHas {α : Type} : Assoc α → Nat → Bool
  | [], _ => false
  | (k, _) :: t, i => k == i || assocHas t i

/-- The array with the record at an index replaced. -/
def assocSet {α : Type} : Assoc α → Nat → α → Assoc α
  | [], i, v => [(i, v)]
  | (k, w) :: t, i, v =>
    if k = i then (i, v) :: t
    else if i < k then (i, v) :: (k, w) :: t
    else (k, w) :: assocSet t i v

/-- The array with an index unlisted. -/
def assocDel {α : Type} (a : Assoc α) (i : Nat) : Assoc α := a.filter fun p => p.1 != i

/-- What an unlisted address reads as (log entry 4). -/
def blankByte : Byte := 0

/-- The byte at an address. -/
def cellGet : List Host.Cell → Nat → Byte
  | [], _ => blankByte
  | (k, v) :: t, a => if k = a then v else cellGet t a

/-- The memory with the byte at an address removed from the listing. -/
def cellDrop : List Host.Cell → Nat → List Host.Cell
  | [], _ => []
  | (k, v) :: t, a => if k = a then t else if a < k then (k, v) :: t else (k, v) :: cellDrop t a

/-- The memory with a byte other than the blank one listed at an address. -/
def cellPut : List Host.Cell → Nat → Byte → List Host.Cell
  | [], a, b => [(a, b)]
  | (k, v) :: t, a, b =>
    if k = a then (a, b) :: t
    else if a < k then (a, b) :: (k, v) :: t
    else (k, v) :: cellPut t a b

/-- The memory with a byte written. -/
def cellSet (m : List Host.Cell) (a : Nat) (b : Byte) : List Host.Cell :=
  if b = blankByte then cellDrop m a else cellPut m a b

/-- The memory with bytes written from an address. -/
def cellsSet (m : List Host.Cell) (a : Nat) : List Byte → List Host.Cell
  | [] => m
  | b :: bs => cellsSet (cellSet m a b) (a + 1) bs

/-- `n` bytes from an address. -/
def cellsGet (m : List Host.Cell) (a : Nat) : Nat → List Byte
  | 0 => []
  | n + 1 => cellGet m a :: cellsGet m (a + 1) n

/-- The memory with `n` bytes from an address blank. -/
def cellsBlank (m : List Host.Cell) (a n : Nat) : List Host.Cell :=
  m.filter fun p => p.1 < a || a + n ≤ p.1

/-- The canonical form: addresses strictly ascending, no blank byte listed. -/
def cellsWf : List Host.Cell → Bool
  | [] => true
  | [(_, v)] => v != blankByte
  | (k, v) :: (k', v') :: t => v != blankByte && k < k' && cellsWf ((k', v') :: t)

end Sys2Proof.Machine
end

