-- ==== Sys2Proof/Machine/Flags.lean ====
section
/-! DEFINITION. Number formats, rounding and the status flags (R19, R125 to R136): exact values, one rounding, and the
flags each operation sets. -/

namespace Sys2Proof.Machine

/-! ## Formats -/

/-- The element width in bytes of a token's format (R19); 0 for the bit-plane codes. -/
def fmtBytes (f : Nat) : Nat :=
  if f = 0 || (28 ≤ f && f ≤ 30) then 8
  else if f = 1 || f = 2 || f = 8 || f = 11 || f = 31 then 4
  else if f = 3 || f = 4 || f = 9 || f = 12 then 2
  else if f = 5 || f = 6 || f = 7 || f = 10 || f = 13 then 1
  else 0

/-- The element width in bits. -/
def fmtBits (f : Nat) : Nat := 8 * fmtBytes f

/-- The longest run of a format (R17). -/
def fmtMaxLen (f : Nat) : Nat := if fmtBytes f = 8 then 16 else 32

/-- Signed integer formats. -/
def fmtSigned (f : Nat) : Bool := f = 8 || f = 9 || f = 10 || f = 28

/-- Integer formats: the set INT of R65. -/
def fmtInt (f : Nat) : Bool := (8 ≤ f && f ≤ 13) || f = 28 || f = 29

/-- Floating-point formats, the 8-bit ones included. -/
def fmtFloat (f : Nat) : Bool := f ≤ 7

/-- The plane count k of a Pk or Qk code, 0 for the others (R125). -/
def fmtPlanes (f : Nat) : Nat :=
  if 14 ≤ f && f ≤ 20 then f - 12 else if 21 ≤ f && f ≤ 27 then f - 19 else 0

/-- Whether a plane code is signed (Pk). -/
def fmtPlaneSigned (f : Nat) : Bool := 14 ≤ f && f ≤ 20

/-- A floating-point format (R125, R126, R127): exponent and fraction bits, zero bits below the fraction, and the mode
word bit that enables flushing (R130). -/
structure FloatFmt where
  eb  : Nat
  fb  : Nat
  pad : Nat := 0
  fz  : Option Nat := none
  deriving DecidableEq, Repr

/-- The layout of a float code; F64 for any other code. -/
def floatFmt (f : Nat) : FloatFmt :=
  match f with
  | 1 => ⟨8, 23, 0, some 4⟩
  | 2 => ⟨8, 10, 13, some 5⟩
  | 3 => ⟨5, 10, 0, some 6⟩
  | 4 => ⟨8, 7, 0, some 7⟩
  | 5 => ⟨5, 2, 0, none⟩
  | 6 => ⟨4, 3, 0, none⟩
  | 7 => ⟨3, 4, 0, none⟩
  | _ => ⟨11, 52, 0, none⟩

def FloatFmt.bias (f : FloatFmt) : Nat := 2 ^ (f.eb - 1) - 1

/-- The exponent of the smallest normal number. -/
def FloatFmt.emin (f : FloatFmt) : Int := 1 - (f.bias : Int)

/-- Bits of a sign, exponent field and fraction field. -/
def FloatFmt.enc (f : FloatFmt) (neg : Bool) (ex fr : Nat) : Nat :=
  ((if neg then 2 ^ (f.eb + f.fb) else 0) + ex * 2 ^ f.fb + fr) * 2 ^ f.pad

/-- The canonical NaN (R128), the infinities and the largest finite numbers (R126). -/
def FloatFmt.nan (f : FloatFmt) : Nat := f.enc false (2 ^ f.eb - 1) (2 ^ (f.fb - 1))
def FloatFmt.infinity (f : FloatFmt) (neg : Bool) : Nat := f.enc neg (2 ^ f.eb - 1) 0
def FloatFmt.largest (f : FloatFmt) (neg : Bool) : Nat := f.enc neg (2 ^ f.eb - 2) (2 ^ f.fb - 1)

/-- Whether the format's flush enable is set in a mode word (R131). -/
def FloatFmt.flushes (f : FloatFmt) (mode : Nat) : Bool :=
  match f.fz with
  | some b => bit mode b
  | none => false

/-! ## Flags (R130, R132) -/

def flagNV : Nat := 0x1000
def flagDZ : Nat := 0x800
def flagOF : Nat := 0x400
def flagUF : Nat := 0x200
def flagNX : Nat := 0x100

/-- The rounding mode of a MOD field: 101 reads the mode word's RM (R129, R130). -/
def rmOf (mod mode : Nat) : Nat := if mod = 5 then mode % 8 else mod

/-! ## Values -/

/-- A decoded value: ±m × 2^e, an infinity, a quiet or a signalling NaN. -/
inductive Val where
  | fin (neg : Bool) (m : Nat) (e : Int)
  | inf (neg : Bool)
  | qnan
  | snan
  deriving DecidableEq, Repr, Inhabited

/-- The value of a float element times 2^scale (R126, R134); with its class's flush enabled a subnormal reads as a
zero of its sign (R131). -/
def floatVal (f : FloatFmt) (b : Nat) (scale : Int) (mode : Nat) : Val :=
  let v := b / 2 ^ f.pad
  let neg := bit v (f.eb + f.fb)
  let ex := v / 2 ^ f.fb % 2 ^ f.eb
  let fr := v % 2 ^ f.fb
  if ex = 2 ^ f.eb - 1 then
    if fr = 0 then .inf neg else if bit fr (f.fb - 1) then .qnan else .snan
  else if ex = 0 then
    if f.flushes mode then .fin neg 0 0 else .fin neg fr (f.emin - f.fb + scale)
  else .fin neg (fr + 2 ^ f.fb) ((ex : Int) - f.bias - f.fb + scale)

/-- The value of an element of any format with an element value (R125, R134). -/
def elemVal (f b : Nat) (scale : Int) (mode : Nat) : Val :=
  if fmtFloat f then floatVal (floatFmt f) b scale mode
  else
    let z : Int := if fmtSigned f then sval (fmtBits f) b else ((b % 2 ^ fmtBits f : Nat) : Int)
    .fin (z < 0) z.natAbs scale

def Val.isNan : Val → Bool
  | .qnan => true
  | .snan => true
  | _ => false

def Val.isZero : Val → Bool
  | .fin _ 0 _ => true
  | _ => false

def Val.neg? : Val → Bool
  | .fin n _ _ => n
  | .inf n => n
  | _ => false

/-- NV when an operand is a signalling NaN (R128, R132). -/
def nvOf (v : Val) : Nat := if v = .snan then flagNV else 0

/-! ## Rounding (R129, R131) -/

/-- `m / 2^sh` rounded to an integer under `rm`, and whether that changed it; `sticky` says that the true value lies
strictly above `m`, by less than one. -/
def roundShift (m : Nat) (sh : Int) (sticky : Bool) (rm : Nat) (neg : Bool) : Nat × Bool :=
  if sh ≤ 0 then (m * 2 ^ (-sh).toNat, sticky)
  else
    let far := sh > (Nat.log2 m : Int) + 2
    let n := sh.toNat
    let q := if far then 0 else m / 2 ^ n
    let rem := if far then (if m = 0 then 0 else 1) else m % 2 ^ n
    let half := if far then 2 else 2 ^ (n - 1)
    let inexact := rem ≠ 0 || sticky
    let above := rem > half || (rem = half && sticky)
    let tie := rem = half && !sticky
    let up :=
      match rm with
      | 0 => above || (tie && q % 2 = 1)
      | 1 => false
      | 2 => inexact && neg
      | 3 => inexact && !neg
      | _ => above || tie
    (if up then q + 1 else q, inexact)

/-- roundFMT of ±(m, or just above it when `sticky`) × 2^e, with flags (R129, R131, R132). -/
def roundFin (f : FloatFmt) (rm mode : Nat) (neg : Bool) (m : Nat) (e : Int) (sticky : Bool) : Nat × Nat :=
  if m = 0 then (f.enc neg 0 0, 0)
  else
    let sh : Int := (Nat.log2 m : Int) - f.fb
    let (q, inexact) := roundShift m sh sticky rm neg
    let ee : Int := (Nat.log2 q : Int) + e + sh
    let e0 : Int := e + sh
    let bias : Int := f.bias
    if ee > bias then
      let toInf := rm = 0 || rm = 4 || (rm = 2 && neg) || (rm = 3 && !neg)
      (if toInf then f.infinity neg else f.largest neg, flagOF + flagNX)
    else if ee < f.emin then
      if f.flushes mode then (f.enc neg 0 0, flagUF + flagNX)
      else
        let (q', ix) := roundShift m (f.emin - f.fb - e) sticky rm neg
        (f.enc neg 0 0 + q' * 2 ^ f.pad, if ix then flagUF + flagNX else 0)
    else
      let ex := (ee + bias).toNat
      let fr := if ee = e0 + f.fb then q - 2 ^ f.fb else 0
      (f.enc neg ex fr, if inexact then flagNX else 0)

/-- The bits of a value rounded into a format (R128, R129). -/
def roundVal (f : FloatFmt) (rm mode : Nat) : Val → Nat × Nat
  | .fin neg m e => roundFin f rm mode neg m e false
  | .inf neg => (f.infinity neg, 0)
  | .qnan => (f.nan, 0)
  | .snan => (f.nan, flagNV)

/-! ## Exact arithmetic -/

/-- The signed integer of a finite value at exponent `e0` not above its own. -/
def alignTo (neg : Bool) (m : Nat) (e e0 : Int) : Int :=
  let z : Int := (m * 2 ^ (e - e0).toNat : Nat)
  if neg then -z else z

/-- Exact sum; an exact zero from operands of opposite sign is −0 under RDN only (R129). inf − inf sets NV (R132). -/
def valAdd (rm : Nat) : Val → Val → Val × Nat
  | .fin n1 m1 e1, .fin n2 m2 e2 =>
    if m1 = 0 && m2 = 0 then (.fin (if n1 = n2 then n1 else rm = 2) 0 0, 0)
    else if m1 = 0 then (.fin n2 m2 e2, 0)
    else if m2 = 0 then (.fin n1 m1 e1, 0)
    else
      let e0 := min e1 e2
      let z := alignTo n1 m1 e1 e0 + alignTo n2 m2 e2 e0
      (.fin (if z = 0 then rm = 2 else z < 0) z.natAbs e0, 0)
  | .inf n1, .inf n2 => if n1 = n2 then (.inf n1, 0) else (.qnan, flagNV)
  | .inf n, .fin _ _ _ => (.inf n, 0)
  | .fin _ _ _, .inf n => (.inf n, 0)
  | a, b => (.qnan, nvOf a ||| nvOf b)

/-- The value with its sign inverted. -/
def valNeg : Val → Val
  | .fin n m e => .fin (!n) m e
  | .inf n => .inf (!n)
  | v => v

/-- Exact product; 0 × inf sets NV (R132). -/
def valMul : Val → Val → Val × Nat
  | .fin n1 m1 e1, .fin n2 m2 e2 => (.fin (n1 != n2) (m1 * m2) (e1 + e2), 0)
  | .inf n1, .fin n2 m2 _ => if m2 = 0 then (.qnan, flagNV) else (.inf (n1 != n2), 0)
  | .fin n1 m1 _, .inf n2 => if m1 = 0 then (.qnan, flagNV) else (.inf (n1 != n2), 0)
  | .inf n1, .inf n2 => (.inf (n1 != n2), 0)
  | a, b => (.qnan, nvOf a ||| nvOf b)

/-- Exact comparison of two numbers: −1, 0 or 1; zeros of either sign are equal (R153). NaNs compare as 0. -/
def valCmp : Val → Val → Int
  | .fin n1 m1 e1, .fin n2 m2 e2 =>
    let e0 := if m1 = 0 then e2 else if m2 = 0 then e1 else min e1 e2
    let a := if m1 = 0 then 0 else alignTo n1 m1 e1 e0
    let b := if m2 = 0 then 0 else alignTo n2 m2 e2 e0
    if a < b then -1 else if a = b then 0 else 1
  | .inf n1, .inf n2 => if n1 = n2 then 0 else if n1 then -1 else 1
  | .inf n, .fin _ _ _ => if n then -1 else 1
  | .fin _ _ _, .inf n => if n then 1 else -1
  | _, _ => 0

/-- The integer square root, by bits from `2^k` down. -/
def isqrt : Nat → Nat → Nat → Nat
  | 0, _, r => r
  | k + 1, n, r => if (r + 2 ^ k) * (r + 2 ^ k) ≤ n then isqrt k n (r + 2 ^ k) else isqrt k n r

/-- L / Rt rounded once (R151), with DZ for a finite nonzero over zero (R132). -/
def floatDiv (f : FloatFmt) (rm mode : Nat) : Val → Val → Nat × Nat
  | .fin n1 m1 e1, .fin n2 m2 e2 =>
    let neg := n1 != n2
    if m2 = 0 then if m1 = 0 then (f.nan, flagNV) else (f.infinity neg, flagDZ)
    else if m1 = 0 then (f.enc neg 0 0, 0)
    else
      let k := f.fb + 4 + Nat.log2 m2
      let num := m1 * 2 ^ k
      roundFin f rm mode neg (num / m2) (e1 - e2 - k) (num % m2 ≠ 0)
  | .inf n1, .fin n2 _ _ => (f.infinity (n1 != n2), 0)
  | .fin n1 _ _, .inf n2 => (f.enc (n1 != n2) 0 0, 0)
  | .inf _, .inf _ => (f.nan, flagNV)
  | a, b => (f.nan, nvOf a ||| nvOf b)

/-- The square root, rounded once (R151, R132). -/
def floatSqrt (f : FloatFmt) (rm mode : Nat) : Val → Nat × Nat
  | .fin n m e =>
    if m = 0 then (f.enc n 0 0, 0)
    else if n then (f.nan, flagNV)
    else
      let k := 2 * f.fb + 8
      let par := ((e - k) % 2).toNat
      let num := m * 2 ^ (k + par)
      let r := isqrt (Nat.log2 num / 2 + 1) num 0
      roundFin f rm mode false r ((e - k - par) / 2) (r * r ≠ num)
  | .inf n => if n then (f.nan, flagNV) else (f.infinity false, 0)
  | v => (f.nan, nvOf v)

/-- L rounded to an integral value, then into the format (R151): NX when the integral value differs from L. -/
def floatRint (f : FloatFmt) (rm mode : Nat) : Val → Nat × Nat
  | .fin n m e =>
    let (q, ix) := roundShift m (-e) false rm n
    let (b, fl) := roundFin f rm mode n (if e < 0 then q else m) (if e < 0 then 0 else e) false
    (b, fl ||| (if e < 0 && ix then flagNX else 0))
  | v => roundVal f rm mode v

/-- Conversion of a value to an integer in [lo, hi] (R136): NX for a finite value that is no integer, in range or not. -/
def valToInt (rm : Nat) (lo hi : Int) : Val → Int × Nat
  | .fin n m e =>
    let (q, ix) := roundShift m (-e) false rm n
    let z : Int := if n then -(q : Int) else q
    let nx := if ix then flagNX else 0
    if z < lo then (lo, flagNV ||| nx) else if hi < z then (hi, flagNV ||| nx) else (z, nx)
  | .inf n => (if n then lo else hi, flagNV)
  | _ => (0, flagNV)

/-- The range of an integer format. -/
def intRange (f : Nat) : Int × Int :=
  let w := fmtBits f
  if fmtSigned f then (-(2 ^ (w - 1) : Nat), (2 ^ (w - 1) : Nat) - 1) else (0, (2 ^ w : Nat) - 1)

/-- The range of a Pk or Qk code. -/
def planeRange (f : Nat) : Int × Int :=
  let k := fmtPlanes f
  if fmtPlaneSigned f then (-(2 ^ (k - 1) : Nat), (2 ^ (k - 1) : Nat) - 1) else (0, (2 ^ k : Nat) - 1)

/-- Conversion of an element between formats and scales (R136), as raw bits of the destination; a Pk or Qk result is
held in 8 bits. -/
def convertElem (sf : Nat) (s : Int) (df : Nat) (d : Int) (rm mode b : Nat) : Nat × Nat :=
  let v := elemVal sf b (s - d) mode
  if fmtFloat df then roundVal (floatFmt df) rm mode v
  else
    let (lo, hi) := if fmtPlanes df = 0 then intRange df else planeRange df
    let (z, fl) := valToInt rm lo hi v
    (low (if fmtPlanes df = 0 then fmtBits df else 8) z, fl)

/-- FMIN and FMAX of two elements (R152): −0 below +0, numbers preferred, a signalling NaN sets NV; the selected
element as it stands after source flushing, the low bits of an F19 result zero (R127). Values are given at their scale. -/
def floatMinMax (f : FloatFmt) (max? : Bool) (a b : Nat) (va vb : Val) : Nat × Nat :=
  let keep (x : Nat) (v : Val) : Nat :=
    if v.isZero then f.enc v.neg? 0 0 else x / 2 ^ f.pad * 2 ^ f.pad
  let nv := nvOf va ||| nvOf vb
  if va.isNan && vb.isNan then (f.nan, nv)
  else if va.isNan then (keep b vb, nv)
  else if vb.isNan then (keep a va, nv)
  else
    let c := valCmp va vb
    let aFirst :=
      if c = 0 then (if va.neg? = vb.neg? then true else va.neg? = !max?)
      else (c < 0) = !max?
    (if aFirst then keep a va else keep b vb, nv)

/-- The FCMP conditions (R153): whether the condition holds, and NV. Codes as R32. -/
def floatCond (cond : Nat) (a b : Val) : Bool × Nat :=
  let c := valCmp a b
  if a.isNan || b.isNan then
    let ordered := 2 ≤ cond && cond ≤ 5
    (cond = 1 || cond = 6, if ordered then flagNV else nvOf a ||| nvOf b)
  else
    (match cond with
     | 0 => c = 0
     | 1 => c ≠ 0
     | 2 => c < 0
     | 3 => c ≤ 0
     | 4 => c > 0
     | 5 => c ≥ 0
     | _ => false, 0)

/-- FCLASS's mask of an element as stored (R153). -/
def floatClass (f : FloatFmt) (b : Nat) : Nat :=
  let v := b / 2 ^ f.pad
  let neg := bit v (f.eb + f.fb)
  let ex := v / 2 ^ f.fb % 2 ^ f.eb
  let fr := v % 2 ^ f.fb
  if ex = 2 ^ f.eb - 1 then
    if fr = 0 then (if neg then 0x1 else 0x80) else if bit fr (f.fb - 1) then 0x200 else 0x100
  else if ex = 0 then
    if fr = 0 then (if neg then 0x8 else 0x10) else (if neg then 0x4 else 0x20)
  else if neg then 0x2 else 0x40

/-- F32 arithmetic of the engines, RNE with no flush: sums, differences, products and quotients of words. -/
def f32 : FloatFmt := floatFmt 1
def f32Val (b : Nat) : Val := floatVal f32 b 0 0
def f32Add (a b : Nat) : Nat := (roundVal f32 0 0 (valAdd 0 (f32Val a) (f32Val b)).1).1
def f32Sub (a b : Nat) : Nat := (roundVal f32 0 0 (valAdd 0 (f32Val a) (valNeg (f32Val b))).1).1
def f32Mul (a b : Nat) : Nat := (roundVal f32 0 0 (valMul (f32Val a) (f32Val b)).1).1
def f32Div (a b : Nat) : Nat := (floatDiv f32 0 0 (f32Val a) (f32Val b)).1
/-- Whether F32 word `a` is below `b` as numbers. -/
def f32Lt (a b : Nat) : Bool :=
  let x := f32Val a
  let y := f32Val b
  !x.isNan && !y.isNan && valCmp x y < 0

end Sys2Proof.Machine
end

