-- ==== Sys2Proof/Machine/Access.lean ====
section
/-! DEFINITION. The geometry of the die (R9, R10, R11) and the accessors of the state's units: every read and write of
a unit goes through them. -/

namespace Sys2Proof.Machine

/-! ## Coordinates -/

/-- Tile index of die coordinates, and back (R9). -/
def tileOf (x y : Nat) : Nat := 128 * y + x
def tileX (t : Nat) : Nat := t % 128
def tileY (t : Nat) : Nat := t / 128
/-- Cluster index and local index of a tile (R9). -/
def clusterOf (t : Nat) : Nat := (tileY t / 4) * 32 + tileX t / 4
def localOf (t : Nat) : Nat := (tileY t % 4) * 4 + tileX t % 4
/-- The tile of a cluster with a local index (R9). -/
def tileIn (c l : Nat) : Nat := tileOf (4 * (c % 32) + l % 4) (4 * (c / 32) + l / 4)
/-- The stack domain of a cluster (R10). -/
def domainOf (c : Nat) : Nat := (c / 32 / 4) * 4 + (c % 32) / 8
/-- The way from a cluster to another over the torus (R330): x first, the shorter way, east or south when equal. -/
def torusWay (c d : Nat) : Nat :=
  let dx := (d % 32 + 32 - c % 32) % 32
  let dy := (d / 32 + 16 - c / 32) % 16
  if dx ≠ 0 then (if dx ≤ 16 then 2 else 4) else if dy ≤ 8 then 3 else 1
/-- The port that faces a port. -/
def facing (p : Nat) : Nat := if p = 1 then 3 else if p = 2 then 4 else if p = 3 then 1 else 2
/-- The port by which packets from cluster `c` reach the router of cluster `d` (R330): that of the last ring. -/
def arrivalPort (c d : Nat) : Nat :=
  if c = d then 0 else facing (torusWay (if c / 32 = d / 32 then c else c / 32 * 32 + d % 32) d)
/-- The capability bits a local tile offers (R11, R44). -/
def capsOf (l : Nat) : Nat :=
  if l = 0 then 1 else if l = 5 || l = 10 then 2 else if l = 12 then 4 else if l = 15 then 8 else 0

/-! ## Units -/

def State.tile (s : State) (t : Nat) : Tile := assocGet {} s.tiles t
def State.setTile (s : State) (t : Nat) (x : Tile) : State := { s with tiles := assocSet s.tiles t x }
def State.cluster (s : State) (c : Nat) : Cluster := assocGet {} s.clusters c
def State.setCluster (s : State) (c : Nat) (x : Cluster) : State := { s with clusters := assocSet s.clusters c x }
def State.domain (s : State) (d : Nat) : Domain := assocGet {} s.domains d
def State.setDomain (s : State) (d : Nat) (x : Domain) : State := { s with domains := assocSet s.domains d x }
def State.setDean (s : State) (d : Dean) : State := { s with dean := d }
def State.ctx (s : State) (c : Nat) : Ctx := assocGet {} s.dean.ctxs c
def State.setCtx (s : State) (c : Nat) (x : Ctx) : State :=
  s.setDean { s.dean with ctxs := assocSet s.dean.ctxs c x }
def State.queue (s : State) (q : Nat) : Queue := assocGet { pass := s.dean.idlePass } s.dean.queues q
def State.setQueue (s : State) (q : Nat) (x : Queue) : State :=
  s.setDean { s.dean with queues := assocSet s.dean.queues q x }
def State.task (s : State) (c k : Nat) : Task := assocGet {} (s.cluster c).core.tasks k
def State.setCore (s : State) (c : Nat) (x : Core) : State := s.setCluster c { s.cluster c with core := x }
def State.setTask (s : State) (c k : Nat) (x : Task) : State :=
  s.setCore c { (s.cluster c).core with tasks := assocSet (s.cluster c).core.tasks k x }
def State.setStreamer (s : State) (c : Nat) (x : Streamer) : State := s.setCluster c { s.cluster c with streamer := x }
def State.setArray (s : State) (c : Nat) (x : MArray) : State := s.setCluster c { s.cluster c with array := x }
def State.setRegistrar (s : State) (c : Nat) (x : Registrar) : State :=
  s.setCluster c { s.cluster c with registrar := x }
def State.blockMeta (s : State) (b : Nat) : BlockMeta := assocGet {} s.blocks b
def State.setBlockMeta (s : State) (b : Nat) (m : BlockMeta) : State := { s with blocks := assocSet s.blocks b m }

/-- The next free value of the counter (log entry 2). -/
def State.freshWord (s : State) : Word × State := (Config.freeWord s.tick, { s with tick := s.tick + 1 })

/-- A general register: g0 reads as zero (R272). -/
def Task.reg (t : Task) (r : BitVec 5) : Word := if r = 0 then 0 else t.regs.getD r.toNat 0

/-- A write of a general register; one of g0 is discarded (R272). It takes away the register's recipe tag (R247). -/
def Task.setReg (t : Task) (r : BitVec 5) (v : Word) : Task :=
  if r = 0 then t
  else { t with regs := t.regs.set r.toNat v, tags := t.tags.filter fun g => g.1 ≠ r.toNat,
                dirty := t.dirty.filter fun g => g ≠ r.toNat }

/-- Tiles, waits of an assoc: a record under an index changed. -/
def State.updTile (s : State) (t : Nat) (f : Tile → Tile) : State := s.setTile t (f (s.tile t))
def State.updCtx (s : State) (c : Nat) (f : Ctx → Ctx) : State := s.setCtx c (f (s.ctx c))
def State.updTask (s : State) (c k : Nat) (f : Task → Task) : State := s.setTask c k (f (s.task c k))
def State.updQueue (s : State) (q : Nat) (f : Queue → Queue) : State := s.setQueue q (f (s.queue q))
def State.updDean (s : State) (f : Dean → Dean) : State := s.setDean (f s.dean)

/-! ## Regions and blocks -/

/-- Whether a tile is fused off (R12). -/
def State.fused (s : State) (t : Nat) : Bool := s.dean.fused.contains t

/-- The resident region of an image, and the one that holds a tile (R70, R80). -/
def State.regionOf (s : State) (image : Nat) : Option Region := s.dean.regions.find? fun r => r.image == image
def Region.holds (r : Region) (t : Nat) : Bool :=
  r.x0 ≤ tileX t && tileX t < r.x0 + r.w && r.y0 ≤ tileY t && tileY t < r.y0 + r.h
def State.regionAt (s : State) (t : Nat) : Option Region :=
  if s.fused t then none else s.dean.regions.find? fun r => r.holds t

/-- The region of a context (R306). -/
def State.ctxRegion (s : State) (c : Nat) : Option Region := s.regionOf (s.ctx c).image

/-- The tiles of a region, in ascending y, then x, less fused ones. -/
def State.regionTiles (s : State) (r : Region) : List Nat :=
  ((List.range r.h).flatMap fun j => (List.range r.w).map fun i => tileOf (r.x0 + i) (r.y0 + j)).filter
    fun t => !s.fused t

/-- The clusters a region's tiles lie in. -/
def State.regionClusters (s : State) (r : Region) : List Nat := ((s.regionTiles r).map clusterOf).dedup

/-- Whether a die rectangle reaches into a cluster, and whether it holds the cluster whole. -/
def rectTouches (x0 y0 w h c : Nat) : Bool :=
  x0 < 4 * (c % 32) + 4 && 4 * (c % 32) < x0 + w && y0 < 4 * (c / 32) + 4 && 4 * (c / 32) < y0 + h
def rectWhole (x0 y0 w h c : Nat) : Bool :=
  x0 ≤ 4 * (c % 32) && 4 * (c % 32) + 4 ≤ x0 + w && y0 ≤ 4 * (c / 32) && 4 * (c / 32) + 4 ≤ y0 + h

/-- A tile of a region by region-relative position. -/
def Region.relTile (r : Region) (x y : Nat) : Option Nat :=
  if x < r.w && y < r.h then some (tileOf (r.x0 + x) (r.y0 + y)) else none

/-- The contents a tile holds; an empty block where it holds none. -/
def State.blockOf (s : State) (t : Nat) : Block := ((s.tile t).block).getD {}

/-- A constant of a tile (R45). -/
def State.konst (s : State) (t n : Nat) : Nat := ((s.blockOf t).consts.getD n 0).toNat

/-- The tag-compare mask of a slot (R45). -/
def State.tagMask (s : State) (t slot : Nat) : Nat := ((s.blockOf t).masks.getD slot 0xFFFFFFFF).toNat

/-- A tenant's memory-encryption key (R342). -/
def State.keyOf (s : State) (tenant : Nat) : Option Nat :=
  (s.dean.keys.find? fun p => p.2.tenant == tenant).map fun p => p.2.key

/-! ## Token tags -/

/-- The tags of a token, first and one past the last. -/
def Token.lo (t : Token) : Nat := t.itag.toNat
def Token.hi (t : Token) : Nat := t.itag.toNat + t.len

/-- Whether two tag ranges overlap. -/
def Token.meets (a b : Token) : Bool := a.lo < b.hi && b.lo < a.hi

/-- MASK bits 0 to n − 1. -/
def fullMask (n : Nat) : BitVec 32 := BitVec.ofNat 32 (2 ^ n - 1)

/-- Whether element i is present. -/
def Token.has (t : Token) (i : Nat) : Bool := i < t.len && bit t.mask.toNat i

/-- Element i of a payload, zero where there is none. -/
def Token.elem (t : Token) (i : Nat) : Nat := (t.data.getD i 0).toNat

/-- The indexes of a token's present elements, ascending. -/
def Token.present (t : Token) : List Nat := (List.range t.len).filter t.has

/-- The piece of a run over tags [a, b) within its own (R91). -/
def Token.piece (t : Token) (a b : Nat) : Token :=
  let k := a - t.lo
  { t with itag := BitVec.ofNat 32 a, len := b - a,
           mask := BitVec.ofNat 32 (t.mask.toNat / 2 ^ k % 2 ^ (b - a)),
           data := if t.act = .fault then t.data else (t.data.drop k).take (b - a) }

/-- Runs that pair: NORMAL, EMPTY and FAULT (R91, R98). -/
def Act.isRun : Act → Bool
  | .normal => true
  | .empty => true
  | .fault => true
  | _ => false

/-- Actions the census counts while a token travels (R22). -/
def Act.counted : Act → Bool
  | .purge => false
  | _ => true

/-- The header words of a token (R17, R18). -/
def Act.code : Act → Nat
  | .normal => 0
  | .sticky => 1
  | .purge => 2
  | .cancel => 3
  | .empty => 4
  | .bell => 5
  | .fault => 6

def Token.word0 (t : Token) : Nat :=
  t.act.code * 2 ^ 61 + t.fmt.toNat * 2 ^ 56 + (t.len - 1) * 2 ^ 51 + t.crib.toNat * 2 ^ 47 + t.scale.toNat * 2 ^ 39 +
  t.ctx * 2 ^ 27 + t.cluster * 2 ^ 18 + t.tile * 2 ^ 14 + t.slot * 2 ^ 9 + t.port * 2 ^ 8 + (if t.drp then 128 else 0)
def Token.word1 (t : Token) : Nat := t.itag.toNat * 2 ^ 32 + t.mask.toNat

/-- Payload bytes, padded to a multiple of 16 (R19). -/
def Token.payload (t : Token) : List Byte :=
  let w := if t.act = .fault then 8 else fmtBytes t.fmt.toNat
  let body :=
    if t.act = .normal || t.act = .sticky then
      (List.range t.len).flatMap fun i => toBytes w (if t.has i then t.elem i else 0)
    else if t.act = .fault then (List.range 2).flatMap fun i => toBytes 8 (t.elem i)
    else []
  body ++ List.replicate ((16 - body.length % 16) % 16) 0

/-- A token image: header, then payload (R17, R293). -/
def Token.image (t : Token) : List Byte := toBytes 8 t.word0 ++ toBytes 8 t.word1 ++ t.payload

/-- The action a code names; none for the reserved code (R18). -/
def actOf : Nat → Option Act
  | 0 => some .normal
  | 1 => some .sticky
  | 2 => some .purge
  | 3 => some .cancel
  | 4 => some .empty
  | 5 => some .bell
  | 6 => some .fault
  | _ => none

/-- Payload bytes that a header's action, format and length call for, before padding. -/
def payloadBytes (act : Nat) (fmt len : Nat) : Nat :=
  if act ≤ 1 then fmtBytes fmt * len else if act = 6 then 16 else 0

/-- The padded length of a token image whose header word is given. -/
def imageBytes (w0 : Nat) : Nat :=
  16 + (payloadBytes (bits w0 63 61) (bits w0 60 56) (bits w0 55 51 + 1) + 15) / 16 * 16

/-- A token read from an image (R17, R20): none when a check of R20 but that on CTX fails. -/
def tokenOfImage (bs : List Byte) : Option Token :=
  let w0 := field bs 0 8
  let w1 := field bs 8 8
  let act := bits w0 63 61
  let fmt := bits w0 60 56
  let len := bits w0 55 51 + 1
  let crib := bits w0 50 47
  let drp := bit w0 7
  let mask := w1 % 2 ^ 32
  if w0 % 2 ^ 7 ≠ 0 || (14 ≤ fmt && fmt ≤ 27) || len > fmtMaxLen fmt || mask / 2 ^ len ≠ 0 ||
      (drp && act ≠ 1) || (!drp && crib ≠ 0) then none
  else
    (actOf act).map fun a =>
      let w := fmtBytes fmt
      { act := a, fmt := BitVec.ofNat 5 fmt, len := len, crib := BitVec.ofNat 4 crib,
        scale := BitVec.ofNat 8 (bits w0 46 39), ctx := bits w0 38 27, cluster := bits w0 26 18,
        tile := bits w0 17 14, slot := bits w0 13 9, port := bits w0 8 8, drp := drp,
        itag := BitVec.ofNat 32 (w1 / 2 ^ 32), mask := BitVec.ofNat 32 mask,
        data :=
          if a = .normal || a = .sticky then (List.range len).map fun i => BitVec.ofNat 64 (field bs (16 + i * w) w)
          else if a = .fault then [BitVec.ofNat 64 (field bs 16 8), BitVec.ofNat 64 (field bs 24 8)]
          else [] }

/-- The destination tile that a header names (R17). -/
def Token.destTile (t : Token) : Nat := tileIn t.cluster t.tile

/-- A token addressed to a slot and port of a tile. -/
def Token.sendTo (t : Token) (dst slot port : Nat) : Token :=
  { t with cluster := clusterOf dst, tile := localOf dst, slot := slot, port := port }

end Sys2Proof.Machine
end

