-- ==== Sys2Proof/Machine/Crypto.lean ====
section
/-! DEFINITION. The SM3 digest and the SM2 signature in the convention of R84 (GB/T 32905 and GB/T 32918, which the rule
names; log entry 7), and SM4 in XTS mode (R342; log entry 6). -/

namespace Sys2Proof.Machine

/-! ## SM3 -/

/-- The initial value of SM3's eight words. -/
def sm3Start : List (BitVec 32) :=
  [0x7380166F, 0x4914B2B9, 0x172442D7, 0xDA8A0600, 0xA96F30BC, 0x163138AA, 0xE38DEE4D, 0xB0FB0E4E]

/-- SM3's permutations. -/
def sm3P0 (x : BitVec 32) : BitVec 32 := x ^^^ x.rotateLeft 9 ^^^ x.rotateLeft 17
def sm3P1 (x : BitVec 32) : BitVec 32 := x ^^^ x.rotateLeft 15 ^^^ x.rotateLeft 23

/-- A message with its padding: bit 1, zeros, and the length in bits in 8 bytes. -/
def sm3Pad (m : List Byte) : List Byte :=
  m ++ [0x80] ++ List.replicate ((119 - m.length % 64) % 64) 0 ++ (toBytes 8 (8 * m.length)).reverse

/-- The words of a 64-byte block, the last first. -/
def sm3Words (b : List Byte) : List (BitVec 32) :=
  ((List.range 16).map fun i => BitVec.ofNat 32 (ofBytesBE (slice b (4 * i) 4))).reverse

/-- n more words of the expansion, the last first. -/
def sm3Expand : Nat → List (BitVec 32) → List (BitVec 32)
  | 0, w => w
  | n + 1, w =>
    let at_ (i : Nat) : BitVec 32 := w.getD (i - 1) 0
    sm3Expand n ((sm3P1 (at_ 16 ^^^ at_ 9 ^^^ (at_ 3).rotateLeft 15) ^^^ (at_ 13).rotateLeft 7 ^^^ at_ 6) :: w)

/-- One round over the words A to H, with the words W and W' of the round. -/
def sm3Round (j : Nat) (v : List (BitVec 32)) (w w' : BitVec 32) : List (BitVec 32) :=
  match v with
  | [a, b, c, d, e, f, g, h] =>
    let k : BitVec 32 := if j < 16 then 0x79CC4519 else 0x7A879D8A
    let x := (a.rotateLeft 12 + e + k.rotateLeft (j % 32)).rotateLeft 7
    let y := x ^^^ a.rotateLeft 12
    let p := if j < 16 then a ^^^ b ^^^ c else (a &&& b) ||| (a &&& c) ||| (b &&& c)
    let q := if j < 16 then e ^^^ f ^^^ g else (e &&& f) ||| (~~~e &&& g)
    [p + d + y + w', a, b.rotateLeft 9, c, sm3P0 (q + h + x + w), e, f.rotateLeft 19, g]
  | v => v

/-- The compression of one block. -/
def sm3Block (v : List (BitVec 32)) (b : List Byte) : List (BitVec 32) :=
  let ws := (sm3Expand 52 (sm3Words b)).reverse
  let r := (List.range 64).foldl (fun z j => sm3Round j z (ws.getD j 0) (ws.getD j 0 ^^^ ws.getD (j + 4) 0)) v
  (v.zip r).map fun p => p.1 ^^^ p.2

/-- The SM3 digest of a byte string, read as a big-endian number. -/
def sm3 (m : List Byte) : BitVec 256 :=
  let p := sm3Pad m
  let v := (List.range (p.length / 64)).foldl (fun z i => sm3Block z (slice p (64 * i) 64)) sm3Start
  v.foldl (fun (n : BitVec 256) w => n <<< 32 ||| w.setWidth 256) 0

/-- A digest as bytes, the most significant first. -/
def digestBytes (d : BitVec 256) : List Byte := (toBytes 32 d.toNat).reverse

/-! ## SM2 -/

/-- The field, the curve y² = x³ + ax + b, the order of its base point, and the base point. -/
def sm2P : Nat := 0xFFFFFFFEFFFFFFFFFFFFFFFFFFFFFFFFFFFFFFFF00000000FFFFFFFFFFFFFFFF
def sm2A : Nat := sm2P - 3
def sm2B : Nat := 0x28E9FA9E9D9F5E344D5A9E4BCF6509A7F39789F515AB8F92DDBCBD414D940E93
def sm2N : Nat := 0xFFFFFFFEFFFFFFFFFFFFFFFFFFFFFFFF7203DF6B21C6052B53BBF40939D54123
def sm2G : Nat × Nat × Nat :=
  (0x32C4AE2C1F1981195F9904466A39C9948FE30BBFF2660BE1715A4589334C74C7,
   0xBC3736A2F4F6779C59BDCEE36B692153D0A9877CC62A474002DF32E52139F0A0, 1)

/-- x^e modulo m for an exponent of at most n bits. -/
def powMod (m x e : Nat) : Nat → Nat
  | 0 => 1 % m
  | n + 1 =>
    let r := powMod m x (e / 2) n
    if e % 2 = 1 then r * r % m * x % m else r * r % m

/-- The inverse modulo a 256-bit prime. -/
def invMod (m x : Nat) : Nat := powMod m (x % m) (m - 2) 256

/-- The difference of two numbers of the field. -/
def sm2Sub (a b : Nat) : Nat := (a + sm2P - b % sm2P) % sm2P

/-- A point of the curve (X : Y : Z), with x = X / Z² and y = Y / Z³; the point at infinity has Z = 0. -/
abbrev Sm2Point := Nat × Nat × Nat

/-- Twice a point. -/
def sm2Double (p : Sm2Point) : Sm2Point :=
  let (x, y, z) := p
  let q := y * y % sm2P
  let s := 4 * x * q % sm2P
  let m := (3 * x * x + sm2A * (z * z % sm2P * (z * z % sm2P))) % sm2P
  let x' := sm2Sub (m * m) (2 * s)
  (x', sm2Sub (m * sm2Sub s x') (8 * (q * q)), 2 * y * z % sm2P)

/-- The sum of two points. -/
def sm2Add (p q : Sm2Point) : Sm2Point :=
  let (x, y, z) := p
  let (u, v, w) := q
  if z = 0 then q
  else if w = 0 then p
  else
    let a := x * (w * w % sm2P) % sm2P
    let c := y * (w * w % sm2P * w % sm2P) % sm2P
    let h := sm2Sub (u * (z * z % sm2P) % sm2P) a
    let r := sm2Sub (v * (z * z % sm2P * z % sm2P) % sm2P) c
    if h = 0 then (if r = 0 then sm2Double p else (1, 1, 0))
    else
      let hh := h * h % sm2P
      let hhh := hh * h % sm2P
      let x' := sm2Sub (r * r) (hhh + 2 * a * hh)
      (x', sm2Sub (r * sm2Sub (a * hh) x') (c * hhh), h * z % sm2P * w % sm2P)

/-- k times a point, for a factor of at most n bits. -/
def sm2Mul (p : Sm2Point) (k : Nat) : Nat → Sm2Point
  | 0 => (1, 1, 0)
  | n + 1 =>
    let d := sm2Double (sm2Mul p (k / 2) n)
    if k % 2 = 1 then sm2Add d p else d

/-- The coordinates (x, y) of a point; none at infinity. -/
def sm2Affine (p : Sm2Point) : Option (Nat × Nat) :=
  let (x, y, z) := p
  if z = 0 then none
  else
    let i := invMod sm2P z
    some (x * (i * i % sm2P) % sm2P, y * (i * i % sm2P * i % sm2P) % sm2P)

/-- A number of 256 bits as bytes, the most significant first. -/
def bytesBE (n : Nat) : List Byte := (toBytes 32 n).reverse

/-- Z_A of a public point: the digest of ENTL = 128, the default signer identity "1234567812345678", the curve and the
point (R84). -/
def sm2Signer (x y : Nat) : BitVec 256 :=
  sm3 ([0x00, 0x80] ++ [0x31, 0x32, 0x33, 0x34, 0x35, 0x36, 0x37, 0x38, 0x31, 0x32, 0x33, 0x34, 0x35, 0x36, 0x37, 0x38] ++
    bytesBE sm2A ++ bytesBE sm2B ++ bytesBE sm2G.1 ++ bytesBE sm2G.2.1 ++ bytesBE x ++ bytesBE y)

/-- e = SM3(Z_A ‖ M) of a message of 32 bytes. -/
def sm2Hash (x y : Nat) (m : BitVec 256) : Nat := (sm3 (digestBytes (sm2Signer x y) ++ digestBytes m)).toNat

/-- SM2 verification of (r, s) over a message of 32 bytes, under a public point given as x · 2^256 + y (R84). -/
def sm2Verify (key : Nat) (m : BitVec 256) (r s : Nat) : Bool :=
  let x := key / 2 ^ 256 % 2 ^ 256
  let y := key % 2 ^ 256
  let t := (r + s) % sm2N
  if r = 0 || sm2N ≤ r || s = 0 || sm2N ≤ s || t = 0 then false
  else
    match sm2Affine (sm2Add (sm2Mul sm2G s 256) (sm2Mul (x, y, 1) t 256)) with
    | none => false
    | some q => (sm2Hash x y m + q.1) % sm2N = r

/-- The SM2 signature (r, s) of a message of 32 bytes with a private key, from the i-th nonce on that gives one (R345): the
nonces are free (log entry 7). -/
def sm2Sign (d : Nat) (m : BitVec 256) : Nat → Nat → Nat × Nat
  | 0, _ => (0, 0)
  | fuel + 1, i =>
    let k := 1 + Config.sm2Nonce m i % (sm2N - 1)
    let p := (sm2Affine (sm2Mul sm2G d 256)).getD (0, 0)
    let r := (sm2Hash p.1 p.2 m + ((sm2Affine (sm2Mul sm2G k 256)).getD (0, 0)).1) % sm2N
    let s := invMod sm2N (1 + d) * ((k + sm2N * sm2N - r * d) % sm2N) % sm2N
    if r = 0 || r + k = sm2N || s = 0 then sm2Sign d m fuel (i + 1) else (r, s)

/-! ## SM4 and its XTS mode (GB/T 32907, R342; log entry 6) -/

/-- SM4's table of bytes, its first half. -/
def sm4Low : List Byte :=
  [0xD6, 0x90, 0xE9, 0xFE, 0xCC, 0xE1, 0x3D, 0xB7, 0x16, 0xB6, 0x14, 0xC2, 0x28, 0xFB, 0x2C, 0x05] ++
  [0x2B, 0x67, 0x9A, 0x76, 0x2A, 0xBE, 0x04, 0xC3, 0xAA, 0x44, 0x13, 0x26, 0x49, 0x86, 0x06, 0x99] ++
  [0x9C, 0x42, 0x50, 0xF4, 0x91, 0xEF, 0x98, 0x7A, 0x33, 0x54, 0x0B, 0x43, 0xED, 0xCF, 0xAC, 0x62] ++
  [0xE4, 0xB3, 0x1C, 0xA9, 0xC9, 0x08, 0xE8, 0x95, 0x80, 0xDF, 0x94, 0xFA, 0x75, 0x8F, 0x3F, 0xA6] ++
  [0x47, 0x07, 0xA7, 0xFC, 0xF3, 0x73, 0x17, 0xBA, 0x83, 0x59, 0x3C, 0x19, 0xE6, 0x85, 0x4F, 0xA8] ++
  [0x68, 0x6B, 0x81, 0xB2, 0x71, 0x64, 0xDA, 0x8B, 0xF8, 0xEB, 0x0F, 0x4B, 0x70, 0x56, 0x9D, 0x35] ++
  [0x1E, 0x24, 0x0E, 0x5E, 0x63, 0x58, 0xD1, 0xA2, 0x25, 0x22, 0x7C, 0x3B, 0x01, 0x21, 0x78, 0x87] ++
  [0xD4, 0x00, 0x46, 0x57, 0x9F, 0xD3, 0x27, 0x52, 0x4C, 0x36, 0x02, 0xE7, 0xA0, 0xC4, 0xC8, 0x9E]

/-- SM4's table of bytes, its second half. -/
def sm4High : List Byte :=
  [0xEA, 0xBF, 0x8A, 0xD2, 0x40, 0xC7, 0x38, 0xB5, 0xA3, 0xF7, 0xF2, 0xCE, 0xF9, 0x61, 0x15, 0xA1] ++
  [0xE0, 0xAE, 0x5D, 0xA4, 0x9B, 0x34, 0x1A, 0x55, 0xAD, 0x93, 0x32, 0x30, 0xF5, 0x8C, 0xB1, 0xE3] ++
  [0x1D, 0xF6, 0xE2, 0x2E, 0x82, 0x66, 0xCA, 0x60, 0xC0, 0x29, 0x23, 0xAB, 0x0D, 0x53, 0x4E, 0x6F] ++
  [0xD5, 0xDB, 0x37, 0x45, 0xDE, 0xFD, 0x8E, 0x2F, 0x03, 0xFF, 0x6A, 0x72, 0x6D, 0x6C, 0x5B, 0x51] ++
  [0x8D, 0x1B, 0xAF, 0x92, 0xBB, 0xDD, 0xBC, 0x7F, 0x11, 0xD9, 0x5C, 0x41, 0x1F, 0x10, 0x5A, 0xD8] ++
  [0x0A, 0xC1, 0x31, 0x88, 0xA5, 0xCD, 0x7B, 0xBD, 0x2D, 0x74, 0xD0, 0x12, 0xB8, 0xE5, 0xB4, 0xB0] ++
  [0x89, 0x69, 0x97, 0x4A, 0x0C, 0x96, 0x77, 0x7E, 0x65, 0xB9, 0xF1, 0x09, 0xC5, 0x6E, 0xC6, 0x84] ++
  [0x18, 0xF0, 0x7D, 0xEC, 0x3A, 0xDC, 0x4D, 0x20, 0x79, 0xEE, 0x5F, 0x3E, 0xD7, 0xCB, 0x39, 0x48]

/-- SM4's substitution, on each byte of a word. -/
def sm4Sub (x : BitVec 32) : BitVec 32 :=
  let s (i : Nat) : Nat := ((sm4Low ++ sm4High).getD (x.toNat / 2 ^ (8 * i) % 256) 0).toNat * 2 ^ (8 * i)
  BitVec.ofNat 32 (s 0 + s 1 + s 2 + s 3)

/-- The substitution followed by the mixing of a round, and by that of the key schedule. -/
def sm4Mix (x : BitVec 32) : BitVec 32 :=
  let b := sm4Sub x
  b ^^^ b.rotateLeft 2 ^^^ b.rotateLeft 10 ^^^ b.rotateLeft 18 ^^^ b.rotateLeft 24
def sm4KeyMix (x : BitVec 32) : BitVec 32 :=
  let b := sm4Sub x
  b ^^^ b.rotateLeft 13 ^^^ b.rotateLeft 23

/-- The constant of a round's key. -/
def sm4Const (i : Nat) : BitVec 32 :=
  BitVec.ofNat 32 ((List.range 4).foldl (fun n j => 256 * n + (4 * i + j) * 7 % 256) 0)

/-- The keys of n more rounds from round i on, from the four words before. -/
def sm4Keys : Nat → Nat → BitVec 32 → BitVec 32 → BitVec 32 → BitVec 32 → List (BitVec 32)
  | 0, _, _, _, _, _ => []
  | n + 1, i, a, b, c, d =>
    let k := a ^^^ sm4KeyMix (b ^^^ c ^^^ d ^^^ sm4Const i)
    k :: sm4Keys n (i + 1) b c d k

/-- A word of a 128-bit value, the first from its top. -/
def word128 (x : BitVec 128) (i : Nat) : BitVec 32 := BitVec.ofNat 32 (x.toNat / 2 ^ (96 - 32 * i))

/-- The 32 round keys of a key. -/
def sm4Schedule (k : BitVec 128) : List (BitVec 32) :=
  sm4Keys 32 0 (word128 k 0 ^^^ 0xA3B1BAC6) (word128 k 1 ^^^ 0x56AA3350) (word128 k 2 ^^^ 0x677D9197) (word128 k 3 ^^^ 0xB27022DC)

/-- The rounds of SM4 over four words, with the words in reverse order at the end. -/
def sm4Rounds : List (BitVec 32) → BitVec 32 → BitVec 32 → BitVec 32 → BitVec 32 → BitVec 128
  | [], a, b, c, d => d ++ c ++ b ++ a
  | k :: ks, a, b, c, d => sm4Rounds ks b c d (a ^^^ sm4Mix (b ^^^ c ^^^ d ^^^ k))

/-- SM4 on a block under round keys: those of a key encrypt, and in reverse order decrypt. -/
def sm4 (ks : List (BitVec 32)) (x : BitVec 128) : BitVec 128 := sm4Rounds ks (word128 x 0) (word128 x 1) (word128 x 2) (word128 x 3)

/-- A 128-bit value as its 16 bytes, the first from its top, and back. -/
def bytes128 (x : BitVec 128) : List Byte := (toBytes 16 x.toNat).reverse
def of128 (bs : List Byte) : BitVec 128 := BitVec.ofNat 128 (ofBytesBE bs)

/-- The tweak of the next block of a data unit: the 16 bytes read as a little-endian number, or with their bits in the order of
GB/T 17964 (log entry 6). -/
def xtsNext (gb : Bool) (t : BitVec 128) : BitVec 128 :=
  if gb then (t >>> 1) ^^^ (if t.getLsbD 0 then BitVec.ofNat 128 (0xE1 * 2 ^ 120) else 0)
  else
    let n := ofBytes (bytes128 t)
    of128 (toBytes 16 ((2 * n % 2 ^ 128) ^^^ (if 2 ^ 127 ≤ n then 0x87 else 0)))

/-- The blocks of a data unit under round keys, from a tweak on. -/
def xtsBlocks (gb : Bool) (ks : List (BitVec 32)) : BitVec 128 → List (List Byte) → List Byte
  | _, [] => []
  | t, b :: bs => bytes128 (sm4 ks (of128 b ^^^ t) ^^^ t) ++ xtsBlocks gb ks (xtsNext gb t) bs

/-- A 64-byte data unit encrypted, or decrypted, under a data key and a tweak key, the first 128 bits of `key` and the last
(R342, R343). -/
def xtsUnit (gb enc : Bool) (key unit : Nat) (bs : List Byte) : List Byte :=
  let ks := sm4Schedule (BitVec.ofNat 128 (key / 2 ^ 128))
  let t := sm4 (sm4Schedule (BitVec.ofNat 128 key)) (of128 (toBytes 16 unit))
  xtsBlocks gb (if enc then ks else ks.reverse) t ((List.range 4).map fun i => slice bs (16 * i) 16)

end Sys2Proof.Machine
end

