-- ==== Sys2Proof/Machine/Home.lean ====
section
/-! DEFINITION. Homes and versions (R214 to R220), memory keys and bank owners at the home (R339, R342), translation and
walks (R204 to R211): what one access does, and what waits for it. -/

namespace Sys2Proof.Machine

/-! ## Physical targets (R205, R214) -/

/-- What a home address selects. -/
inductive Space where
  | commons (c : Nat)
  | dram (sd : Nat)
  | tier2
  | host
  | peer (pkg : Nat)
  | hole
  deriving DecidableEq, Repr

/-- Home addresses of a cluster's commons start here; physical addresses lie below. -/
def commonsBase (c : Nat) : Nat := 2 ^ 52 + c * 2 ^ 19

/-- The target of a home address (R205, R348). -/
def State.spaceOf (s : State) (h : Nat) : Space :=
  if 2 ^ 52 ≤ h then .commons ((h - 2 ^ 52) / 2 ^ 19)
  else if h < 2 ^ 38 then (if h % 2 ^ 34 < 0x300000000 && !s.dean.offDomains.contains (h / 2 ^ 34) then .dram (h / 2 ^ 34) else .hole)
  else if h / 2 ^ 44 = 1 then (if h % 2 ^ 44 < s.dean.tier2 then .tier2 else .hole)
  else if h / 2 ^ 44 = 2 then .host
  else if h / 2 ^ 48 = 1 then .peer (h / 2 ^ 38 % 1024)
  else .hole

/-- The stack domain whose version buffer a block retains into (R218); none at an Eprad port. -/
def State.bufferOf (s : State) (b : Nat) : Option Nat :=
  match s.spaceOf (64 * b) with
  | .commons c => some (domainOf c)
  | .dram sd => some sd
  | _ => none

/-- Whether a home is encrypted (R342). -/
def Space.encrypted : Space → Bool
  | .dram _ => true
  | .tier2 => true
  | _ => false

/-- VB_USED: entries of a domain's version buffer in use (R218). -/
def State.vbUsed (s : State) (d : Nat) : Nat :=
  s.blocks.foldl (fun n p => if s.bufferOf p.1 = some d then n + p.2.retained.length else n) 0

/-! ## Bytes of a block -/

/-- Bytes written under key `old` as they read under `key`: encrypted under the one and decrypted under the other, the tweak
being PA[51:6] (R342, R343; log entry 6). -/
def underKey (b : Nat) (old : Option Nat) (key : Nat) (raw : List Byte) : List Byte :=
  match old with
  | none => raw
  | some k => if k = key then raw else xtsUnit Config.xtsGb false key b (xtsUnit Config.xtsGb true k b raw)

/-- The 64 bytes of a block as an access under `key` sees them. -/
def State.blockBytes (s : State) (b key : Nat) : List Byte :=
  match s.spaceOf (64 * b) with
  | .peer _ => (List.range 64).map fun i => Config.peerByte s.tick (64 * b + i)
  | .dram _ => underKey b (s.blockMeta b).key key (cellsGet s.mem (64 * b) 64)
  | .tier2 => underKey b (s.blockMeta b).key key (cellsGet s.mem (64 * b) 64)
  | _ => cellsGet s.mem (64 * b) 64

/-- A store of a block's bytes, with its new metadata. -/
def State.putBlock (s : State) (b : Nat) (m : BlockMeta) (bytes : List Byte) : State :=
  { s with mem := cellsSet s.mem (64 * b) bytes, blocks := assocSet s.blocks b m }

/-- A meter raised, saturating (R344). -/
def State.addMeter (s : State) (tenant ix n : Nat) : State :=
  if n = 0 then s
  else
    let ms := assocGet (List.replicate 13 0) s.dean.meters tenant
    let v := min (ms.getD ix 0 + n) (2 ^ 64 - 1)
    s.setDean { s.dean with meters := assocSet s.dean.meters tenant (ms.set ix v) }

/-- The meter an access is charged to (R344). -/
def Space.meter : Space → Nat
  | .commons _ => 8
  | .dram _ => 9
  | .tier2 => 10
  | _ => 11

/-! ## One access at its home (R217, R218) -/

/-- What an access reads or creates: the block's bytes, the version, old words of an atomic, entries freed. -/
structure AccessOut where
  bytes : List Byte := []
  ver   : BitVec 16 := 0
  old   : List Word := []
  freed : Nat := 0
  deriving DecidableEq, Repr, Inhabited

/-- What the home answers: performed, to wait for a version, to wait for a buffer entry, or failed. -/
inductive HomeResult where
  | done (s : State) (out : AccessOut)
  | wait
  | noEntry
  | busy
  | bad (cause sub : Nat)

/-- One element of an atomic (R226, R283): the new word of an old one. -/
def atomWord (op : AtomOp) (signed : Bool) (w old x y : Nat) : Nat :=
  let a : Int := if signed then sval w old else old
  let b : Int := if signed then sval w x else x
  match op with
  | .add => (old + x) % 2 ^ w
  | .min => if a ≤ b then old else x
  | .max => if a < b then x else old
  | .xchg => x
  | .and => old &&& x
  | .or => old ||| x
  | .cas => if old = x then y else old

/-- The elements of an atomic applied in order: old words and the block's new bytes. -/
def atomItems (op : AtomOp) (signed : Bool) (n : Nat) : List (Nat × Word × Word) → List Byte → List Word × List Byte
  | [], bs => ([], bs)
  | (off, x, y) :: t, bs =>
    let old := field bs off n
    let new := atomWord op signed (8 * n) old (x.toNat % 2 ^ (8 * n)) (y.toNat % 2 ^ (8 * n))
    let r := atomItems op signed n t (patch bs off (toBytes n new))
    (BitVec.ofNat 64 old :: r.1, r.2)

/-- The bytes of a store applied in order, so that a later one wins (R226). -/
def storeItems (bs : List Byte) : List (Nat × Byte) → List Byte
  | [] => bs
  | (off, v) :: t => storeItems (bs.set off v) t

/-- Whether a store writes its whole block, so that it needs no base (R229). -/
def AccessOp.whole : AccessOp → Bool
  | .store bytes => (List.range 64).all fun i => bytes.any fun p => p.1 = i
  | _ => false

def AccessOp.isLoad : AccessOp → Bool
  | .load => true
  | _ => false

/-- Whether an access creates nothing and waits for versions as loads do (R217, R228). -/
def AccessOp.reads : AccessOp → Bool
  | .load => true
  | .probe => true
  | _ => false

/-- Whether an access creates a version (R216): a store or an atomic. -/
def AccessOp.creates : AccessOp → Bool
  | .store _ => true
  | .atom _ _ _ => true
  | _ => false

/-- The version condition of R217 for a store at version v: `none` when it may proceed. -/
def storeGate (m : VMode) (v : BitVec 16) : Option HomeResult :=
  match m with
  | .exp n => if v + 1 = n then none else if reached v n then some (.bad 0x05 0x02) else some .wait
  | _ => none

/-- The metadata of a block as an access at its home meets it: a peer's versions are its own (R349; log entry 12). -/
def State.homeMeta (s : State) (b : Nat) : BlockMeta :=
  match s.spaceOf (64 * b) with
  | .peer _ => { version := Config.peerVersion s.tick (64 * b), poison := Config.peerPoison s.tick (64 * b) }
  | _ => s.blockMeta b

/-- The retained copy of a version, as an access sees it (R216, R217). -/
def State.retainedCopy (s : State) (a : Access) (n : BitVec 16) : Option (List Byte) :=
  match s.spaceOf (64 * a.block) with
  | .peer _ => if Config.peerKeeps s.tick (64 * a.block) n then some (s.blockBytes a.block a.key) else none
  | sp => ((s.blockMeta a.block).retained.find? fun p => p.1 = n).map fun p =>
    if sp.encrypted then underKey a.block p.2.1 a.key p.2.2 else p.2.2

/-- A load at its home (R217). -/
def State.homeLoad (s : State) (a : Access) : HomeResult :=
  let m := s.homeMeta a.block
  let v := m.version
  let current : HomeResult :=
    if m.poison then .bad 0x08 0x00 else .done s { bytes := s.blockBytes a.block a.key, ver := v }
  match a.mode with
  | .eq n =>
    if v = n then current
    else if reached v n then
      match s.retainedCopy a n with
      | some bytes => .done s { bytes := bytes, ver := n }
      | none => .bad 0x05 0x01
    else .wait
  | .ge n => if reached v n then current else .wait
  | _ => current

/-- The wait of VWAIT at its home (R228): the version current when it is served, and no data. -/
def State.homeProbe (s : State) (a : Access) : HomeResult :=
  let v := (s.homeMeta a.block).version
  match a.mode with
  | .ge n => if reached v n then .done s { ver := v } else .wait
  | _ => .done s { ver := v }

/-- A store or atomic at its home (R216, R217, R218): the new bytes become version v + 1, and the superseded version is
retained with RET, which no Eprad port allows. -/
def State.homeStore (s : State) (a : Access) (out : List Byte → AccessOut × List Byte) : HomeResult :=
  let m := s.homeMeta a.block
  if a.ret && (s.bufferOf a.block).isNone then .bad 0x0B 0x10
  else
    match storeGate a.mode m.version with
    | some r => r
    | none =>
      if m.poison && !a.op.whole then .bad 0x08 0x00
      else if a.ret && (s.bufferOf a.block).any fun d => Config.versionEntries ≤ s.vbUsed d then .noEntry
      else finish m m.version
where
  finish (m : BlockMeta) (v : BitVec 16) : HomeResult :=
    let (o, new) := out (s.blockBytes a.block a.key)
    let v' := v + 1
    match s.spaceOf (64 * a.block) with
    | .peer _ => .done s { o with ver := v' }
    | sp =>
      let kept := if a.ret then m.retained ++ [(v, m.key, cellsGet s.mem (64 * a.block) 64)] else m.retained
      let m' : BlockMeta :=
        { version := v', poison := false, retained := kept.filter fun p => (v' - p.1).toNat < 2 ^ 15,
          key := if sp.encrypted then some a.key else m.key }
      .done (s.putBlock a.block m' new) { o with ver := v' }

/-- RECLAIM at its home (R228): every retained version that n has reached is retired. -/
def State.homeReclaim (s : State) (a : Access) (n : BitVec 16) : HomeResult :=
  let m := s.homeMeta a.block
  match s.spaceOf (64 * a.block) with
  | .peer _ => .done s { ver := m.version, freed := Config.peerFreed s.tick (64 * a.block) }
  | _ =>
    let kept := m.retained.filter fun p => !reached n p.1
    .done (s.setBlockMeta a.block { m with retained := kept }) { ver := m.version, freed := m.retained.length - kept.length }

/-- The tenant to whom a SCRUB that holds a commons bank gives it (R341); none where no SCRUB holds it. -/
def State.scrubOwner (s : State) (c bank : Nat) : Option Nat :=
  (s.dean.scrubs.find? fun x =>
    bit x.banks bank && rectTouches (bits x.rect 6 0) (bits x.rect 13 8) (bits x.rect 23 16) (bits x.rect 30 24) c).map
      fun x => x.tenant

/-- The commons bank of a home address. -/
def bankOf (h : Nat) : Nat := h % 2 ^ 19 / 2 ^ 15

/-- An access performed at its home at one instant (R217 to R220), after the bank port's checks (R339, R341) and, for a
peer, the Switch's answer (R349; log entry 12). -/
def State.homeAct (s : State) (a : Access) : HomeResult :=
  let sp := s.spaceOf (64 * a.block)
  let charge : HomeResult → HomeResult
    | .done s' o => .done (s'.addMeter a.tenant sp.meter a.moved) o
    | r => r
  let go : HomeResult :=
    match a.op with
    | .load => s.homeLoad a
    | .probe => s.homeProbe a
    | .store bytes => s.homeStore a fun old => ({}, storeItems old bytes)
    | .atom op sg items =>
      s.homeStore a fun old =>
        let r := atomItems op sg a.width items old
        ({ old := r.1 }, r.2)
    | .reclaim n => s.homeReclaim a n
  match sp with
  | .hole => .bad 0x06 0x02
  | .commons c =>
    let bank := bankOf (64 * a.block)
    if (s.scrubOwner c bank).isSome then .busy
    else if (s.cluster c).banks.getD bank 0 ≠ a.tenant then .bad 0x07 0x06
    else charge go
  | .peer pkg =>
    if !s.dean.switchPorts.any fun q => Config.peerAnswers q pkg then .bad 0x09 0x04
    else
      match charge go with
      | .done s' o => .done { s' with tick := s'.tick + 1 } o
      | r => r
  | _ => charge go

/-! ## Translation (R204 to R208) -/

/-- Whether a virtual address lies in the commons window, and in the image code window (R204). -/
def inCommons (va : Nat) : Bool := bits va 55 28 = 2 ^ 28 - 1
def inCode (va : Nat) : Bool := bits va 55 32 = 0xFFFFFE

/-- The rights check against a leaf (R207): the subcode of the first failure. -/
def TEntry.deny (e : TEntry) (kind : AccKind) (priv typed : Bool) : Option Nat :=
  let rd := kind = .read || kind = .readWrite
  let wr := kind = .write || kind = .readWrite
  if rd && !e.r then some 0x01
  else if wr && !e.w then some 0x02
  else if kind = .fetch && !e.x then some 0x03
  else if e.priv && !priv then some 0x04
  else if typed && !e.typed then some 0x05
  else none

/-- Whether an entry covers an address under an ASID (R208). -/
def TEntry.covers (e : TEntry) (asid va : Nat) : Bool := e.asid = asid && va / 2 ^ e.shift = e.vpage

/-- What translation answers. -/
inductive Trans where
  | home (h : Nat)
  | miss
  | bad (cause sub : Nat)
  deriving DecidableEq, Repr

/-- An address translated through a stream's entry (R204, R207, R208, R310). -/
def translate (e : Option TEntry) (asid va : Nat) (kind : AccKind) (priv typed : Bool) : Trans :=
  if 2 ^ 56 ≤ va then .bad 0x06 0x03
  else if inCommons va then .home (commonsBase (bits va 27 19) + bits va 18 0)
  else if inCode va then .bad 0x07 (if kind = .write then 0x02 else if kind = .fetch then 0x03 else 0x01)
  else
    match e with
    | none => .miss
    | some t =>
      if t.covers asid va then
        match t.deny kind priv typed with
        | some sub => .bad 0x07 sub
        | none => .home (t.pa + va % 2 ^ t.shift)
      else .miss

/-- The tenant an access under an ASID is performed as (R308): another tenant's for tenant 0's tasks and firmware. -/
def State.actingTenant (s : State) (tenant asid : Nat) : Nat :=
  if tenant = 0 then
    let e := assocGet {} s.dean.asids asid
    if e.valid then e.tenant else 0
  else tenant

/-- The memory key for an access of a tenant to a home (R342): a Protection fault where none is held. -/
def State.keyFor (s : State) (tenant h : Nat) : Option Nat :=
  if (s.spaceOf h).encrypted then s.keyOf tenant else some 0

/-- What one level of a walk finds (R206). -/
inductive LevelResult where
  | next (table : Nat)
  | leaf (e : TEntry)
  | bad (cause sub : Nat)
  deriving DecidableEq, Repr

/-- The address of a level's entry (R204, R206). -/
def levelEntry (level table va : Nat) : Nat :=
  table + 8 * (if level = 3 then bits va 55 39 else if level = 2 then bits va 38 30
               else if level = 1 then bits va 29 21 else bits va 20 16)

/-- The read of a level's entry at its table block's home, and what it says (R206). -/
def State.walkLevel (s : State) (asid tenant level table va : Nat) : LevelResult :=
  let at_ := levelEntry level table va
  match s.keyFor tenant at_ with
  | none => .bad 0x07 0x0C
  | some key =>
    if (s.blockMeta (at_ / 64)).poison then .bad 0x08 0x00
    else
    let e := field (s.blockBytes (at_ / 64) key) (at_ % 64) 8
    let pa := bits e 51 8 * 256
    let hole := match s.spaceOf pa with
      | .hole => true
      | _ => false
    if !bit e 0 then .bad 0x06 0x01
    else if bits e 55 52 ≠ 0 || bit e 7 || hole || (level = 3 && bit e 1) || (level = 0 && !bit e 1) then .bad 0x06 0x02
    else if bit e 1 then
      let shift := if level = 2 then 30 else if level = 1 then 21 else 16
      if pa % 2 ^ shift ≠ 0 then .bad 0x06 0x02
      else .leaf { asid := asid, vpage := va / 2 ^ shift, shift := shift, pa := pa, priv := bit e 6, typed := bit e 5,
                   x := bit e 4, w := bit e 3, r := bit e 2 }
    else if bits e 6 2 ≠ 0 || (level ≠ 1 && pa % 4096 ≠ 0) then .bad 0x06 0x02
    else .next pa

/-- The check of the ASID table when a walk starts (R308): the root table. -/
def State.walkRoot (s : State) (asid tenant : Nat) : LevelResult :=
  let e := assocGet {} s.dean.asids asid
  if !e.valid then .bad 0x06 0x02
  else if e.tenant ≠ tenant && tenant ≠ 0 then .bad 0x07 0x0A
  else .next e.root

/-- The levels of a walk read at once, for the Dean's own accesses. -/
def State.walkAll (s : State) (asid tenant va : Nat) : Nat → Nat → LevelResult
  | 0, table => s.walkLevel asid tenant 0 table va
  | level + 1, table =>
    match s.walkLevel asid tenant (level + 1) table va with
    | .next t => s.walkAll asid tenant va level t
    | r => r

/-- An address translated by a walk made at once. -/
def State.translateNow (s : State) (asid tenant va : Nat) (kind : AccKind) (priv typed : Bool) : Trans :=
  match translate none asid va kind priv typed with
  | .miss =>
    match s.walkRoot asid tenant with
    | .next root =>
      match s.walkAll asid (s.actingTenant tenant asid) va 3 root with
      | .leaf e => translate (some e) asid va kind priv typed
      | .bad c u => .bad c u
      | .next _ => .bad 0x06 0x02
    | .bad c u => .bad c u
    | .leaf _ => .bad 0x06 0x02
  | r => r

end Sys2Proof.Machine
end

