-- ==== Sys2Proof/Machine/Port.lean ====
section
/-! DEFINITION. Streams and waits: the issue of memory groups at a tile port (R208, R226, R230), the order AQRL and FENCE
give (R222), the version waits and RET waits at the homes (R218, R219), and what each completes. -/

namespace Sys2Proof.Machine

/-! ## Issue at a tile port -/

/-- The rights a memory instruction needs (R207). -/
def MemKind.access : MemKind → AccKind
  | .st => .write
  | .stb => .write
  | .reclaim => .write
  | .atom => .readWrite
  | .cas => .readWrite
  | _ => .read

/-- Whether the access interprets typed blocks (R207). -/
def MemKind.typed : MemKind → Bool
  | .ldb => true
  | .stb => true
  | _ => false

/-- The groups of a pairing issued in order through the port's entry, up to a miss or a failure (R226, R229). -/
def State.issueGroups (s : State) (e : Option TEntry) (p : MemPairing) : List Group → List Group × Option Nat
  | [] => ([], none)
  | g :: gs =>
    match g.st with
    | .todo =>
      let c := s.ctx p.ctx
      let va := (g.elems.headD (0, 0)).2
      match translate e c.asid va p.kind.access c.priv p.kind.typed with
      | .miss => (g :: gs, some va)
      | .bad cause sub => ({ g with st := .failed cause sub } :: gs, none)
      | .home h =>
        let tenant := s.actingTenant c.tenant c.asid
        match s.keyFor tenant h with
        | none => ({ g with st := .failed 0x07 0x0C } :: gs, none)
        | some key =>
          let r := s.issueGroups e p gs
          ({ g with st := .issued, block := h / 64, issuedAt := s.cycle,
                    acc := { g.acc with block := h / 64, key := key, tenant := tenant } } :: r.1, r.2)
    | .failed _ _ => (g :: gs, none)
    | _ =>
      let r := s.issueGroups e p gs
      (g :: r.1, r.2)

/-- The pairings of a port issued in order, up to a miss; those of a FROZEN context issue nothing (R234). -/
def State.issuePairings (s : State) (e : Option TEntry) : List MemPairing → List MemPairing × Option (MemPairing × Nat)
  | [] => ([], none)
  | p :: ps =>
    let r := if (s.ctx p.ctx).st = .frozen then (p.groups, none) else s.issueGroups e p p.groups
    match r.2 with
    | some va => ({ p with groups := r.1 } :: ps, some (p, va))
    | none =>
      let q := s.issuePairings e ps
      ({ p with groups := r.1 } :: q.1, q.2)

/-- The group that a pairing would issue next: its first one not issued, unless that one failed. -/
def MemPairing.nextGroup (p : MemPairing) : Option (Group × Nat) :=
  (p.groups.zipIdx.find? fun g => match g.1.st with
    | .todo => true
    | .failed _ _ => true
    | _ => false).filter fun g => g.1.st = .todo

/-- The pairing at which a port stands that waits for a walk or for its record (R208, R211). -/
def Tile.stoppedAt (x : Tile) : Option MemPairing :=
  if x.stall = .none then none else x.port.find? fun p => p.seq = x.stopped

/-- Where a stream's miss stands among those of one cycle (R209): cluster, kind, index. -/
def streamRank : StreamId → List Nat
  | .agn c a => [c, 0, a]
  | .tilePort t => [clusterOf t, 1, localOf t]
  | .replayUnit t => [clusterOf t, 2, localOf t]
  | .taskData c k => [c, 3, k]
  | .taskFetch c k => [c, 3, k]

/-- A miss joins its domain's walk wait list (R209). -/
def State.addMiss (s : State) (w : Walk) : State :=
  let w := { w with at_ := s.cycle }
  let later (v : Walk) : Bool := v.at_ = s.cycle && streamRank w.who < streamRank v.who
  match s.misses.findIdx? later with
  | some i => { s with misses := s.misses.insertIdx i w }
  | none => { s with misses := s.misses ++ [w] }

/-- A tile port issues what it can; a miss joins the domain's walk wait list and stops the port (R208, R209). -/
def State.issuePort (s : State) (t : Nat) : State :=
  let x := s.tile t
  if x.stall ≠ .none then s
  else
    let r := s.issuePairings x.entry x.port
    match r.2 with
    | none => s.setTile t { x with port := r.1 }
    | some (p, va) =>
      let c := s.ctx p.ctx
      (s.setTile t { x with port := r.1, stall := .walk, stopped := p.seq }).addMiss
        { who := .tilePort t, asid := c.asid, tenant := c.tenant, va := va, kind := p.kind.access }

/-! ## Order at a port (R222) -/

/-- Whether a home lies in a scope reckoned from a cluster (R215). -/
def State.inScope (s : State) (scope c h : Nat) : Bool :=
  match s.spaceOf h with
  | .commons o =>
    if scope = 1 then o = c else if scope = 2 then domainOf o = domainOf c else true
  | .dram sd => if scope = 1 then false else if scope = 2 then sd = domainOf c else true
  | _ => scope = 0 || scope = 4

/-- The home unit of a block: a commons port, a memory controller, or an Eprad port (R214). Second-tier memory is interleaved over
its ports by PA[43:12], and PA bit 12 selects the host port (R348, R349). -/
def State.homeUnit (s : State) (b : Nat) : Nat :=
  match s.spaceOf (64 * b) with
  | .commons c => c
  | .dram sd => 1000 + sd
  | .tier2 => 2002 + b / 64 % 2 ^ 32 % max 1 s.dean.tier2Ports
  | .host => 2000 + b / 64 % 2
  | .peer n => 3000 + n
  | .hole => 2999

/-- Whether a group has not been performed. -/
def Group.open_ (g : Group) : Bool :=
  match g.st with
  | .done => false
  | .failed _ _ => false
  | _ => true

/-- Whether a group may be concerned by an order at a scope: one not yet translated may have its home there. -/
def State.groupIn (s : State) (scope c : Nat) (g : Group) : Bool :=
  match g.st with
  | .todo => true
  | _ => s.inScope scope c (64 * g.block)

/-- The pairings of a port before a given one, of its context. -/
def beforeSeq (port : List MemPairing) (p : MemPairing) : List MemPairing :=
  port.filter fun q => q.seq < p.seq && q.ctx = p.ctx

/-- Whether every predecessor of a pairing at a scope has been performed (R222). -/
def State.settledBefore (s : State) (c scope : Nat) (port : List MemPairing) (p : MemPairing) : Bool :=
  (beforeSeq port p).all fun q => q.groups.all fun g => !g.open_ || !s.groupIn scope c g

/-- Whether an issued group may be performed now: a release waits for its predecessors, and earlier acquires and fences
hold back their successors (R222). Nothing else orders the groups of a port, of one block or of several (R224). -/
def State.mayPerform (s : State) (t : Nat) (p : MemPairing) (g : Group) : Bool :=
  let c := clusterOf t
  let port := (s.tile t).port
  let h := 64 * g.block
  let release := !p.rel || !s.inScope p.scope c h || s.settledBefore c p.scope port p
  let acquires := (beforeSeq port p).all fun q =>
    if q.kind = .fence then !s.inScope q.scope c h || s.settledBefore c q.scope port q
    else !q.acq || !s.inScope q.scope c h || q.groups.all fun x => !x.open_ || !s.groupIn q.scope c x
  release && acquires

/-- The issued groups of a port in order, with their pairings and indexes. -/
def issuedGroups (port : List MemPairing) : List (MemPairing × Nat × Group) :=
  port.flatMap fun p => (p.groups.zipIdx.filter fun x => x.1.st = .issued).map fun x => (p, x.2, x.1)

/-! ## What a performed access completes -/

/-- A group's record once performed (R226 to R228). -/
def Group.finish (g : Group) (kind : MemKind) (w : Nat) (o : AccessOut) : Group :=
  let vals : List (Nat × Word) :=
    match kind with
    | .ld => g.elems.map fun e => (e.1, BitVec.ofNat 64 (field o.bytes (e.2 % 64) w))
    | .ldb => o.bytes.zipIdx.map fun b => (b.2, b.1.setWidth 64)
    | _ => (g.elems.map fun e => e.1).zip o.old
  { g with st := .done, ver := o.ver, vals := vals, count := o.freed }

/-- A group of a tile port changed. -/
def Tile.updGroup (x : Tile) (seq k : Nat) (f : MemPairing → Group → Group) : Tile :=
  { x with port := x.port.map fun p =>
      if p.seq = seq then { p with groups := p.groups.zipIdx.map fun g => if g.2 = k then f p g.1 else g.1 } else p }

/-- A tile port's miss or walk given up, and the port going on. -/
def State.restartPort (s : State) (t : Nat) : State :=
  let s : State := { s with misses := s.misses.filter fun w => w.who ≠ .tilePort t, walks := s.walks.filter fun w => w.who ≠ .tilePort t }
  (s.updTile t fun x => { x with stall := .none }).issuePort t

/-- A group fails (R229): no later group of its pairing is issued, so that a port that stands at that pairing goes on. -/
def State.groupFails (s : State) (t seq k cause sub : Nat) : State :=
  let here := (s.tile t).stoppedAt.any fun p => p.seq = seq
  let s := s.updTile t fun x => x.updGroup seq k fun _ g => { g with st := .failed cause sub }
  if here then s.restartPort t else s

/-- A completed instruction: the pc moves on and INSTRET counts (R274). -/
def Task.retire (t : Task) : Task := { t with pc := t.pc + 4, instret := t.instret + 1, ranged := [] }

/-- The value a task's memory instruction writes to its register (R283, R284). -/
def TaskAccess.value (a : TaskAccess) (o : AccessOut) : Word :=
  match a.kind with
  | .ld =>
    let n := field o.bytes a.off a.size
    if a.signed then BitVec.ofInt 64 (sval (8 * a.size) n) else BitVec.ofNat 64 n
  | .vwait => o.ver.setWidth 64
  | .reclaim => BitVec.ofNat 64 o.freed
  | _ => o.old.headD 0

/-- A piece of a byte range performed: the bytes that a load read of it (log entry 20). -/
def Task.pieceDone (t : Task) (o : AccessOut) : Task :=
  let a := t.access
  { t with ranged := t.ranged.map fun p =>
      if p.va = a.va && p.size = a.size && p.done = false then
        { p with done := true, bytes := if a.acc.op.isLoad then slice o.bytes a.off a.size else [] }
      else p }

/-- A task's access completed (R221, R283): the instruction is over, or, for one of kind `range`, goes on. -/
def Task.complete (t : Task) (o : AccessOut) : Task :=
  if t.access.kind = .range then t.pieceDone o
  else
    let t' := if t.access.kind = .st then t else t.setReg (BitVec.ofNat 5 t.access.reg) (t.access.value o)
    t'.retire

/-- A BLOCKED task made RUNNABLE (R275). -/
def Task.ready (t : Task) : Task :=
  match t.st with
  | .blocked _ => { t with st := .runnable }
  | _ => t

/-- An AGN changed. -/
def State.updAgn (s : State) (c a : Nat) (f : Agn → Agn) : State :=
  let st := (s.cluster c).streamer
  s.setStreamer c { st with agns := assocSet st.agns a (f (assocGet {} st.agns a)) }

/-- The bytes of an index list that a block holds past what has been read (R196). -/
def Agn.indexBytes (a : Agn) (block : List Byte) : List Byte :=
  let at_ := a.cmd.d.iaddr + a.idxBytes.length
  let left := 4 * a.cmd.d.nidx - a.idxBytes.length
  slice block (at_ % 64) (min left (64 - at_ % 64))

/-- An AGN's store performed: the bytes of the block leave what is still to be written, and the cursor moves past a
group that is written whole (R190, R192). -/
def Agn.wrote (a : Agn) (block : Nat → Bool) : Agn :=
  let left := a.wleft.dropWhile fun p => block p.1
  if left.isEmpty then { a with wleft := [], cursor := a.wend } else { a with wleft := left }

/-- The bytes of one block at the head of what an AGN has to write. -/
def Agn.writeHead (a : Agn) : List (Nat × Byte) :=
  match a.wleft with
  | [] => []
  | (v, _) :: _ => a.wleft.takeWhile fun p => p.1 / 64 = v / 64

/-- An AGN's command fails (R197): a failed read ends it after the positions read before; a failed write drops what is
left. -/
def Agn.fail (a : Agn) (cause sub address : Nat) : Agn :=
  if a.wleft.isEmpty then { a with failed := some (cause, sub, address, false), total := a.fetched, half := [], stall := .none }
  else
    { a with failed := some (cause, sub, address, false), wleft := [], buf := [], total := a.fetched, stall := .none,
             scorer := a.cmd.d.gate }

/-- An AGN at work changed; an idle one stays so. -/
def State.updBusyAgn (s : State) (c a : Nat) (f : Agn → Agn) : State :=
  if assocHas (s.cluster c).streamer.agns a then s.updAgn c a f else s

/-- An access that had waited is performed: what it completes (R219). -/
def State.waiterDone (s : State) (w : HomeWait) (o : AccessOut) : State :=
  match w.who with
  | .group t seq k => s.updTile t fun x => x.updGroup seq k fun p g => g.finish p.kind (fmtBytes p.fmt.toNat) o
  | .task c k => s.updTask c k fun t => (t.complete o).ready
  | .agn c a => s.updBusyAgn c a fun x =>
    let x := { x with stall := .none }
    if w.acc.op.isLoad then { x with idxBytes := x.idxBytes ++ x.indexBytes o.bytes }
    else
      let v := (x.wleft.headD (0, 0)).1
      x.wrote fun p => p / 64 = v / 64
  | .replay t b => s.updTile t fun x => { x with rval := x.rval ++ [(b, o.ver.toNat, o.bytes)], rstall := .none }

/-- A waiting access that fails: a group fails, a task faults when the answer reaches it, an AGN fails. -/
def State.waiterBad (s : State) (w : HomeWait) (cause sub : Nat) : State :=
  match w.who with
  | .group t seq k => s.groupFails t seq k cause sub
  | .task c k => s.updTask c k fun t =>
    { t with st := .blocked .access, access := { t.access with bad := some (cause, sub) } }
  | .agn c a => s.updBusyAgn c a fun x => x.fail cause sub (x.wleft.headD (x.cmd.d.iaddr, 0)).1
  | .replay t _ => s.updTile t fun x =>
    { x with rstall := .none, rfail := some (if cause = 0x05 then (0x0C, 0x03) else (cause, sub)) }

/-- Whether a waiting access is one of a tile's replay unit. -/
def Waiter.ofReplay (w : Waiter) (t : Nat) : Bool :=
  match w with
  | .replay d _ => d = t
  | _ => false

/-- A tile's replay unit let go of the record that it is at work on, with its walk and its wait at a home: what it has of
the value is lost, and the record's request stays in the queue (R242, R320). -/
def State.stopReplay (s : State) (t : Nat) : State :=
  { s.updTile t fun x => { x with rcur := none, rstall := .none, rval := [], rfail := none, rrun := none } with
    waits := s.waits.filter fun w => !w.who.ofReplay t
    misses := s.misses.filter fun w => w.who ≠ .replayUnit t
    walks := s.walks.filter fun w => w.who ≠ .replayUnit t }

/-- A tile's replay unit stopped if it is at work for a context. -/
def State.stopReplayOf (s : State) (t c : Nat) : State :=
  let x := s.tile t
  if x.drops.any fun d => x.rcur = some d.id && d.tok.ctx = c then s.stopReplay t else s

/-- A version wait (R219): a load, a VWAIT or an EXP store. -/
def Access.versionWait (a : Access) : Bool :=
  a.op.reads || (match a.mode with
    | .exp _ => true
    | _ => false)

/-- How many version waits a home's list holds (R219); an Eprad port's has no bound given (log entry 18). -/
def State.waitCap (s : State) (b : Nat) : Option Nat :=
  match s.spaceOf (64 * b) with
  | .commons _ => some 256
  | .dram _ => some 4096
  | _ => none

/-- The version waits of a home among those given. -/
def State.homeWaits (s : State) (b : Nat) (ws : List HomeWait) : Nat :=
  (ws.filter fun w => w.acc.versionWait && s.homeUnit w.acc.block = s.homeUnit b).length

/-- Whether the i-th wait found its home's list full and is held in the home's input buffer (R219). -/
def State.heldWait (s : State) (i : Nat) (w : HomeWait) : Bool :=
  w.acc.versionWait && (s.waitCap w.acc.block).any fun n => n ≤ s.homeWaits w.acc.block (s.waits.take i)

/-- The input port of a block's home by which requests of a cluster reach it (R330; log entry 50): of the router, at a
commons; one for all at any other home. -/
def State.homeInput (s : State) (c b : Nat) : Nat :=
  match s.spaceOf (64 * b) with
  | .commons o => arrivalPort c o
  | _ => 0

/-- Whether a held request keeps later requests out at an input of a home (R113, R219). -/
def State.inputBlocked (s : State) (b input : Nat) : Bool :=
  s.waits.zipIdx.any fun p => p.1.input = input && s.homeUnit p.1.acc.block = s.homeUnit b && s.heldWait p.2 p.1

/-- Whether a RET store waits for an entry of the version buffer that a block retains into (R218). -/
def State.entryAwaited (s : State) (b : Nat) (ws : List HomeWait) : Bool :=
  ws.any fun v => v.entry && s.bufferOf v.acc.block = s.bufferOf b

/-- The position of the first wait that may be served: EQ loads of a version just created come first (R217), then join
order; of the waits for a buffer entry only the first of each domain (R218). -/
def State.nextWait (s : State) : Option Nat :=
  let can (i : Nat) (w : HomeWait) : Bool :=
    !s.heldWait i w && (match s.homeAct w.acc with
      | .done _ _ => !w.entry || !s.entryAwaited w.acc.block (s.waits.take i)
      | .bad _ _ => true
      | .noEntry => !w.entry
      | _ => false)
  let eqNow (i : Nat) (w : HomeWait) : Bool :=
    !s.heldWait i w && (match w.acc.mode with
      | .eq n => w.acc.op.isLoad && (s.homeMeta w.acc.block).version = n && can i w
      | _ => false)
  match s.waits.zipIdx.find? fun p => eqNow p.2 p.1 with
  | some p => some p.2
  | none => (s.waits.zipIdx.find? fun p => can p.2 p.1).map fun p => p.2

/-- Streams that wait on their fault record in a block retry once it is stored to (R211). -/
def State.recordStored (s : State) (b : Nat) : State :=
  let tiles := s.tiles.foldl (fun (z : State) p =>
    let x := z.tile p.1
    let z := if x.rstall = .record b then z.setTile p.1 { x with rstall := .none } else z
    let x := z.tile p.1
    if x.stall = .record b then (z.setTile p.1 { x with stall := .none }).issuePort p.1 else z) s
  tiles.clusters.foldl (fun (z : State) p =>
    (z.cluster p.1).core.tasks.foldl (fun (z : State) q =>
      if q.2.st = .blocked (.record b) then z.updTask p.1 q.1 Task.ready else z) z) tiles

/-- Whether some stream waits on its fault record in a block. -/
def State.recordWaited (s : State) (b : Nat) : Bool :=
  (s.tiles.any fun p => p.2.stall = .record b || p.2.rstall = .record b) ||
  (s.clusters.any fun p => p.2.core.tasks.any fun q => q.2.st = .blocked (.record b))

/-- What a performed store or atomic brings to the streams that wait for a store to a block (R211). -/
def State.stored (s : State) (a : Access) : State := if a.op.creates && s.recordWaited a.block then s.recordStored a.block else s

/-- Waits that an event satisfied are served one after another (R219); a RET store whose version condition holds while no
entry is free goes on to wait for one (R218), so that a wait is met twice at most. -/
def State.serveWaits (s : State) : Nat → State
  | 0 => s
  | fuel + 1 =>
    match s.nextWait with
    | none => s
    | some i =>
      match s.waits[i]? with
      | none => s
      | some w =>
        let rest := { s with waits := s.waits.eraseIdx i }
        match s.homeAct w.acc with
        | .done _ _ =>
          match rest.homeAct w.acc with
          | .done s' o => ((s'.stored w.acc).waiterDone w o).serveWaits fuel
          | _ => s
        | .bad c u => (rest.waiterBad w c u).serveWaits fuel
        | .noEntry => { rest with waits := rest.waits ++ [{ w with entry := true }] }.serveWaits fuel
        | _ => s

/-- What follows a performed access: streams waiting on a record retry after a store to it, and waits are served. -/
def State.afterAccess (s : State) (a : Access) : State :=
  let s := s.stored a
  s.serveWaits (2 * s.waits.length)

/-- A waiter that nothing is completed for: a store that an ended command left on its way to its home. -/
def noWaiter : Waiter := .agn Config.clusters 8

/-- An access that a unit makes within one step (R341): one that a SCRUB holds at its bank port is answered as it is once the
SCRUB has emitted. To any but the new owner that is Protection, subcode Bank; the new owner reads zeros, and its store waits
at the port. -/
def State.actNow (s : State) (a : Access) : HomeResult :=
  match s.homeAct a with
  | .busy =>
    match s.spaceOf (64 * a.block) with
    | .commons c =>
      if s.scrubOwner c (bankOf (64 * a.block)) ≠ some a.tenant then .bad 0x07 0x06
      else if a.op.reads then .done s { bytes := List.replicate 64 0 }
      else .done { s with waits := s.waits ++ [{ who := noWaiter, acc := a, ctx := 0xFFFF, born := s.cycle }] } {}
    | _ => .busy
  | r => r

/-- The answer to an access that may wait: performed, joined the home's wait list, held at a port, or failed. -/
inductive Perf where
  | done (s : State) (out : AccessOut)
  | waits (s : State)
  | busy
  | bad (cause sub : Nat)

/-- The cluster that a waiting access comes from. -/
def Waiter.cluster : Waiter → Nat
  | .group t _ _ => clusterOf t
  | .task c _ => c
  | .agn c _ => c
  | .replay t _ => clusterOf t

/-- An access performed at its home, or put on its wait list (R217 to R219). One that finds the list full is held in the
home's input buffer, and later ones stay behind it. `asid`: the ASID it was translated under, if any. -/
def State.perform (s : State) (a : Access) (who : Waiter) (ctx : Nat) (asid : Option Nat) : Perf :=
  let input := s.homeInput who.cluster a.block
  let join (entry : Bool) : Perf :=
    .waits { s with waits := s.waits ++ [{ who := who, acc := a, ctx := ctx, entry := entry, asid := asid, input := input, born := s.cycle }] }
  if s.inputBlocked a.block input then .busy
  else
    match s.homeAct a with
    | .done s' o => if a.ret && s.entryAwaited a.block s.waits then join true else .done (s'.afterAccess a) o
    | .wait => join false
    | .noEntry => join true
    | .busy => .busy
    | .bad c u => .bad c u

/-- Bytes stored at a home address at NEXT, block by block, for the Dean and the engines (R220): none when a store
fails. -/
def State.storeBytes (s : State) (tenant h : Nat) : Nat → List Byte → Option State
  | 0, _ => some s
  | fuel + 1, bs =>
    if bs.isEmpty then some s
    else
      match s.keyFor tenant h with
      | none => none
      | some key =>
        let n := min bs.length (64 - h % 64)
        let a : Access := { block := h / 64, op := .store ((bs.take n).zipIdx.map fun p => (h % 64 + p.2, p.1)),
                            mode := .next, key := key, tenant := tenant, moved := n }
        match s.actNow a with
        | .done s' _ => (s'.afterAccess a).storeBytes tenant (h + n) fuel (bs.drop n)
        | _ => none

/-- Bytes loaded at ANY from a home address, with the state after them: none when a load fails. -/
def State.loadBytes (s : State) (tenant h : Nat) : Nat → Nat → Option (List Byte × State)
  | 0, _ => some ([], s)
  | fuel + 1, n =>
    if n = 0 then some ([], s)
    else
      match s.keyFor tenant h with
      | none => none
      | some key =>
        let k := min n (64 - h % 64)
        let a : Access := { block := h / 64, op := .load, key := key, tenant := tenant, moved := k }
        match s.actNow a with
        | .done s' o =>
          match s'.loadBytes tenant (h + k) fuel (n - k) with
          | some (bs, s'') => some (slice o.bytes (h % 64) k ++ bs, s'')
          | none => none
        | _ => none

/-- Fuel for an access of n bytes: its blocks. -/
def blocksFor (n : Nat) : Nat := n / 64 + 2

/-- Bytes stored at a virtual address by the Dean under an ASID, at NEXT (R313). -/
def State.storeVirtual (s : State) (asid tenant va : Nat) (priv : Bool) (bs : List Byte) : Option State :=
  match s.translateNow asid tenant va .write priv false with
  | .home h => s.storeBytes (s.actingTenant tenant asid) h (blocksFor bs.length) bs
  | _ => none

/-- Bytes loaded from a virtual address by the Dean under an ASID. -/
def State.loadVirtual (s : State) (asid tenant va : Nat) (priv : Bool) (n : Nat) : Option (List Byte × State) :=
  match s.translateNow asid tenant va .read priv false with
  | .home h => s.loadBytes (s.actingTenant tenant asid) h (blocksFor n) n
  | _ => none

end Sys2Proof.Machine
end

