-- ==== Sys2Proof/Machine/Ops.lean ====
section
/-! DEFINITION. The machine's shared operations: fault records and FAULT tokens (R312 to R314), taking a trap and
returning from one (R279, R289), tasks that end (R276), targets and emission (R34, R35, R302), the census and the entry
into RETIRING (R22). -/

namespace Sys2Proof.Machine

/-! ## Fault records (R312, R313) -/

/-- The 64 bytes of a fault record (R312). -/
def FaultRec.bytes (r : FaultRec) : List Byte :=
  toBytes 1 r.cause ++ toBytes 1 r.sub ++ toBytes 2 r.ctx ++ toBytes 2 r.tenant ++ toBytes 1 r.source ++
  toBytes 1 r.unit ++ toBytes 1 r.x ++ toBytes 1 r.y ++ toBytes 1 (if r.abort then 1 else 0) ++ toBytes 1 0 ++
  toBytes 4 r.itag ++ toBytes 8 r.address ++ toBytes 8 r.version ++ toBytes 8 r.cycle ++ toBytes 4 r.count ++
  toBytes 4 r.seq ++ toBytes 16 0

/-- A record in the Dean's own fault area, in its private memory: record n at block 1 + (n mod 39) (R307, R313). -/
def State.deanFault (s : State) (r : FaultRec) : State × Nat :=
  let n := s.dean.faultN
  (s.setDean { s.dean with faults := assocSet s.dean.faults (1 + n % 39) { r with cycle := s.cycle, seq := n }
                           faultN := (n + 1) % 2 ^ 32 }, n)

/-- The 4 KiB of the Dean's own fault area: the count of records in block 0, and the records that stand (R313). -/
def Dean.faultArea (d : Dean) : List Byte :=
  toBytes 4 d.faultN ++ List.replicate 60 0 ++ (List.range 63).flatMap fun i =>
    if assocHas d.faults (i + 1) then (assocGet {} d.faults (i + 1)).bytes else List.replicate 64 0

/-- The virtual address of a context's fault area (R313): none when its queue has no fault area. -/
def State.faultArea (s : State) (c : Nat) : Option Nat :=
  let x := s.ctx c
  if x.fbase = 0 then none else some (x.fbase + 4096 * c)

/-- A write of one block of a fault area, then of block 0 with a count raised (R313): the block's home address and new
state. `at_` is 0 for the record count and 4 for the probe count; `mk` makes the stored bytes and their block index. -/
def State.areaStore (s : State) (c at_ : Nat) (mk : Nat → List Byte × Nat) : Option (Nat × State × Nat) :=
  match s.faultArea c with
  | none => none
  | some va =>
    let x := s.ctx c
    match s.loadVirtual x.asid x.tenant va true 64 with
    | none => none
    | some (b0, s1) =>
      let n := field b0 at_ 4
      let (bs, i) := mk n
      match s1.translateNow x.asid x.tenant (va + 64 * i) .write true false with
      | .home h =>
        match s1.storeVirtual x.asid x.tenant (va + 64 * i) true bs with
        | none => none
        | some s2 =>
          match s2.storeVirtual x.asid x.tenant va true (patch b0 at_ (toBytes 4 ((n + 1) % 2 ^ 32))) with
          | none => none
          | some s3 => some (h, s3, n)
      | _ => none

/-- A fault's record written to its context's fault area (R312, R313): the state, the SEQ, and the record's home
address. A record with no fault area is dropped; one whose store fails is dropped with a FaultArea record of the Dean.
The SEQ of a dropped record is a free value (log entry 16). -/
def State.raise (s : State) (r : FaultRec) : State × Nat × Option Nat :=
  let c := r.ctx
  let r := { r with cycle := s.cycle }
  let dropped (s : State) : State × Nat × Option Nat :=
    let (w, s') := s.freshWord
    (s', w.toNat % 2 ^ 32, none)
  if c ≥ 4096 then dropped s
  else
    match s.faultArea c with
    | none => dropped s
    | some _ =>
      match s.areaStore c 0 (fun n => (({ r with seq := n } : FaultRec).bytes, 1 + n % 39)) with
      | some (h, s', n) => (s'.updCtx c fun x => { x with faults := x.faults + 1 }, n, some h)
      | none => dropped (s.deanFault { cause := 0x07, sub := 0x0D, ctx := c, tenant := (s.ctx c).tenant, source := 8 }).1

/-- Whether a record for a context can be stored in its fault area (R211, R292, R313). -/
def State.recordable (s : State) (c : Nat) : Bool := c < 4096 && (s.areaStore c 0 fun n => (List.replicate 64 0, 1 + n % 39)).isSome

/-- The record of a fault at a tile's slot (R312). -/
def State.slotRecord (s : State) (t slot ctx itag cause sub : Nat) (address version count : Nat) : FaultRec :=
  { cause := cause, sub := sub, ctx := ctx, tenant := (s.ctx ctx).tenant, source := 0, unit := slot, x := tileX t,
    y := tileY t, itag := itag, address := address, version := version, count := count }

/-- A FAULT token (R314). -/
def faultToken (fmt : Fmt) (ctx : Nat) (itag : BitVec 32) (len cause sub : Nat) (abort : Bool) (count seq : Nat) : Token :=
  { act := .fault, fmt := fmt, len := len, ctx := ctx, itag := itag, mask := fullMask len,
    data := [BitVec.ofNat 64 (count * 2 ^ 32 + (if abort then 2 ^ 16 else 0) + sub * 256 + cause), BitVec.ofNat 64 seq] }

/-! ## Tasks: starting, ending, trapping (R276, R279) -/

/-- The context a task's faults are recorded against: 0xFFFF for none (R312). -/
def Task.faultCtx (t : Task) : Nat := if t.ctx = 0xFFF then 0xFFFF else t.ctx

/-- The first FREE task context of a core. -/
def Core.freeTask (k : Core) : Option Nat :=
  (List.range 8).find? fun i => (assocGet {} k.tasks i).st = .free

/-- A task that SPAWN starts (R276, R286). -/
def Task.child (parent : Task) (pc arg : Word) (image : Option (Nat × Nat × Nat)) : Task :=
  { st := .runnable, regs := (List.replicate 32 (0 : Word)).set 1 arg, pc := pc, tenant := parent.tenant,
    ctx := parent.ctx, priv := parent.priv, asid := parent.asid, image := image, spawned := true }

/-- The task record of a region whose code section contains a pc of the code window: image, section bounds (R310). -/
def State.sectionOf (s : State) (image : Nat) (pc : Nat) : Option (Nat × Nat × Nat) :=
  match s.regionOf image with
  | none => none
  | some r =>
    let off := pc % 2 ^ 32
    if !inCode pc || 2 ^ 56 ≤ pc then none
    else
      (((List.range (field r.bytes 0x1B 1)).map fun i =>
        let a := field r.bytes 0x94 4 + 16 * i
        (image, field r.bytes (a + 4) 4, field r.bytes (a + 8) 4)).find? fun z => z.2.1 ≤ off && off < z.2.1 + z.2.2)

/-- A SPAWN performed in a FREE context: the child starts, the parent's gD takes its TASK (R286). -/
def State.startChild (s : State) (c : Nat) (q : SpawnReq) (k : Nat) : State :=
  let p := s.task c q.task
  let img := match p.image with
    | some (i, _, _) => s.sectionOf i q.pc.toNat
    | none => none
  -- a start pc of the code window in no section keeps the image with an empty section, so that its fetch faults
  let img := if img = none then p.image.map fun z => (z.1, 0, 0) else img
  let s := s.setTask c k (Task.child p q.pc q.arg img)
  s.setTask c q.task { (p.setReg (BitVec.ofNat 5 q.reg) (BitVec.ofNat 64 k)).retire with st := .runnable }

/-- An image task started in a FREE context of its cluster's core (R276): BLOCKED until its image is laid out (R310), with
the VCs of its record that no task holds. -/
def State.startImage (s : State) (c : Nat) (r : Region) (n k : Nat) : State :=
  let core := (s.cluster c).core
  let at_ := field r.bytes 0x94 4 + 16 * n
  let code := field r.bytes (at_ + 4) 4
  let g := Config.taskGrants r.image n
  let t : Task :=
    { st := if r.laid then .runnable else .blocked .layout, pc := BitVec.ofNat 64 (0x00FFFFFE00000000 + code), tenant := r.tenant,
      asid := r.asid, priv := r.priv, cfg := g.getLsbD 0, map := g.getLsbD 1,
      image := some (r.image, code, field r.bytes (at_ + 8) 4) }
  let mask := field r.bytes (at_ + 2) 2
  let vcs := ((List.range 16).filter (bit mask)).foldl (fun (v : Assoc Vc) i =>
    let x := assocGet ({} : Vc) v i
    if x.bound = none then assocSet v i { x with bound := some k } else v) core.vcs
  (s.setCore c { core with vcs := vcs }).setTask c k t

/-- A core's FREE task context, if there is one, goes to its oldest waiting SPAWN, and where none waits to its oldest
waiting image task (R15, R276; log entry 96). -/
def State.grantContext (s : State) (c : Nat) : State :=
  let core := (s.cluster c).core
  match core.freeTask, core.spawnWait, core.imageWait with
  | some k, q :: rest, _ => (s.setCore c { core with spawnWait := rest }).startChild c q k
  | some k, [], q :: rest =>
    let s := s.setCore c { core with imageWait := rest }
    match s.dean.regions.find? fun r => r.x0 = q.x0 && r.y0 = q.y0 with
    | some r => s.startImage c r q.n k
    | none => s
  | _, _, _ => s

/-- Whether a session is that of a task in its core (R74). -/
def Session.ofTask (x : Session) (c k : Nat) : Bool := x.cluster = c && x.task = k && x.saved = none

/-- The reserved tiles of a session FREE again. -/
def State.freeSession (s : State) (x : Session) : State :=
  let rect := (List.range x.h).flatMap fun j => (List.range x.w).map fun i => tileOf (x.x0 + i) (x.y0 + j)
  rect.foldl (fun (z : State) t =>
    if z.fused t then z else z.updTile t fun y => if y.status = .reserved then { y with status := .free } else y) s

/-- The sessions of some owner ended as CFGRB ends one (R74, R81): staged blocks discarded, the rectangle's tiles FREE. -/
def State.endSessions (s : State) (of : Session → Bool) : State :=
  let s := (s.dean.sessions.filter of).foldl State.freeSession s
  s.setDean { s.dean with sessions := s.dean.sessions.filter fun y => !of y }

/-- A task's session ended (R74). -/
def State.rollback (s : State) (c k : Nat) : State := s.endSessions fun x => x.ofTask c k

/-- An engine command's source once a task has ended: its completion is discarded (R276, R277). -/
def CmdSource.forget (c k : Nat) (x : CmdSource) : CmdSource :=
  match x with
  | .task d j _ => if d = c && j = k then .task d j 0 else x
  | x => x

/-- A command's source once the saved task of a context that it completes for is gone. -/
def CmdSource.forgetSaved (c : Nat) (x : CmdSource) : CmdSource :=
  match x with
  | .saved d x y k reg => .saved d x y k (if d = c then 0 else reg)
  | x => x

/-- Whether a task issued a command. -/
def CmdSource.byTask (x : CmdSource) : Bool :=
  match x with
  | .task _ _ _ => true
  | .saved _ _ _ _ _ => true
  | _ => false

/-- Commands with their sources changed. -/
def StreamCmd.mapSrc (f : CmdSource → CmdSource) (q : StreamCmd) : StreamCmd := { q with src := f q.src }
def ArrayCmd.mapSrc (f : CmdSource → CmdSource) (q : ArrayCmd) : ArrayCmd := { q with src := f q.src }
def RegCmd.mapSrc (f : CmdSource → CmdSource) (q : RegCmd) : RegCmd := { q with src := f q.src }
def Agn.mapSrc (f : CmdSource → CmdSource) (g : Agn) : Agn := { g with cmd := g.cmd.mapSrc f }
def Template.mapSrc (f : CmdSource → CmdSource) (t : Template) : Template :=
  { t with cmd := t.cmd.mapSrc f, unbind := t.unbind.map f }
def Auction.mapSrc (f : CmdSource → CmdSource) (a : Auction) : Auction :=
  { a with cmd := a.cmd.mapSrc f, opened := a.opened.mapSrc f }

/-- A cluster's engines with the sources of their commands changed. -/
def Cluster.mapSrc (f : CmdSource → CmdSource) (x : Cluster) : Cluster :=
  let st := x.streamer
  { x with
    streamer := { st with queue := st.queue.map (StreamCmd.mapSrc f), agns := st.agns.map fun a => (a.1, a.2.mapSrc f),
                          templates := st.templates.map fun t => (t.1, t.2.mapSrc f) },
    array := { x.array with queue := x.array.queue.map (ArrayCmd.mapSrc f) },
    registrar := { x.registrar with queue := x.registrar.queue.map (RegCmd.mapSrc f), stops := x.registrar.stops.map (RegCmd.mapSrc f),
                                    auction := x.registrar.auction.map (Auction.mapSrc f) } }

/-- A save record with the sources of its commands changed. -/
def SaveRec.mapSrc (f : CmdSource → CmdSource) (r : SaveRec) : SaveRec :=
  match r with
  | .array x y q => .array x y (q.map (ArrayCmd.mapSrc f))
  | .stream x y q a t c =>
    .stream x y (q.map (StreamCmd.mapSrc f)) (a.map fun g => (g.1, g.2.mapSrc f)) (t.map fun g => (g.1, g.2.mapSrc f)) c
  | .registrar x y st eps q a => .registrar x y st eps (q.map (RegCmd.mapSrc f)) (a.map (Auction.mapSrc f))
  | r => r

/-- Every command of the machine, saved ones too, with its source changed. -/
def State.mapSrc (s : State) (f : CmdSource → CmdSource) : State :=
  { s with clusters := s.clusters.map fun p => (p.1, p.2.mapSrc f)
           dean := { s.dean with saves := s.dean.saves.map fun p => (p.1, p.2.map (SaveRec.mapSrc f)) } }

/-- A task ends (R276): bindings dropped, pending completions discarded, its session rolled back, its context FREE and
granted to the oldest that waits for one. -/
def State.endTask (s : State) (c k : Nat) : State :=
  let s := s.rollback c k
  let s := s.mapSrc (CmdSource.forget c k)
  let core := (s.cluster c).core
  let vcs := core.vcs.map fun v => (v.1, if v.2.bound = some k then { v.2 with bound := none } else v.2)
  let core : Core :=
    { core with vcs := vcs, tasks := assocSet core.tasks k {}, running := if core.running = some k then none else core.running,
                spawnWait := core.spawnWait.filter fun q => q.task ≠ k }
  let s := s.setCore c core
  let s : State :=
    { s with waits := s.waits.filter fun w => w.who ≠ .task c k
             misses := s.misses.filter fun w => w.who ≠ .taskData c k && w.who ≠ .taskFetch c k
             walks := s.walks.filter fun w => w.who ≠ .taskData c k && w.who ≠ .taskFetch c k }
  s.grantContext c

/-- Taking a trap (R279): the record is written, then the handler is entered, or the task ends. `bad` is the data
address or 0, `ret` the pc the handler returns to. -/
def State.trap (s : State) (c k cause sub : Nat) (address bad : Nat) (ret : Word) (version : Nat) : State :=
  let t := s.task c k
  let t0 := tileIn c 0
  let (s, _, _) := s.raise { cause := cause, sub := sub, ctx := t.faultCtx, tenant := t.tenant, source := 2, unit := k,
                             x := tileX t0, y := tileY t0, address := address, version := version }
  let t := s.task c k
  if !t.inh && t.tvec ≠ 0 then
    s.setTask c k { t with ranged := [], st := if t.st = .running then t.st else .runnable, epc := ret, cause := BitVec.ofNat 64 (cause * 256 + sub),
                           badaddr := BitVec.ofNat 64 bad, inh := true, pc := t.tvec, line := none }
  else s.endTask c k

/-- Returning from a trap (R289): pc := EPC, INH := 0, and the fetch line is discarded (R290). -/
def Task.eret (t : Task) : Task := { t with pc := t.epc, inh := false, line := none, instret := t.instret + 1 }

/-! ## The census (R22) -/

/-- Whether an operand of a pairing is a counted token of the match store. -/
def Operand.counts : Operand → Nat
  | .run _ => 1
  | _ => 0

/-- Whether a use of an entry counts in the census (R22). -/
def EntryUse.counts : EntryUse → Bool
  | .waiting => true
  | .trigger => true
  | .early => true
  | _ => false

/-- Tokens of a context in a tile that the census counts. -/
def Tile.census (x : Tile) (c : Nat) : Nat :=
  (x.entries.filter fun e => e.tok.ctx = c && e.use.counts).length +
  (x.pairings.foldl (fun n p => if p.ctx = c then n + p.l.counts + p.r.counts else n) 0) +
  (x.port.filter fun p => p.ctx = c).length +
  (x.recalls.filter fun r => r.1.ctx = c).length

/-- Whether a tile has saved a context (R319). -/
def Tile.savedFor (x : Tile) (c : Nat) : Bool := x.bells.any fun b => b.ctx = c && b.saved

/-- The tokens of a save record that the census counts while its context is not yet SAVED: what its tile still counts in its
stores is counted here instead (R22, R319). -/
def SaveRec.census : SaveRec → Nat
  | .entry _ _ e => if e.use.counts then 1 else 0
  | .pairing _ _ p => p.l.counts + p.r.counts
  | .channel _ _ _ t => if t.act.counted then 1 else 0
  | .mem _ _ _ => 1
  | _ => 0

/-- The commands of a save record that the engine-command count holds while its context is not yet SAVED (R22, R171). -/
def SaveRec.engines : SaveRec → Nat
  | .conv _ _ q b => q.length + ((b.flatMap fun y => y.inputs).dedup).length
  | _ => 0

/-- Whether a packet counts in its context's census: a counted token, or the operand of a firing whose pool operation is
on its way; an allocation's is its trigger entry (R22). -/
def Packet.counted (p : Packet) : Bool :=
  match p.cargo with
  | .token => p.tok.act.counted
  | .op o => o.emits && o.act ≠ .alloc && o.act ≠ .ticket
  | .grant _ => false

/-- Whether a wait for a tag is a firing of a context. -/
def NewWait.of? (w : NewWait) (c : Nat) : Bool :=
  match w with
  | .firing _ p => p.ctx = c
  | .launch _ _ => false

/-- The live-token census of a context (R22; log entry 10). -/
def State.census (s : State) (c : Nat) : Nat :=
  (s.net.filter fun p => p.tok.ctx = c && p.counted).length +
  (s.tiles.foldl (fun n p => if p.2.savedFor c then n else n + p.2.census c) 0) +
  ((assocGet [] s.dean.saves c).foldl (fun n r => n + r.census) 0) +
  (s.clusters.foldl (fun n p =>
    n + (p.2.core.vcs.foldl (fun m v => m + (v.2.queue.filter fun t => t.ctx = c && t.act.counted).length) 0) +
    (p.2.array.gives.filter fun o => o.ctx = c).length) 0) +
  (s.dean.newWaits.filter fun w => w.of? c).length +
  (s.dean.afters.filter fun w => w.2.2.ctx = c).length +
  (s.dean.bellWaits.filter fun w => w.2.2.ctx = c).length +
  (s.dean.scrubs.filter fun x => match x.src with
    | some (_, p, _) => p.ctx = c
    | none => false).length

/-- The engine-command count of a context (R22). An auction that a bell has stopped counts until its context is SAVED. -/
def State.engines (s : State) (c : Nat) : Nat :=
  (s.clusters.foldl (fun n p =>
    n + (p.2.streamer.queue.filter fun q => q.ctx = c).length +
    (p.2.streamer.agns.filter fun a => a.2.cmd.ctx = c).length +
    (p.2.streamer.templates.foldl (fun m t => if t.2.cmd.ctx = c then m + t.2.unbind.length else m) 0) +
    (p.2.array.queue.filter fun q => q.ctx = c).length +
    (p.2.registrar.queue.filter fun q => q.ctx = c).length +
    (p.2.registrar.stops.filter fun q => q.ctx = c).length +
    (match p.2.registrar.auction with
      | some a => if a.cmd.ctx = c && (p.2.registrar.state = .running || a.belled) then 1 else 0
      | none => 0)) 0) +
  (s.tiles.foldl (fun n p => n + (p.2.convQ.filter fun q => q.ctx = c).length +
    (((p.2.rebufs.filter fun b => b.ctx = c).flatMap fun b => b.inputs).dedup).length) 0) +
  (assocGet [] s.dean.saves c).foldl (fun n r => n + r.engines) 0

/-- Whether a context enters RETIRING (R22). -/
def State.quiet (s : State) (c : Nat) : Bool :=
  let x := s.ctx c
  x.st = .live && !x.hold && s.census c = 0 && s.engines c = 0

/-! ## Regions -/

/-- The first region of an IMAGEID in a list changed. -/
def updFirst (image : Nat) (f : Region → Region) : List Region → List Region
  | [] => []
  | r :: rs => if r.image = image then f r :: rs else r :: updFirst image f rs

/-- The region of an IMAGEID changed: the one that `State.regionOf` gives (log entry 97). -/
def State.updRegion (s : State) (image : Nat) (f : Region → Region) : State :=
  s.setDean { s.dean with regions := updFirst image f s.dean.regions }

/-- The clusters whose t0 lies in a region. -/
def State.bankClusters (s : State) (r : Region) : List Nat :=
  (s.regionClusters r).filter fun c => r.x0 ≤ tileX (tileIn c 0) && r.y0 ≤ tileY (tileIn c 0)

/-- Whether no context may be started in a region (R301 step 1): it is to go, or a BANKS command drains its banks. -/
def State.shut (s : State) (r : Region) : Bool :=
  r.leaving || r.moving ||
  (match s.dean.doing with
   | .draining c => (s.bankClusters r).contains c
   | _ => false)

/-! ## What a launch queue holds (R293, R294) -/

/-- A launch header (R293): a NORMAL RAW token of LEN 4 with every element present, addressed to nothing. -/
def launchHeader (t : Token) : Bool :=
  t.act = .normal && t.fmt = 31 && t.len = 4 && t.mask = 15 && t.ctx = 0 && t.cluster = 0 && t.tile = 0 && t.slot = 0 &&
  t.port = 0 && t.elem 3 = 0

/-- The NTOK of the image that should be a launch header; 0 where it is none. -/
def ntokOf (bs : List Byte) : Nat :=
  match tokenOfImage bs with
  | some t => if launchHeader t then t.elem 1 else 0
  | none => 0

/-- The images of a queue's head launch stream, once it is complete (R293, R294). -/
def Queue.headStream (q : Queue) : Option (List (List Byte)) :=
  match q.images with
  | [] => none
  | h :: rest => if rest.length < ntokOf h then none else some (q.images.take (1 + ntokOf h))

/-- Whether a queue holds a launch, or a restore (R294, R322). -/
def Queue.waiting (q : Queue) : Bool := q.headStream.isSome || !q.launches.isEmpty || !q.restore.isEmpty

/-- Serial order of pass values (R294). -/
def serialLt (a b : BitVec 32) : Bool := 2 ^ 31 ≤ (a - b).toNat

/-- A queue that becomes eligible after holding nothing takes the virtual time where that is higher (R294). -/
def State.queueGain (s : State) (q : Nat) (before : Queue) : State :=
  let x := s.queue q
  if !before.waiting && x.waiting && serialLt x.pass s.dean.vtime then s.setQueue q { x with pass := s.dean.vtime } else s

/-! ## Targets and emission (R34, R35, R302) -/

/-- The targets of a slot in list order with their index in the edge: 0 T0, 1 T1, 2 and up fanout entries (R31). -/
def State.targets (s : State) (t : Nat) (nt : BitVec 2) (t1 t0 : BitVec 18) : List (Nat × BitVec 18) :=
  match nt.toNat with
  | 0 => []
  | 1 => [(0, t0)]
  | 2 => [(0, t0), (1, t1)]
  | _ => ((s.blockOf t).fans.getD t1.toNat []).zipIdx.map fun p => (p.2 + 2, p.1)

/-- The rectangle of a stage's replica k on the die, and its width (R46). -/
def Region.replica (r : Region) (g : Stage) (k : Nat) : Nat × Nat × Nat × Nat :=
  let w := g.x1 - g.x0 + 1
  (r.x0 + g.x0 + k * w, r.y0 + g.y0, r.x0 + g.x1 + k * w, r.y0 + g.y1)

def inRect (q : Nat × Nat × Nat × Nat) (t : Nat) : Bool :=
  q.1 ≤ tileX t && tileX t ≤ q.2.2.1 && q.2.1 ≤ tileY t && tileY t ≤ q.2.2.2

/-- The wait-list depth of a replica's input pool (R46, R118). -/
def State.poolDepth (s : State) (r : Region) (g : Stage) (k : Nat) : Nat :=
  let q := r.replica g k
  let t := tileOf q.1 q.2.1
  if g.inpool = 7 && localOf t = 15 then (s.cluster (clusterOf t)).array.pool.wait.length
  else (((s.tile t).pools.getD g.inpool {}).wait).length

/-- The index of a least element, the first of equals. -/
def leastIndex : List Nat → Nat
  | [] => 0
  | [_] => 0
  | a :: b :: t => let i := leastIndex (b :: t); if a ≤ (b :: t).getD i 0 then 0 else i + 1

/-- A destination redirected to the replica bound to the context, which the first such token binds (R302). -/
def State.redirect (s : State) (c src dst : Nat) : State × Nat :=
  match s.regionAt src with
  | none => (s, dst)
  | some r =>
    match r.stages.zipIdx.find? fun p =>
        inRect (r.replica p.1 0) dst && !((List.range p.1.nrep).any fun k => inRect (r.replica p.1 k) src) with
    | none => (s, dst)
    | some (g, i) =>
      let w := g.x1 - g.x0 + 1
      match (s.ctx c).binds.find? fun b => b.1 = i with
      | some b => (s, dst + b.2 * w)
      | none =>
        let k := leastIndex ((List.range g.active).map fun k => s.poolDepth r g k)
        (s.updCtx c fun x => { x with binds := x.binds ++ [(i, k)] }, dst + k * w)

/-- The destination of a target from a tile (R34), with its slot and port; none where R35 raises Route. -/
def State.resolve (s : State) (t : Nat) (g : BitVec 18) : Option (Dest × Nat × Nat) :=
  let n := g.toNat
  let ix := bits n 5 1
  if n / 4096 = 32 then
    match bits n 11 9 with
    | 0 => some (.vc (clusterOf t) ix, 0, 0)
    | 1 => some (.trig (clusterOf t) ix, 0, 0)
    | 2 => some (.egress ix, 0, 0)
    | 3 => some (.dean ix, 0, 0)
    | _ => none
  else
    let x := (tileX t : Int) + sval 6 (n / 4096)
    let y := (tileY t : Int) + sval 6 (n / 64)
    if x < 0 || 128 ≤ x || y < 0 || 64 ≤ y then none
    else
      let d := tileOf x.toNat y.toNat
      match s.regionAt t with
      | none => none
      | some r => if r.holds d && !s.fused d then some (.tile d, ix, n % 2) else none

/-- The cycle in which what tile `t` sends now stands in its output queue: for its firing, the cycle after the last one
that the firing holds the datapath for (R143). -/
def State.sentAt (s : State) (t : Nat) : Nat :=
  match s.focus with
  | .firing d _ => if d = t then (s.tile t).lastRound + 1 else s.cycle
  | _ => s.cycle

/-- A packet put into a tile's output queue. -/
def State.sendFrom (s : State) (t : Nat) (p : Packet) : State :=
  { s with net := s.net ++ [{ p with place := .outq t, sent := s.sentAt t, since := s.sentAt t }] }

/-- A token put on its way from a tile (R105, R302). -/
def State.post (s : State) (t : Nat) (e : Edge) (tok : Token) (d : Dest × Nat × Nat) : State :=
  match d.1 with
  | .tile dst =>
    let (s, dst) := s.redirect tok.ctx t dst
    s.sendFrom t { tok := tok.sendTo dst d.2.1 d.2.2, edge := e, dest := .tile dst }
  | x => s.sendFrom t { tok := tok, edge := e, dest := x }

/-- One token of a firing for one target. -/
structure Out where
  ix  : Nat
  tgt : BitVec 18
  tok : Token
  deriving DecidableEq, Repr

/-- Tokens posted to their targets in order. -/
def State.postAll (s : State) (t slot : Nat) : List Out → State
  | [] => s
  | o :: os =>
    match s.resolve t o.tgt with
    | none => s.postAll t slot os
    | some d => (s.post t { tile := t, slot := slot, ix := o.ix } o.tok d).postAll t slot os

/-- A token as it leaves a slot: a run longer than the LEN limit of its format (R17, R19) leaves in two, in tag order (log
entry 82). -/
def Token.fitted (t : Token) : List Token :=
  let run (x : Token) : Token := if x.act = .normal && x.mask = 0 then { x with act := .empty, data := [] } else x
  if fmtBytes t.fmt.toNat = 8 && 16 < t.len then [run (t.piece t.lo (t.lo + 16)), run (t.piece (t.lo + 16) t.hi)] else [t]

/-- What a firing sends to its targets, each run within its LEN limit. -/
def fitted (outs : List Out) : List Out := outs.flatMap fun o => o.tok.fitted.map fun x => { o with tok := x }

/-- A firing's emission (R35): where a target is bad, one Route record, nothing to that target, and a FAULT token to
every other target in place of its token. -/
def State.emit (s : State) (t slot ctx itag : Nat) (outs : List Out) : State :=
  if outs.all fun o => (s.resolve t o.tgt).isSome then s.postAll t slot (fitted outs)
  else
    let (s, seq, _) := s.raise (s.slotRecord t slot ctx itag 0x09 0x00 0 0 0)
    s.postAll t slot ((fitted outs).map fun o =>
      { o with tok := faultToken o.tok.fmt ctx o.tok.itag o.tok.len 0x09 0x00 false 0 seq })

/-- The same token to every target of a slot. -/
def toAll (ts : List (Nat × BitVec 18)) (tok : Token) : List Out := ts.map fun g => { ix := g.1, tgt := g.2, tok := tok }

/-- A fault at a slot (R312 to R314): one record, and a FAULT token over the given tags to each target. -/
def State.slotFault (s : State) (t slot ctx : Nat) (ts : List (Nat × BitVec 18)) (fmt : Fmt) (itag : BitVec 32) (len : Nat)
    (lowest cause sub address version count : Nat) : State :=
  let (s, seq, _) := s.raise (s.slotRecord t slot ctx lowest cause sub address version count)
  s.emit t slot ctx lowest (toAll ts (faultToken fmt ctx itag len cause sub false count seq))

/-- A token put into the fabric by a unit that is no tile (R191, R287, R306): it waits outside the router of cluster `c`
until its local port has room (R329). -/
def State.inject (s : State) (c : Nat) (tok : Token) (e : Edge) (d : Dest) : State :=
  { s with net := s.net ++ [{ tok := tok, edge := e, dest := d, place := .source c, sent := s.cycle, since := s.cycle }] }

/-- A token that failed its check counted against its context (R20). -/
def State.countBad (s : State) (c : Nat) : State :=
  if (s.ctx c).st ≠ .free then s.updCtx c fun x => { x with abort := x.abort + 1 } else s

/-- Freezing a context (R21): Collision, Hang and BellProtocol freeze with `fault`, HALT with `halt`. -/
def State.freeze (s : State) (c : Nat) (why : FreezeWhy) : State :=
  if (s.ctx c).st = .live then s.updCtx c fun x => { x with st := .frozen, why := why } else s

/-- A region frozen: every LIVE context of its image (R21). -/
def State.freezeImage (s : State) (image : Nat) : State :=
  s.dean.ctxs.foldl (fun (z : State) p => if (z.ctx p.1).image = image then z.freeze p.1 .fault else z) s

/-- A Collision at a tile freezes its region (R21, R29, R101). -/
def State.freezeRegion (s : State) (t : Nat) : State :=
  match s.regionAt t with
  | none => s
  | some r => s.freezeImage r.image

/-- Tasks that wait in a BELL on a context take its result (R325), and a PREEMPT of the host is decided: OK when the
context is SAVED, else State (R352). -/
def State.bellResult (s : State) (c v : Nat) : State :=
  let s := if s.dean.doing = .bell c then s.setDean { s.dean with doing := .decided (if v = 0 then 0 else 2) 0 } else s
  s.clusters.foldl (fun (z : State) p => p.2.core.tasks.foldl (fun (y : State) q =>
    match q.2.st with
    | .blocked (.bell x reg) =>
      if x = c then y.updTask p.1 q.1 fun t => ((t.setReg (BitVec.ofNat 5 reg) (BitVec.ofNat 64 v)).retire).ready else y
    | _ => y) z) s

/-- Parked tasks of a context go on (R320). -/
def State.unpark (s : State) (c : Nat) : State :=
  s.clusters.foldl (fun (z : State) p => p.2.core.tasks.foldl (fun (y : State) q =>
    if q.2.ctx = c && q.2.st = .blocked .parked then y.updTask p.1 q.1 Task.ready else y) z) s

/-- A context's bell given up, with the BELL tokens that are still on their way. -/
def State.bellOver (s : State) (c : Nat) : State :=
  let s : State := { s with net := s.net.filter fun p => !(p.tok.ctx = c && p.tok.act = .bell) }
  ((s.updCtx c fun x => { x with bell := none, fromBellin := false }).unpark c).bellResult c 3

/-- Every LIVE context whose census and engine-command count are zero, with its hold clear, enters RETIRING (R22), its bell
given up if one is ringing. -/
def State.settle (s : State) : State :=
  s.dean.ctxs.foldl (fun (z : State) p =>
    if z.quiet p.1 then
      let z := if (z.ctx p.1).bell.isSome then z.bellOver p.1 else z
      z.setCtx p.1 { z.ctx p.1 with st := .retiring, tRet := z.cycle }
    else z) s

/-- The Proctor's counter of a context's region restarts (R316). -/
def State.progressed (s : State) (c : Nat) : State :=
  s.updRegion (s.ctx c).image fun r => { r with progress := s.cycle }

end Sys2Proof.Machine
end

