-- ==== Sys2Proof/Machine/Select.lean ====
section
/-! DEFINITION. Who runs next: a tile's selection round (R24, R25, R230), a control core's task and its instruction fetch
(R275, R277, R290), the Dean's next host command (R351, R352), and the agenda's next turn (log entry 1). -/

namespace Sys2Proof.Machine

/-! ## Tiles -/

/-- The value a pairing's operand has now; none for a sticky that is not there (R24, R94). -/
def Tile.operand (x : Tile) : Operand → Option Token
  | .none => some {}
  | .run t => some t
  | .held t => some t
  | .stick id => (x.entries.find? fun e => e.id = id && e.use = .sticky).map fun e => e.tok

/-- The opcode of a slot word. -/
def opcodeOf (w : Word) : Nat := w.toNat / 2 ^ 56

/-- The opcode a tile holds in a slot (0, a SINK, where the block has none). -/
def State.slotOp (s : State) (t slot : Nat) : Nat := opcodeOf ((s.blockOf t).slots.getD slot 0)

/-- The distinct 64-byte blocks of an address run's present elements, ascending by lowest element (R226). -/
def addressBlocks (l : Token) : List Nat := ((l.present.map fun i => l.elem i / 64).reverse.dedup).reverse

/-- How many groups a memory pairing makes (R226 to R228): one for each block of the elements present on every port used, at
most one for LDB and STB, and none for FENCE or a pairing that only passes a fault on. -/
def groupsNeeded (op : Nat) (l : Token) (r : Option Token) : Nat :=
  if op = 0x85 || l.fmt ≠ 30 || l.act = .fault || r.any (fun z => z.act = .fault) then 0
  else
    let mask := if op = 0x88 then l.mask else l.mask &&& (r.map fun z => z.mask).getD l.mask
    let n := (addressBlocks { l with mask := mask }).length
    if op = 0x87 || op = 0x88 then min n 1 else n

/-- Whether the unit that a slot's instruction needs has room for a pairing (R24, R163, R176, R187, R230, R250): at a tile
port, for its groups beside the 32 in flight at most; MMSTAT needs room as every matrix pairing does. -/
def State.hasRoom (s : State) (t op : Nat) (l : Token) (r : Option Token) : Bool :=
  let c := clusterOf t
  let x := s.tile t
  if 0x80 ≤ op && op ≤ 0x8F then
    x.stall = .none &&
    (x.port.foldl (fun n p => n + (p.groups.filter Group.open_).length) 0 + groupsNeeded op l r ≤ 32)
  else if op = 0x90 || op = 0x93 || op = 0x94 then ((s.cluster c).streamer.queue).length < 16
  else if 0xA0 ≤ op && op ≤ 0xA5 then ((s.cluster c).array.queue).length < 8
  else if 0xB0 ≤ op && op ≤ 0xB4 then x.convQ.length < 4
  else if 0xB8 ≤ op && op ≤ 0xBC then ((s.cluster c).registrar.queue).length < 4
  else true

/-- Whether an accumulation register is there for a pairing of an accumulating RSUM (R159). -/
def State.accRoom (s : State) (t : Nat) (p : Pairing) : Bool :=
  let w := (s.blockOf t).slots.getD p.slot 0
  let accs := (s.tile t).accs
  !(opcodeOf w = 0x70 && w.getLsbD 43) || (accs.any fun a => a.ctx = p.ctx && a.slot = p.slot) ||
    accs.length < Config.accRegs

/-- The base tags of the output runs of n tags that tags [a, b) fall in (R168). -/
def outBases (n a b : Nat) : List Nat := ((tagsOf a b).map fun t => t / n * n).dedup

/-- A tile's re-block buffer of an output run. -/
def Tile.rebuf (x : Tile) (c slot base : Nat) : Option ReBuf :=
  x.rebufs.find? fun b => b.ctx = c && b.slot = slot && b.base = base

/-- The bits of tags [a, b) within the output run at `base` of n tags. -/
def coverMask (n base a b : Nat) : Nat :=
  ((tagsOf (max a base) (min b (base + n))).foldl (fun m t => m + 2 ^ (t - base)) 0)

/-- Whether an input covers what is left of an output run, so that its buffer is free again (R168). -/
def Tile.completes (x : Tile) (n slot : Nat) (a : Token) (base : Nat) : Bool :=
  let had := ((x.rebuf a.ctx slot base).map fun b => b.covered).getD 0
  had ||| BitVec.ofNat 32 (coverMask n base a.lo a.hi) = fullMask n

/-- The re-block buffers of a tile in use, by context, slot and output run (R168): those that hold something, and those
that the REBLK pairings already accepted will hold (log entry 130). `n` gives the run length of a slot. -/
def Tile.buffersUsed (x : Tile) (n : Nat → Nat) : List (Nat × Nat × Nat) :=
  ((x.rebufs.map fun b => (b.ctx, b.slot, b.base)) ++
    ((x.convQ.filter fun q => q.op = 0xB1 && q.l.act ≠ .fault).flatMap fun q =>
      ((outBases (n q.slot) q.l.lo q.l.hi).filter fun base => !x.completes (n q.slot) q.slot q.l base).map fun base =>
        (q.ctx, q.slot, base))).dedup

/-- The most buffers in use while an input's output runs are placed in turn, each whole one leaving at once (R168): the
number now in use, and the most so far. -/
def Tile.buffersPeak (x : Tile) (n slot : Nat) (a : Token) (used : List (Nat × Nat × Nat)) : List Nat → Nat × Nat → Nat
  | [], z => z.2
  | base :: rest, (now, peak) =>
    let now' := if used.contains (a.ctx, slot, base) then now else now + 1
    Tile.buffersPeak x n slot a used rest (if x.completes n slot a base then now' - 1 else now', max peak now')

/-- The n of a REBLK or QUNPL slot (R165); 0 where the slot holds neither. -/
def State.blockLen (s : State) (t slot : Nat) : Nat :=
  let w := (s.blockOf t).slots.getD slot 0
  match unpackSlot (opcodeOf w) w with
  | .e e => if opcodeOf w = 0xB1 || opcodeOf w = 0xB3 then s.konst t e.kidx.toNat % 64 else 0
  | _ => 0

/-- Whether an input of a REBLK slot finds its buffers among the 16 of its node (R163, R168). -/
def State.buffersFor (s : State) (t slot : Nat) (a : Token) : Bool :=
  let x := s.tile t
  let n := s.blockLen t slot
  let used := x.buffersUsed (s.blockLen t)
  x.buffersPeak n slot a used (outBases n a.lo a.hi) (used.length, used.length) ≤ 16

/-- Whether a pairing of a REBLK slot has its buffers (R168). -/
def State.bufferRoom (s : State) (t : Nat) (p : Pairing) (l : Token) : Bool :=
  s.slotOp t p.slot ≠ 0xB1 || l.act = .fault || s.buffersFor t p.slot l

/-- Whether an accumulating RSUM pairing of an unordered slot is the first that formed of those unfired at its slot and
context: they are added in the order in which they formed (R159). -/
def State.accTurn (s : State) (t : Nat) (p : Pairing) : Bool :=
  let w := (s.blockOf t).slots.getD p.slot 0
  !(opcodeOf w = 0x70 && w.getLsbD 43) ||
    ((s.tile t).pairings.find? fun q => q.slot = p.slot && q.ctx = p.ctx) = some p

/-- Whether a bell has reached its count at a tile for a context, so that it selects no pairing of it (R319). -/
def Tile.belled (x : Tile) (c : Nat) : Bool := x.bells.any fun b => b.ctx = c && b.due

/-- Whether a pairing is ready in this round (R24). -/
def State.ready (s : State) (t : Nat) (p : Pairing) : Bool :=
  let x := s.tile t
  (s.ctx p.ctx).st = .live && !x.belled p.ctx && p.born < s.cycle &&
  (match x.operand p.l, x.operand p.r with
   | some l, some r => s.hasRoom t (s.slotOp t p.slot) l (if p.r = .none then none else some r) && s.accRoom t p && s.accTurn t p && s.bufferRoom t p l
   | _, _ => false)

/-- Whether pairing `a` is selected before `b` (R24): age 64 or more first, the greatest age winning, then slot,
context, tag; else class, tag, slot, context. -/
def State.before (s : State) (a b : Pairing) : Bool :=
  let oldA := 64 ≤ a.age
  let oldB := 64 ≤ b.age
  let ca := (s.ctx a.ctx).cls
  let cb := (s.ctx b.ctx).cls
  if oldA != oldB then oldA
  else if oldA then
    if a.age ≠ b.age then b.age < a.age
    else if a.slot ≠ b.slot then a.slot < b.slot
    else if a.ctx ≠ b.ctx then a.ctx < b.ctx
    else a.itag.toNat < b.itag.toNat
  else if ca ≠ cb then ca < cb
  else if a.itag ≠ b.itag then a.itag.toNat < b.itag.toNat
  else if a.slot ≠ b.slot then a.slot < b.slot
  else a.ctx < b.ctx

/-- The pairing a selection round takes, with its position (R24). -/
def State.select (s : State) (t : Nat) : Option (Pairing × Nat) :=
  (((s.tile t).pairings.zipIdx).filter fun p => s.ready t p.1).foldl (fun best p =>
    match best with
    | none => some p
    | some q => if s.before p.1 q.1 then some p else some q) none

/-- Whether a pairing reads an entry. -/
def Pairing.uses (p : Pairing) (id : Nat) : Bool := p.l = .stick id || p.r = .stick id

/-- The entries left once purged stickies that no unfired pairing reads are gone (R95). -/
def Tile.sweep (x : Tile) : Tile :=
  { x with entries := x.entries.filter fun e => !e.dead || x.pairings.any fun p => p.uses e.id }

/-- Whether a tile's output queue can accept a firing (R24, R26; log entry 128). -/
def State.outputRoom (s : State) (t : Nat) : Bool :=
  let n := (s.net.filter fun p => p.place = .outq t).length
  n = 0 || n < Config.outputQueue

/-- A selection round of a tile (R24): the selected pairing leaves the match store with its operands' values, ready
pairings grow older, and the firing's instruction is decoded from its slot. None when nothing is ready, or when the
datapath or the output queue can accept no firing in this cycle. -/
def State.takeFiring (s : State) (t : Nat) : Option (State × Instr) :=
  let x := s.tile t
  if s.cycle ≤ x.lastRound || !s.outputRoom t then none
  else
    match s.select t with
    | none => none
    | some (p, i) =>
      match decodeFabric ((s.blockOf t).slots.getD p.slot 0) with
      | .error _ => none
      | .ok instr =>
        let value (o : Operand) : Operand :=
          match o with
          | .none => .none
          | o => match x.operand o with
            | some v => .held v
            | none => .none
        let p' : Pairing := { p with l := value p.l, r := value p.r }
        let rest := x.pairings.zipIdx.filterMap fun q =>
          if q.2 = i then none else some (if s.ready t q.1 then { q.1 with age := q.1.age + 1 } else q.1)
        let x' := ({ x with pairings := rest, lastRound := s.cycle } : Tile).sweep
        some ({ (s.setTile t x').progressed p.ctx with focus := .firing t p' }, instr)

/-! ## Control cores -/

/-- The registers an instruction reads or writes (R277). -/
def instrRegs : Instr → List (BitVec 5)
  | .addC d a b => [d, a, b]
  | .subC d a b => [d, a, b]
  | .andC d a b => [d, a, b]
  | .orC d a b => [d, a, b]
  | .xorC d a b => [d, a, b]
  | .sll d a b => [d, a, b]
  | .srl d a b => [d, a, b]
  | .sra d a b => [d, a, b]
  | .slt d a b => [d, a, b]
  | .sltu d a b => [d, a, b]
  | .mulC d a b => [d, a, b]
  | .mulhC d a b => [d, a, b]
  | .mulhu d a b => [d, a, b]
  | .divC d a b => [d, a, b]
  | .divu d a b => [d, a, b]
  | .remC d a b => [d, a, b]
  | .remu d a b => [d, a, b]
  | .minC d a b => [d, a, b]
  | .maxC d a b => [d, a, b]
  | .clzC d a => [d, a]
  | .popcC d a => [d, a]
  | .addi d a _ => [d, a]
  | .andi d a _ => [d, a]
  | .ori d a _ => [d, a]
  | .xori d a _ => [d, a]
  | .slli d a _ => [d, a]
  | .srli d a _ => [d, a]
  | .srai d a _ => [d, a]
  | .slti d a _ => [d, a]
  | .lui d _ => [d]
  | .ldC d a v _ _ _ _ => [d, a, v]
  | .lds d a v _ _ _ _ => [d, a, v]
  | .stC d a v _ _ _ _ => [d, a, v]
  | .aadd d a v _ _ _ _ => [d, a, v]
  | .amin d a v _ _ _ _ => [d, a, v]
  | .amax d a v _ _ _ _ => [d, a, v]
  | .axchg d a v _ _ _ _ => [d, a, v]
  | .casC d a v _ _ _ _ => [d, a, v]
  | .reclaimC d a b => [d, a, b]
  | .vwaitC d a b => [d, a, b]
  | .beq a b _ => [a, b]
  | .bne a b _ => [a, b]
  | .blt a b _ => [a, b]
  | .bge a b _ => [a, b]
  | .bltu a b _ => [a, b]
  | .bgeu a b _ => [a, b]
  | .jal d _ => [d]
  | .jalr d a _ => [d, a]
  | .recv d a b => [d, a, b]
  | .send d a => [d, a]
  | .bind d a => [d, a]
  | .spawn d a b => [d, a, b]
  | .sleep a => [a]
  | .kill d a => [d, a]
  | .cfgw d a b => [d, a, b]
  | .cfgmc d a b => [d, a, b]
  | .cfgcrc d a => [d, a]
  | .cfgcom d => [d]
  | .cfgrb d => [d]
  | .place d a b => [d, a, b]
  | .fuseq d a => [d, a]
  | .sigchk d a b => [d, a, b]
  | .copyC d a _ _ _ _ => [d, a]
  | .gatherC d a b _ _ _ _ => [d, a, b]
  | .armC d a _ _ _ => [d, a]
  | .disarmC d a => [d, a]
  | .mmaC d a _ _ => [d, a]
  | .aucgoC d a _ _ => [d, a]
  | .aucgetC d => [d]
  | .crc32c d a b => [d, a, b]
  | .rtag d a b => [d, a, b]
  | .runtag d => [d]
  | .resume d a => [d, a]
  | .csrr d _ => [d]
  | .csrw d a _ => [d, a]
  | .halt d a => [d, a]
  | .bell d a => [d, a]
  | .quiesce d a => [d, a]
  | _ => []

/-- The registers an instruction reads (R246, R248). -/
def instrReads : Instr → List (BitVec 5)
  | .addC _ a b => [a, b]
  | .subC _ a b => [a, b]
  | .andC _ a b => [a, b]
  | .orC _ a b => [a, b]
  | .xorC _ a b => [a, b]
  | .sll _ a b => [a, b]
  | .srl _ a b => [a, b]
  | .sra _ a b => [a, b]
  | .slt _ a b => [a, b]
  | .sltu _ a b => [a, b]
  | .mulC _ a b => [a, b]
  | .mulhC _ a b => [a, b]
  | .mulhu _ a b => [a, b]
  | .divC _ a b => [a, b]
  | .divu _ a b => [a, b]
  | .remC _ a b => [a, b]
  | .remu _ a b => [a, b]
  | .minC _ a b => [a, b]
  | .maxC _ a b => [a, b]
  | .clzC _ a => [a]
  | .popcC _ a => [a]
  | .addi _ a _ => [a]
  | .andi _ a _ => [a]
  | .ori _ a _ => [a]
  | .xori _ a _ => [a]
  | .slli _ a _ => [a]
  | .srli _ a _ => [a]
  | .srai _ a _ => [a]
  | .slti _ a _ => [a]
  | .ldC _ a v _ _ _ _ => [a, v]
  | .lds _ a v _ _ _ _ => [a, v]
  | .stC d a v _ _ _ _ => [d, a, v]
  | .aadd _ a v _ _ _ _ => [a, v]
  | .amin _ a v _ _ _ _ => [a, v]
  | .amax _ a v _ _ _ _ => [a, v]
  | .axchg _ a v _ _ _ _ => [a, v]
  | .casC d a v _ _ _ _ => [d, a, v]
  | .reclaimC _ a b => [a, b]
  | .vwaitC _ a b => [a, b]
  | .beq a b _ => [a, b]
  | .bne a b _ => [a, b]
  | .blt a b _ => [a, b]
  | .bge a b _ => [a, b]
  | .bltu a b _ => [a, b]
  | .bgeu a b _ => [a, b]
  | .jalr _ a _ => [a]
  | .recv _ a b => [a, b]
  | .send _ a => [a]
  | .bind _ a => [a]
  | .spawn _ a b => [a, b]
  | .sleep a => [a]
  | .kill _ a => [a]
  | .cfgw _ a b => [a, b]
  | .cfgmc _ a b => [a, b]
  | .cfgcrc _ a => [a]
  | .place _ a b => [a, b]
  | .fuseq _ a => [a]
  | .sigchk _ a b => [a, b]
  | .copyC _ a _ _ _ _ => [a]
  | .gatherC _ a b _ _ _ _ => [a, b]
  | .armC _ a _ _ _ => [a]
  | .disarmC _ a => [a]
  | .mmaC _ a _ _ => [a]
  | .aucgoC _ a _ _ => [a]
  | .crc32c _ a b => [a, b]
  | .rtag _ a b => [a, b]
  | .resume _ a => [a]
  | .csrw _ a _ => [a]
  | .halt _ a => [a]
  | .bell _ a => [a]
  | .quiesce _ a => [a]
  | _ => []

/-- A register marked pending in SCORE (R274, R277); g0 never is. -/
def Task.pending (t : Task) (r : BitVec 5) : Bool := r ≠ 0 && bit t.score.toNat r.toNat

/-- The next RUNNABLE task in ascending order after the last one, wrapping (R275). -/
def Core.next (k : Core) : Option Nat :=
  ((List.range 8).map fun i => (k.last + 1 + i) % 8).find? fun i => (assocGet {} k.tasks i).st = .runnable

/-- The core gives itself to its next RUNNABLE task (R275); `retired` keeps its INSTRET at selection. A switch loses the
values of tagged registers (R248). -/
def State.switchTask (s : State) (c : Nat) : State :=
  let k := (s.cluster c).core
  match k.next with
  | none => s.setCore c { k with running := none }
  | some i =>
    let t := s.task c i
    let t : Task := if k.last = i then t else { t with dirty := t.tags.map fun g => g.1 }
    (s.setCore c { k with running := some i, last := i, retired := t.instret.toNat }).setTask c i { t with st := .running }

/-- The running task leaves the core, BLOCKED for a reason (R275). -/
def State.block (s : State) (c k : Nat) (why : BlockReason) : State :=
  let s := s.updTask c k fun t => { t with st := .blocked why }
  let core := (s.cluster c).core
  if core.running = some k then s.setCore c { core with running := none } else s

/-- A core at a cycle: its tasks whose configuration instruction has taken its time are RUNNABLE again (R371). -/
def Core.awake (k : Core) (now : Nat) : Core :=
  { k with tasks := k.tasks.map fun t => match t.2.st with
      | .blocked (.config n) => if n ≤ now then (t.1, t.2.ready) else t
      | _ => t }

/-- The running task gives the core up and stays RUNNABLE (R275). -/
def State.yieldTask (s : State) (c k : Nat) : State :=
  let s := s.updTask c k fun t => { t with st := .runnable }
  let core := (s.cluster c).core
  if core.running = some k then s.setCore c { core with running := none } else s

/-- Whether the running task has used its quantum while another is RUNNABLE (R275). -/
def State.quantumOver (s : State) (c : Nat) : Bool :=
  let k := (s.cluster c).core
  match k.running with
  | none => false
  | some i => k.next.isSome && 1024 ≤ ((s.task c i).instret.toNat + 2 ^ 64 - k.retired) % 2 ^ 64

/-- Whether a pc may be fetched as far as the image code window goes: within the task record's code section (R310). -/
def Task.mayFetch (t : Task) : Bool :=
  !inCode t.pc.toNat || 2 ^ 56 ≤ t.pc.toNat ||
  (match t.image with
   | some (_, off, len) => off ≤ t.pc.toNat % 2 ^ 32 && t.pc.toNat % 2 ^ 32 < off + len
   | none => false)

/-- The word at a pc that a fetch line holds (R290). -/
def Task.fetched (t : Task) : Option (BitVec 32) :=
  match t.line with
  | none => none
  | some (b, bytes) =>
    if t.pc.toNat / 64 = b && t.pc.toNat % 4 = 0 && t.mayFetch then some (BitVec.ofNat 32 (field bytes (t.pc.toNat % 64) 4)) else none

/-! ## The Dean's command ring (R351, R352) -/

/-- The home address of a byte of host memory (R349). -/
def hostAddr (a : Nat) : Nat := 2 * 2 ^ 44 + a

/-- The address in host memory of the next command record. -/
def Mailbox.record (m : Mailbox) : Nat := m.ring + 64 * (m.head.toNat % m.entries)

/-- The command that an OP names (R352); an unknown OP gives BAD_COMMAND. -/
def commandOf (op : Nat) : Instr :=
  match op with
  | 0x01 => .hostQset
  | 0x02 => .hostWbind
  | 0x03 => .hostPortten
  | 0x04 => .hostPowcap
  | 0x05 => .hostMcast
  | 0x06 => .hostAsid
  | 0x07 => .hostGate
  | 0x08 => .hostKey
  | 0x09 => .hostUnload
  | 0x0A => .hostAbort
  | 0x0B => .hostResume
  | 0x0C => .hostPreempt
  | 0x0D => .hostRestore
  | 0x0E => .hostDiscard
  | 0x0F => .hostMeter
  | 0x10 => .hostExport
  | 0x11 => .hostImport
  | 0x12 => .hostProctor
  | 0x13 => .hostMapget
  | 0x14 => .hostBanks
  | n => .badCommand (BitVec.ofNat 16 n)

/-- How many arguments a command uses (R352); the rest are zero. -/
def commandArgs (op : Nat) : Nat :=
  ([0, 2, 1, 2, 1, 2, 3, 5, 4, 1, 1, 1, 1, 2, 1, 3, 4, 5, 2, 3, 4] : List Nat).getD op 0

/-- The next command record of the ring as a step (R351, R352): none before the boot status reads ready, or when HEAD
has reached TAIL. A nonzero zero field or unused argument is BadCmd. -/
def State.nextCommand (s : State) : Option (State × Instr) :=
  let m := s.dean.mail
  if m.boot ≠ .ready || m.head = m.tail then none
  else
    let bs := cellsGet s.mem (hostAddr m.record) 64
    let op := field bs 0 2
    let arg (i : Nat) : Word := BitVec.ofNat 64 (field bs (16 + 8 * i) 8)
    let extra := (List.range 6).any fun i => commandArgs op ≤ i && arg i ≠ 0
    let bad := field bs 2 2 ≠ 0 || field bs 12 4 ≠ 0 || extra
    let i := if bad then .badCommand (BitVec.ofNat 16 op) else commandOf op
    some ({ s with focus := .command { a0 := arg 0, a1 := arg 1, a2 := arg 2, a3 := arg 3, a4 := arg 4, a5 := arg 5 } }, i)

/-- An uncorrectable error in a block: its reads raise Poison until it is written whole or scrubbed (R311, R340). -/
def State.poisonBlock (s : State) (b : Nat) : State := s.setBlockMeta b { s.blockMeta b with poison := true }

/-- The host stores into its own memory (R351, R353): each block's version rises, and waits are served. -/
def State.hostStore (s : State) (a : Nat) : Nat → List Byte → State
  | 0, _ => s
  | fuel + 1, bs =>
    if bs.isEmpty then s
    else
      let h := hostAddr a
      let n := min bs.length (64 - h % 64)
      let m := s.blockMeta (h / 64)
      let old := cellsGet s.mem (h / 64 * 64) 64
      let s := s.putBlock (h / 64) { m with version := m.version + 1 } (patch old (h % 64) (bs.take n))
      (s.afterAccess { block := h / 64, op := .store [] }).hostStore (a + n) fuel (bs.drop n)

/-- The same in a block of a cluster's B store (R184). -/
def State.poisonColumn (s : State) (c b : Nat) : State :=
  s.setCluster c { s.cluster c with bpoison := b % 2 ^ 14 :: (s.cluster c).bpoison.filter fun x => x ≠ b % 2 ^ 14 }

/-! ## Turns -/

/-- The next turn: the agenda's, or a free one where the agenda is empty (log entry 1). -/
def State.nextTurn (s : State) : Turn × State :=
  match s.agenda with
  | t :: rest => (t, { s with agenda := rest })
  | [] => (Config.freeTurn s.tick, { s with tick := s.tick + 1 })

/-- Whether a row is an event of the device, which a turn may name; fabric and core instructions and host commands come
about only through a firing, a task and the command ring. -/
def isEvent (i : Instr) : Bool :=
  i.slotWord.isNone && (encodeCore i).isNone &&
  (match i with
   | .badOp _ => false
   | .badCommand _ => false
   | _ => true)

end Sys2Proof.Machine
end

