-- ==== Sys2Proof/Machine/Match.lean ====
section
/-! DEFINITION. The match store (R87 to R101): admission, pairing, stickies, purges, cancels, anti-tokens, collisions,
the ordered slot of RSUM (R92, R159), and the dropping of stickies (R90, R240). -/

namespace Sys2Proof.Machine

/-! ## Slots -/

/-- What the match store asks of a slot: opcode, whether it uses both ports, ORD, and its tag-compare mask. -/
structure SlotInfo where
  op   : Nat
  two  : Bool
  ord  : Bool
  mask : Nat
  k    : Nat
  deriving DecidableEq, Repr

/-- Whether a slot uses the r port (R91, R225, R179). -/
def usesR : Nat → SlotWord → Bool
  | op, .d w => w.kr = 0 && (match dRule op with
    | some r => r.er
    | none => false)
  | op, .m w => op = 0x81 || op = 0x82 || op = 0x83 || op = 0x88 || w.vsrc = 3
  | op, .e _ => op = 0xA4

/-- A slot of a tile as the match store sees it. -/
def State.slotInfo (s : State) (t slot : Nat) : SlotInfo :=
  let w := (s.blockOf t).slots.getD slot 0
  let op := opcodeOf w
  let sw := unpackSlot op w
  let (ord, k) := match sw with
    | .d d => (op = 0x70 && d.ord = 1, s.konst t d.kidx.toNat)
    | _ => (false, 0)
  { op := op, two := usesR op sw, ord := ord, mask := s.tagMask t slot, k := k }

/-! ## Entries -/

/-- Match entries in use: entries, and the run operands of unfired pairings (R87, R88). -/
def Tile.used (x : Tile) : Nat :=
  x.entries.length + x.pairings.foldl (fun n p => n + p.l.counts + p.r.counts) 0

/-- A new entry with a fresh id. A sticky that no pairing has read counts as read when it was admitted (log entry 154). -/
def Tile.addEntry (x : Tile) (use : EntryUse) (tok : Token) (now : Nat) : Tile :=
  { x with entries := x.entries ++ [{ id := x.nextId, use := use, tok := tok, lastRead := now }], nextId := x.nextId + 1 }

/-- An entry taken out. -/
def Tile.delEntry (x : Tile) (id : Nat) : Tile := { x with entries := x.entries.filter fun e => e.id ≠ id }

/-- Whether two tags agree under a slot's mask (R91). -/
def agrees (m a b : Nat) : Bool := a &&& m == b &&& m

/-- Entries of a use at a slot and port of a context, lowest tag first. -/
def Tile.at_ (x : Tile) (use : EntryUse) (c slot port : Nat) : List Entry :=
  (x.entries.filter fun e => e.use = use && !e.dead && e.tok.ctx = c && e.tok.slot = slot && e.tok.port = port).insertionSort
    fun a b => a.tok.lo ≤ b.tok.lo

/-- The sticky of a context at a slot and port whose tag agrees, resting or dropped (R91, R240). -/
def Tile.sticky (x : Tile) (c slot port m tag : Nat) : Option Nat :=
  match (x.at_ .sticky c slot port).find? fun e => agrees m e.tok.lo tag with
  | some e => some e.id
  | none =>
    (x.drops.find? fun d => !d.purged && d.tok.ctx = c && d.tok.slot = slot && d.tok.port = port &&
      agrees m d.tok.lo tag).map fun d => d.id

/-- A sticky read by a pairing formed now (R90). -/
def Tile.touch (x : Tile) (id now : Nat) : Tile :=
  { x with entries := x.entries.map fun e => if e.id = id then { e with lastRead := now } else e }

/-- A pairing formed (R91, R24). -/
def Tile.pair (x : Tile) (now slot c : Nat) (itag : BitVec 32) (len : Nat) (l r : Operand) : Tile :=
  { x with pairings := x.pairings ++ [{ slot := slot, ctx := c, itag := itag, len := len, l := l, r := r, born := now }] }

/-- A pairing of a run at port p with a value at the other port. -/
def Tile.pairPort (x : Tile) (now p : Nat) (a : Token) (other : Operand) : Tile :=
  if p = 0 then x.pair now a.slot a.ctx a.itag a.len (.run a) other
  else x.pair now a.slot a.ctx a.itag a.len other (.run a)

/-- A pairing of a run with a sticky of the other port (R93). -/
def Tile.pairSticky (x : Tile) (now p : Nat) (a : Token) (id : Nat) : Tile :=
  (x.pairPort now p a (.stick id)).touch id now

/-! ## Pairing runs (R91, R92) -/

/-- The pairing loop of a two-input slot (R91): pieces of an arrival still to be matched, in order; the first round of
each may meet a sticky. -/
def Tile.pairTwo (now c slot p m : Nat) : Nat → List (Token × Bool) → Tile → Tile
  | 0, _, x => x
  | _, [], x => x
  | fuel + 1, (a, first) :: todo, x =>
    match if first then x.sticky c slot (1 - p) m a.lo else none with
    | some id => Tile.pairTwo now c slot p m fuel todo (x.pairSticky now p a id)
    | none =>
      match (x.at_ .waiting c slot (1 - p)).find? fun e => e.tok.meets a with
      | none => Tile.pairTwo now c slot p m fuel todo (x.addEntry .waiting a now)
      | some e =>
        let b := e.tok
        let o0 := max a.lo b.lo
        let o1 := min a.hi b.hi
        let keep (y : Tile) (u v : Nat) : Tile := if u < v then y.addEntry .waiting (b.piece u v) now else y
        let x := keep (keep (x.delEntry e.id) b.lo o0) o1 b.hi
        let x := x.pairPort now p (a.piece o0 o1) (.run (b.piece o0 o1))
        let rest := ([(a.lo, o0), (o1, a.hi)].filter fun r => r.1 < r.2).map fun r => (a.piece r.1 r.2, false)
        Tile.pairTwo now c slot p m fuel (rest ++ todo) x

/-- PACK's pairing (R92): runs of adjacent tags. -/
def Tile.pairPack (x : Tile) (now p : Nat) (a : Token) : Tile :=
  match (x.at_ .waiting a.ctx a.slot (1 - p)).find? fun e =>
      if p = 0 then a.hi = e.tok.lo else e.tok.hi = a.lo with
  | none => x.addEntry .waiting a now
  | some e =>
    let x := x.delEntry e.id
    if p = 0 then x.pair now a.slot a.ctx a.itag (a.len + e.tok.len) (.run a) (.run e.tok)
    else x.pair now a.slot a.ctx e.tok.itag (e.tok.len + a.len) (.run e.tok) (.run a)

/-! ## The ordered slot (R92, R159) -/

/-- The expected tag of a context at an ordered slot; K[31:0] before the first (R159). -/
def Tile.expected (x : Tile) (c slot k : Nat) : Nat :=
  match x.ords.find? fun o => o.ctx = c && o.slot = slot with
  | some o => o.next
  | none => k % 2 ^ 32

def Tile.setExpected (x : Tile) (c slot e : Nat) : Tile :=
  { x with ords := (x.ords.filter fun o => !(o.ctx = c && o.slot = slot)) ++ [{ ctx := c, slot := slot, next := e % 2 ^ 32 }] }

/-- Whether a run in its turn is formed and unfired. -/
def Tile.inTurn (x : Tile) (c slot : Nat) : Bool := x.pairings.any fun p => p.ctx = c && p.slot = slot

/-! ## What an arrival comes to -/

/-- What an arrival leaves beside the tile: CANCEL ranges to emit, tokens that raise Illegal Order, runs wholly
discarded (R119), and triggers whose request leaves its list. -/
structure Effects where
  cancels  : List (Nat × Nat) := []
  orders   : List Token := []
  released : List Token := []
  triggers : List Entry := []
  deriving DecidableEq, Repr, Inhabited

/-- Early runs and CANCELs whose turn has come (R159): CANCELs at E are absorbed, a run at E forms its pairing. -/
def Tile.earlyTurn (now c slot k : Nat) : Nat → Tile × Effects → Tile × Effects
  | 0, z => z
  | fuel + 1, (x, f) =>
    let e := x.expected c slot k
    match (x.at_ .early c slot 0).find? fun y => y.tok.lo ≤ e with
    | none => (x, f)
    | some y =>
      let x := x.delEntry y.id
      if y.tok.lo < e then Tile.earlyTurn now c slot k fuel (x, { f with orders := f.orders ++ [y.tok] })
      else if y.tok.act = .cancel then
        Tile.earlyTurn now c slot k fuel
          (x.setExpected c slot y.tok.hi, { f with cancels := f.cancels ++ [(y.tok.lo, y.tok.hi)] })
      else (x.pair now slot c y.tok.itag y.tok.len (.run y.tok) .none, f)

/-- A run at an ordered slot (R159): in turn, early, or out of order. -/
def Tile.orderedRun (x : Tile) (now k : Nat) (a : Token) : Tile × Effects :=
  let e := x.expected a.ctx a.slot k
  let x := x.setExpected a.ctx a.slot e
  if a.lo < e then (x, { orders := [a] })
  else if a.lo = e && !x.inTurn a.ctx a.slot then (x.pair now a.slot a.ctx a.itag a.len (.run a) .none, {})
  else (x.addEntry .early a now, {})

/-- A CANCEL at an ordered slot (R159). While the run at E is formed and has not fired, a CANCEL that begins at E lies below
the tag that the slot expects next (log entry 159). -/
def Tile.orderedCancel (x : Tile) (now k : Nat) (a : Token) : Tile × Effects :=
  let e := x.expected a.ctx a.slot k
  let x := x.setExpected a.ctx a.slot e
  if e < a.lo then (x.addEntry .early a now, {})
  else if a.lo < e || x.inTurn a.ctx a.slot then (x, { orders := [a] })
  else Tile.earlyTurn now a.ctx a.slot k 64 (x.setExpected a.ctx a.slot a.hi, { cancels := [(a.lo, a.hi)] })

/-! ## Anti-tokens and cancels (R99, R100) -/

/-- Maximal runs of consecutive numbers of an ascending list, as half-open ranges. -/
def ranges : List Nat → List (Nat × Nat)
  | [] => []
  | t :: ts =>
    match ranges ts with
    | (a, b) :: r => if t + 1 = a then (t, b) :: r else (t, t + 1) :: (a, b) :: r
    | [] => [(t, t + 1)]

/-- Anti-tokens over ranges of tags at a slot and port. -/
def Tile.addAnti (x : Tile) (now c slot port : Nat) : List (Nat × Nat) → Tile
  | [] => x
  | (a, b) :: r =>
    let tok : Token := { act := .cancel, len := b - a, ctx := c, slot := slot, port := port, itag := BitVec.ofNat 32 a }
    Tile.addAnti (x.addEntry .anti tok now) now c slot port r

/-- Anti-tokens that annihilate tags of an arrival (R100): the tags, and the tile without them. -/
def Tile.annihilate (x : Tile) (now port : Nat) (a : Token) : List Nat × Tile :=
  (x.at_ .anti a.ctx a.slot port).foldl (fun (z : List Nat × Tile) e =>
    if e.tok.meets a then
      let hit := (tagsOf (max a.lo e.tok.lo) (min a.hi e.tok.hi)).filter fun t => !z.1.contains t
      if hit.isEmpty then z
      else
        let left := ranges ((tagsOf e.tok.lo e.tok.hi).filter fun t => !hit.contains t)
        (z.1 ++ hit, (z.2.delEntry e.id).addAnti now a.ctx a.slot port left)
    else z) ([], x)

/-- One element of a waiting run discarded, the rest kept as pieces (R91, R99). -/
def Tile.discard (x : Tile) (now t : Nat) (e : Entry) : Tile :=
  let b := e.tok
  let x := x.delEntry e.id
  let x := if b.lo < t then x.addEntry e.use (b.piece b.lo t) now else x
  if t + 1 < b.hi then x.addEntry e.use (b.piece (t + 1) b.hi) now else x

/-- The state of R99's loop over tags: tile, tags to cancel onward, tags of anti-tokens, triggers withdrawn. -/
structure CancelLoop where
  x        : Tile
  out      : List Nat := []
  anti     : List Nat := []
  triggers : List Entry := []

/-- R99 for one tag. -/
def CancelLoop.tag (now : Nat) (i : SlotInfo) (a : Token) (z : CancelLoop) (t : Nat) : CancelLoop :=
  let covers (e : Entry) : Bool := e.tok.lo ≤ t && t < e.tok.hi
  let sync := i.op = 0x05
  let out := if sync then z.out else z.out ++ [t]
  let other := if i.two then (z.x.at_ .waiting a.ctx a.slot (1 - a.port)).find? covers else none
  match other with
  | some e => { z with x := z.x.discard now t e, out := out }
  | none =>
    match (z.x.at_ .waiting a.ctx a.slot a.port).find? covers with
    | some e => { z with x := z.x.discard now t e, out := out }
    | none =>
      match (z.x.at_ .trigger a.ctx a.slot a.port).find? covers with
      | some e => { z with x := z.x.delEntry e.id, out := out, triggers := z.triggers ++ [e] }
      | none =>
        if z.triggers.any covers then { z with out := out }
        else
          let passes := !sync && (!i.two || (z.x.sticky a.ctx a.slot (1 - a.port) i.mask t).isSome)
          { z with out := if passes then z.out ++ [t] else z.out, anti := z.anti ++ [t] }

/-- The waiting runs at an l port of which a cancel left nothing (R119). -/
def wholly (before after : Tile) (c slot : Nat) (lo hi : Nat) : List Token :=
  ((before.at_ .waiting c slot 0).filter fun e =>
    e.tok.lo < hi && lo < e.tok.hi && !((after.at_ .waiting c slot 0).any fun y => y.tok.meets e.tok)).map fun e => e.tok

/-- A CANCEL at a slot (R99). -/
def Tile.cancel (x : Tile) (now : Nat) (i : SlotInfo) (a : Token) : Tile × Effects :=
  if i.op = 0x04 || i.op = 0xB1 then (x, {})
  else if i.ord then x.orderedCancel now i.k a
  else
    let z := (tagsOf a.lo a.hi).foldl (CancelLoop.tag now i a) { x := x }
    (z.x.addAnti now a.ctx a.slot a.port (ranges z.anti),
      { cancels := ranges z.out, triggers := z.triggers,
        released := wholly x z.x a.ctx a.slot a.lo a.hi })

/-! ## Collisions (R101) -/

/-- Whether an unfired operand of a run is at a port: at a MERGE, at either. -/
def Pairing.operands (p : Pairing) : List Token :=
  ([p.l, p.r].filterMap fun o => match o with
    | .run t => some t
    | _ => none)

/-- The lowest colliding tag of an arrival (R101); none when it collides with nothing. -/
def Tile.collides (x : Tile) (i : SlotInfo) (a : Token) : Option Nat :=
  let unfired := ((x.pairings.filter fun p => p.ctx = a.ctx && p.slot = a.slot).flatMap Pairing.operands).filter fun t =>
    i.op = 0x04 || t.port = a.port
  let waiting := (x.at_ .waiting a.ctx a.slot a.port).map fun e => e.tok
  let early := ((x.at_ .early a.ctx a.slot a.port).map fun e => e.tok).filter fun t => t.act ≠ .cancel
  let stick := x.sticky a.ctx a.slot a.port i.mask a.lo
  let hits : List Nat :=
    if a.act = .sticky then
      if stick.isSome || (waiting ++ unfired).any (fun t => agrees i.mask t.lo a.lo) then [a.lo] else []
    else
      ((waiting ++ early ++ unfired).filter fun t => t.meets a).map (fun t => max t.lo a.lo) ++
        (if stick.isSome then [a.lo] else [])
  match hits with
  | [] => none
  | h :: t => some (t.foldl min h)

/-! ## Admission (R89, R90) -/

/-- A run or sticky taken in at a slot, after the collision check: R91 to R94, R100. At a single-input slot a run at port r
forms its pairing as one at port l does (log entry 156). -/
def Tile.take (x : Tile) (now : Nat) (i : SlotInfo) (a : Token) : Tile × Effects :=
  if a.act = .sticky then
    let id := x.nextId
    let x := x.addEntry .sticky a now
    if i.two && i.op ≠ 0x0C && i.op ≠ 0x04 then
      let ws := (x.at_ .waiting a.ctx a.slot (1 - a.port)).filter fun e => agrees i.mask e.tok.lo a.lo
      (ws.foldl (fun (y : Tile) e => (y.delEntry e.id).pairSticky now (1 - a.port) e.tok id) x, {})
    else (x, {})
  else if i.op = 0x04 then
    (if a.port = 0 then x.pair now a.slot a.ctx a.itag a.len (.run a) .none
     else x.pair now a.slot a.ctx a.itag a.len .none (.run a), {})
  else if i.ord then x.orderedRun now i.k a
  else
    let (dead, x) := x.annihilate now (if i.two then 1 - a.port else a.port) a
    let live := ranges ((tagsOf a.lo a.hi).filter fun t => !dead.contains t)
    let parts := live.map fun r => a.piece r.1 r.2
    let f : Effects :=
      { cancels := if i.two && i.op ≠ 0x05 then ranges (dead.insertionSort (· ≤ ·)) else [],
        released := if parts.isEmpty && a.port = 0 then [a] else [] }
    let x :=
      if !i.two then parts.foldl (fun (y : Tile) b => y.pair now b.slot b.ctx b.itag b.len (.run b) .none) x
      else if i.op = 0x0C then parts.foldl (fun (y : Tile) b => y.pairPack now b.port b) x
      else Tile.pairTwo now a.ctx a.slot a.port i.mask 256 (parts.map fun b => (b, true)) x
    (x, f)

/-- Whether a droppable sticky may be dropped now (R90, R240). -/
def Tile.droppable (x : Tile) (e : Entry) : Bool :=
  e.use = .sticky && e.tok.drp && !e.dead && !(x.pairings.any fun p => p.uses e.id)

/-- The sticky R90 drops first: oldest last read, then lowest context, slot, port; of two that agree in all of these, the
one admitted first (log entry 155). -/
def Tile.dropNext (x : Tile) (only : Option Nat) : Option Entry :=
  if Config.dropRecords ≤ x.drops.length then none
  else
    (x.entries.filter fun e => x.droppable e && (match only with
      | some c => e.tok.ctx = c
      | none => true)).foldl (fun best e =>
      match best with
      | none => some e
      | some b =>
        let key (z : Entry) : List Nat := [z.lastRead, z.tok.ctx, z.tok.slot, z.tok.port]
        if key e < key b then some e else some b) none

/-- A sticky dropped into a drop-table record (R240). -/
def Tile.dropEntry (x : Tile) (e : Entry) : Tile :=
  let x := x.delEntry e.id
  { x with drops := x.drops ++ [{ id := e.id, tok := { e.tok with data := [] } }],
           counters := { x.counters with meDrop := x.counters.meDrop + 1 } }

/-- Whether a tile's use fits its 64 entries, and the peak recorded (R88). -/
def Tile.fits (x : Tile) : Bool := x.used ≤ Config.matchEntries
def Tile.peaked (x : Tile) : Tile :=
  { x with counters := { x.counters with mePeak := BitVec.ofNat 32 (max x.counters.mePeak.toNat x.used) } }

/-- Admission with drops (R89, R90): the action on the tile is tried, and droppable stickies are dropped one at a time
until its result fits or none can be dropped; the drops stand even when it does not fit. -/
def Tile.admission (act : Tile → Tile × Effects) : Nat → Tile → Tile × Option Effects
  | 0, x => (x, none)
  | fuel + 1, x =>
    let (y, f) := act x
    if y.fits || y.used ≤ x.used then (y.peaked, some f)
    else
      match x.dropNext none with
      | none => (x, none)
      | some e => Tile.admission act fuel (x.dropEntry e)

/-- A PURGE at a slot and port (R95, R240, R242): a record whose replay is asked for, by pairings formed before or by a
RECALL, goes when that replay is over. -/
def Tile.purge (x : Tile) (c slot port : Nat) : Tile :=
  let here (t : Token) : Bool := t.ctx = c && t.slot = slot && t.port = port
  let read (id : Nat) : Bool := x.pairings.any fun p => p.uses id
  let entries := (x.entries.filter fun e => !(e.use = .sticky && here e.tok && !read e.id)).map fun e =>
    if e.use = .sticky && here e.tok then { e with dead := true } else e
  let asked (d : DropRec) : Bool := d.poisoned.isNone && (read d.id || x.replayQ.contains d.id)
  let drops := (x.drops.filter fun d => !here d.tok || asked d).map fun d => if here d.tok then { d with purged := true } else d
  { x with entries := entries, drops := drops }

end Sys2Proof.Machine
end

