-- ==== Sys2Proof/Machine/Pools.lean ====
section
/-! DEFINITION. Pools and tickets (R106 to R124): handles, the service of one operation at the pool's tile, grants and
their arrival. -/

namespace Sys2Proof.Machine

/-! ## Handles (R108) -/

/-- The fields of a handle or pool name. -/
def hGen (h : Nat) : Nat := bits h 31 23
def hPool (h : Nat) : Nat := bits h 22 20
def hX (h : Nat) : Nat := bits h 19 15
def hY (h : Nat) : Nat := bits h 14 10
def hSlot (h : Nat) : Nat := bits h 9 0

/-- A handle from its fields. -/
def mkHandle (gen pool x y slot : Nat) : Nat := gen * 2 ^ 23 + pool * 2 ^ 20 + x * 2 ^ 15 + y * 2 ^ 10 + slot

/-- The pool's tile that a handle names in the region of a tile. -/
def State.poolTile (s : State) (t h : Nat) : Option Nat :=
  match s.regionAt t with
  | none => none
  | some r => match r.relTile (hX h) (hY h) with
    | none => none
    | some p => if s.fused p then none else some p

/-- The handle run of a grant (R109): the trigger's tags, every element the handle. -/
def handleRun (t : Token) (h : Nat) : Token :=
  { act := .normal, fmt := 11, len := t.len, ctx := t.ctx, itag := t.itag, mask := fullMask t.len,
    data := List.replicate t.len (BitVec.ofNat 64 h) }

/-! ## Pools of a tile, `acc` among them (R107) -/

def State.pool (s : State) (t p : Nat) : Option Pool :=
  if p = 7 then (if localOf t = 15 && (s.tile t).status = .resident && (s.tile t).block.isSome then some (s.cluster (clusterOf t)).array.pool else none)
  else if (s.tile t).status = .resident then (s.tile t).pools[p]? else none

def State.setPool (s : State) (t p : Nat) (x : Pool) : State :=
  if p = 7 then
    let a := (s.cluster (clusterOf t)).array
    s.setArray (clusterOf t) { a with pool := x }
  else s.updTile t fun y => { y with pools := y.pools.set p x }

/-- The byte of the tile store at which a slot starts (R106). -/
def State.slotBase (s : State) (t p j : Nat) : Nat :=
  (((s.tile t).pools.take p).foldl (fun n q => n + q.size * q.slots.length) 0) + ((s.tile t).pools.getD p {}).size * j

/-- Whether a tile holds a slot of rank at least `p` owned by an iteration (R114; log entry 8). -/
def State.holdsRank (s : State) (t p c : Nat) (tag : BitVec 32) : Bool :=
  (List.range 8).any fun q => p ≤ q && (match s.pool t q with
    | none => false
    | some x => x.slots.any fun z => z.st ≠ .free && z.ownerCtx = c && z.ownerTag = tag)

/-! ## Grants (R112) -/

/-- A counter of a tile's pools raised. -/
def Tile.granted (x : Tile) : Tile := { x with counters := { x.counters with alGrant := x.counters.alGrant + 1 } }

/-- A packet of the request or response channel from a tile to a tile for a context (R328); its token field holds no
token of the program. -/
def State.sendCargo (s : State) (t dst vc slot c : Nat) (x : Cargo) : State :=
  s.sendFrom t { tok := ({ act := .purge, ctx := c } : Token).sendTo dst 0 0, edge := { tile := t, slot := slot }, dest := .tile dst,
                 vc := vc, cargo := x }

/-- A grant sent to the tile that asked (R124). -/
def State.sendGrant (s : State) (dst : Nat) (g : Grant) : State := s.sendCargo g.tile dst 1 0 g.ctx (.grant g)

/-- The head waiters of a pool granted while slots are free (R112). -/
def State.grantPool (s : State) (t p : Nat) : Nat → State
  | 0 => s
  | fuel + 1 =>
    match s.pool t p, s.regionAt t with
    | some x, some r =>
      match x.wait, x.slots.findIdx? fun z => z.st = .free with
      | q :: rest, some j =>
        let z := x.slots.getD j {}
        let z' := { z with st := .held, ownerCtx := q.ctx, ownerTag := q.itag, n := 0 }
        let h := mkHandle z.gen p (tileX t - r.x0) (tileY t - r.y0) j
        let s := (s.setPool t p { x with slots := x.slots.set j z', wait := rest }).updTile t Tile.granted
        (s.sendGrant q.tile { trig := q.trig, handle := some (BitVec.ofNat 32 h), tile := t, tk := p, ctx := q.ctx }).grantPool t p fuel
      | _, _ => s
    | _, _ => s

/-- The head waiters of a ticket pool granted while tickets are free (R112, R115). -/
def State.grantTickets (s : State) (t k : Nat) : Nat → State
  | 0 => s
  | fuel + 1 =>
    match (s.tile t).tickets[k]? with
    | none => s
    | some x =>
      match x.wait with
      | [] => s
      | q :: rest =>
        if x.free = 0 then s
        else
          let held := assocSet x.held q.ctx (assocGet 0 x.held q.ctx + 1)
          let s := s.updTile t fun y =>
            ({ y with tickets := y.tickets.set k { x with free := x.free - 1, held := held, wait := rest } } : Tile).granted
          (s.sendGrant q.tile { trig := q.trig, handle := none, tile := t, tk := k, ctx := q.ctx }).grantTickets t k fuel

/-! ## The slot of a handle (R122's check) -/

/-- The check of a handle at the pool's tile: the fault it meets. -/
def State.checkHandle (s : State) (t h c : Nat) : Option (Nat × Nat) :=
  match s.pool t (hPool h) with
  | none => some (0x04, 0x01)
  | some x =>
    match x.slots[hSlot h]? with
    | none => some (0x04, 0x02)
    | some z =>
      if z.gen ≠ hGen h then some (0x02, 0x01)
      else if z.st = .free then some (0x02, 0x05)
      else if z.ownerCtx ≠ c then some (0x02, 0x04)
      else none

/-- A slot freed: FREE with GEN + 1, its head waiter granted (R110, R112). -/
def State.freeSlot (s : State) (t p j : Nat) : State :=
  match s.pool t p with
  | none => s
  | some x =>
    let z := x.slots.getD j {}
    (s.setPool t p { x with slots := x.slots.set j { z with st := .free, gen := (z.gen + 1) % 512, n := 0 } }).grantPool t p 64

/-- A GIVE's effect at its slot (R122). -/
def State.giveSlot (s : State) (t h count : Nat) : State :=
  match s.pool t (hPool h) with
  | none => s
  | some x =>
    let z := x.slots.getD (hSlot h) {}
    s.setPool t (hPool h) { x with slots := x.slots.set (hSlot h) { z with st := .given, n := count } }

/-- A RELEASE's effect at its slot (R122). -/
def State.releaseSlot (s : State) (t h : Nat) : State :=
  match s.pool t (hPool h) with
  | none => s
  | some x =>
    let z := x.slots.getD (hSlot h) {}
    if z.st = .held || z.n ≤ 1 then s.freeSlot t (hPool h) (hSlot h)
    else s.setPool t (hPool h) { x with slots := x.slots.set (hSlot h) { z with n := z.n - 1 } }

/-- A ticket given back (R115, R122): none on TicketOver. -/
def State.returnTicket (s : State) (t k c : Nat) : Option State :=
  match (s.tile t).tickets[k]? with
  | none => none
  | some x =>
    let held := assocGet 0 x.held c
    if x.free = x.declared || held = 0 then none
    else
      let s := s.updTile t fun y =>
        { y with tickets := y.tickets.set k { x with free := x.free + 1, held := assocSet x.held c (held - 1) } }
      some (s.grantTickets t k 64)

/-- The report of a pool or ticket pool (R118). -/
def State.poolWord (s : State) (t n : Nat) : Option Nat :=
  if bit n 9 then
    match (s.tile t).tickets[hPool n]? with
    | some x => some (x.wait.length * 2 ^ 16 + x.free)
    | none => none
  else
    match s.pool t (hPool n) with
    | some x => some (x.wait.length * 2 ^ 16 + (x.slots.filter fun z => z.st = .free).length)
    | none => none

/-- Commands accepted before a GIVE that name its accumulator and have not completed (R177), waiting ACCRDs of other
iterations left out. -/
def State.accBusy (s : State) (t h : Nat) : Bool :=
  let a := (s.cluster (clusterOf t)).array
  let z := a.pool.slots.getD (hSlot h) {}
  a.queue.any fun q => hSlot q.handle.toNat = hSlot h && q.op ≠ .mmstat && !q.behind &&
    !(q.op = .accrd && !q.started && (z.ownerCtx ≠ q.ctx || z.ownerTag ≠ q.itag))

/-- The tile of an accumulator handle's pool is the cluster's own t15 (R184). -/
def State.accHandle (s : State) (c h : Nat) : Option Nat :=
  let t := tileIn c 15
  if hPool h = 7 && s.poolTile t h = some t then some t else none

/-- check(h) at the accumulator's pool, with its state (R177, R184). -/
def State.accCheck (s : State) (c h ctx : Nat) (held : Bool) : Option (Nat × Nat) :=
  match s.accHandle c h with
  | none => some (0x04, 0x01)
  | some t =>
    match s.checkHandle t h ctx with
    | some e => some e
    | none =>
      match s.pool t 7 with
      | none => some (0x04, 0x01)
      | some x => if held && (x.slots.getD (hSlot h) {}).st ≠ .held then some (0x02, 0x02) else none

/-- The ACCRDs that waited for a GIVE of an accumulator start in the cycle in which it becomes GIVEN, before every other
command accepted after the GIVE (R177); one whose handle does not pass its check is left to fail at its start. -/
def State.startReaders (s : State) (c slot : Nat) : State :=
  let a := (s.cluster c).array
  let z := a.pool.slots.getD slot {}
  let other (q : ArrayCmd) : Bool := z.ownerCtx ≠ q.ctx || z.ownerTag ≠ q.itag
  let go (q : ArrayCmd) : Bool :=
    q.op = .accrd && (!q.behind || other q) && hSlot q.handle.toNat = slot && (s.accCheck c q.handle.toNat q.ctx false).isNone
  let more := a.gives.any fun g => hSlot g.handle.toNat = slot
  s.setArray c { a with queue := a.queue.map fun q =>
    { q with started := q.started || go q,
             behind := q.behind && !go q && (more || hSlot q.handle.toNat ≠ slot) } }

/-! ## Operations -/

/-- The targets of a slot, from its word. -/
def State.slotTargets (s : State) (t slot : Nat) : List (Nat × BitVec 18) :=
  let w := (s.blockOf t).slots.getD slot 0
  let nt := w.extractLsb' 37 2
  s.targets t nt (w.extractLsb' 18 18) (w.extractLsb' 0 18)

/-- A fault of a pool operation (R123): a record, and a FAULT token over the pairing's tags where the operation came
from a firing. -/
def State.opFault (s : State) (o : PoolOp) (fmt : Fmt) (cause sub : Nat) : State :=
  if o.emits then
    s.slotFault o.src o.slot o.ctx (s.slotTargets o.src o.slot) fmt o.itag o.l.len o.itag.toNat cause sub o.handle.toNat 0 0
  else (s.raise (s.slotRecord o.src o.slot o.ctx o.itag.toNat cause sub o.handle.toNat 0 0)).1

/-- The result of a pool operation emitted at the issuing slot. -/
def State.opEmit (s : State) (o : PoolOp) (tok : Token) : State :=
  if o.emits then s.emit o.src o.slot o.ctx o.itag.toNat (toAll (s.slotTargets o.src o.slot) tok) else s

/-- The trigger entry of a request consumed: it holds an entry no more (R123). -/
def State.dropTrigger (s : State) (o : PoolOp) : State :=
  if o.act = .alloc || o.act = .ticket then s.updTile o.src fun x => x.delEntry o.trig else s

/-- The format of a pool operation's result (R122). -/
def PoolOp.outFmt (o : PoolOp) : Fmt :=
  match o.act with
  | .alloc => 11
  | .poolq => 11
  | .tld => o.fmt
  | _ => o.l.fmt

/-- An operation sent to the pool's tile; one that names no tile of the region fails at once (R123). -/
def State.sendOp (s : State) (o : PoolOp) : State :=
  match s.poolTile o.src o.handle.toNat with
  | none => (s.opFault o o.outFmt 0x04 0x01).dropTrigger o
  | some t => s.sendCargo o.src t 0 o.slot o.ctx (.op o)

/-- The element width a TLD or TST moves, and its bounds check (R122). -/
def slotBounds (size off len w : Nat) : Bool := off % 16 = 0 && off + len * w ≤ size

/-- Elements of a run written into a slot's bytes; absent ones leave them unchanged (R122). -/
def writeElems (m : List Host.Cell) (base w : Nat) (r : Token) : List Nat → List Host.Cell
  | [] => m
  | i :: is => writeElems (cellsSet m (base + i * w) (toBytes w (r.elem i))) base w r is

/-- The wait-list entry of an allocation or ticket request. -/
def PoolOp.req (o : PoolOp) : Req := { tile := o.src, trig := o.trig, slot := o.slot, ctx := o.ctx, itag := o.itag }

/-- Whether a request finds its wait list full, so that it stays in its input buffer (R113). -/
def State.opHeld (s : State) (t : Nat) (o : PoolOp) : Bool :=
  let p := hPool o.handle.toNat
  match o.act with
  | .alloc => (s.pool t p).any fun x => 64 ≤ x.wait.length
  | .ticket => ((s.tile t).tickets[p]?).any fun x => 64 ≤ x.wait.length
  | _ => false

/-- Whether a packet is a request for a slot or a ticket that a full wait list holds in an input buffer of its pool's tile
(R113). -/
def State.heldRequest (s : State) (p : Packet) : Bool :=
  match p.cargo, p.dest with
  | .op o, .tile t => (match p.place with
    | .input d _ => d = t
    | .door d => d = t
    | _ => false) && s.opHeld t o
  | _, _ => false

/-- One operation served at its pool's tile (R111, R122). -/
def State.serveOp (s : State) (t : Nat) (o : PoolOp) : State :=
  let h := o.handle.toNat
  let p := hPool h
  let w := fmtBytes o.fmt.toNat
  match o.act with
  | .alloc =>
    match s.pool t p with
    | none => (s.opFault o 11 0x04 0x01).dropTrigger o
    | some x =>
      if s.holdsRank t p o.ctx o.itag then (s.opFault o 11 0x03 0x01).dropTrigger o
      else (s.setPool t p { x with wait := x.wait ++ [o.req] }).grantPool t p 64
  | .ticket =>
    match (s.tile t).tickets[p]? with
    | none => (s.opFault o o.l.fmt 0x04 0x01).dropTrigger o
    | some x =>
      if s.holdsRank t 0 o.ctx o.itag then (s.opFault o o.l.fmt 0x03 0x02).dropTrigger o
      else
        (s.updTile t fun y => { y with tickets := y.tickets.set p { x with wait := x.wait ++ [o.req] } }).grantTickets t p 64
  | .retn =>
    match (s.tile t).tickets[p]? with
    | none => s.opFault o o.l.fmt 0x04 0x01
    | some _ =>
      match s.returnTicket t p o.ctx with
      | none => s.opFault o o.l.fmt 0x02 0x06
      | some s' => s'.opEmit o o.l
  | .give count =>
    match s.checkHandle t h o.ctx with
    | some (c, u) => s.opFault o o.l.fmt c u
    | none =>
      match s.pool t p with
      | none => s
      | some x =>
        if (x.slots.getD (hSlot h) {}).st ≠ .held then s.opFault o o.l.fmt 0x02 0x02
        else if p = 7 && s.accBusy t h then
          let a := (s.cluster (clusterOf t)).array
          s.setArray (clusterOf t) { a with gives := a.gives ++ [o] }
        else
          let s := s.giveSlot t h count
          (if p = 7 then s.startReaders (clusterOf t) (hSlot h) else s).opEmit o o.l
  | .release =>
    match s.checkHandle t h o.ctx with
    | some (c, u) => s.opFault o o.l.fmt c u
    | none => (s.releaseSlot t h).opEmit o o.l
  | .tst =>
    match s.checkHandle t h o.ctx with
    | some (c, u) => s.opFault o o.l.fmt c u
    | none =>
      match s.pool t p with
      | none => s
      | some x =>
        let z := x.slots.getD (hSlot h) {}
        if p = 7 then s.opFault o o.l.fmt 0x04 0x03
        else if z.st ≠ .held then s.opFault o o.l.fmt 0x02 0x02
        else if !slotBounds x.size o.offset o.l.len w then s.opFault o o.l.fmt 0x0F 0x01
        else
          let base := s.slotBase t p (hSlot h) + o.offset
          let s := s.setPool t p { x with slots := x.slots.set (hSlot h) { z with scale := o.r.scale } }
          let s := s.updTile t fun y => { y with store := writeElems y.store base w o.r ((List.range o.l.len).filter o.r.has) }
          s.opEmit o o.l
  | .tld =>
    match s.checkHandle t h o.ctx with
    | some (c, u) => s.opFault o o.fmt c u
    | none =>
      match s.pool t p with
      | none => s
      | some x =>
        let z := x.slots.getD (hSlot h) {}
        if p = 7 then s.opFault o o.fmt 0x04 0x03
        else if z.st ≠ .given then s.opFault o o.fmt 0x02 0x03
        else if !slotBounds x.size o.offset o.l.len w then s.opFault o o.fmt 0x0F 0x01
        else
          let base := s.slotBase t p (hSlot h) + o.offset
          let data := (List.range o.l.len).map fun i =>
            if o.l.has i then BitVec.ofNat 64 (ofBytes (cellsGet (s.tile t).store (base + i * w) w)) else 0
          s.opEmit o { o.l with act := .normal, fmt := o.fmt, scale := z.scale, data := data }
  | .poolq =>
    match s.poolWord t h with
    | none => s.opFault o 11 0x04 0x01
    | some v =>
      s.opEmit o { o.l with act := .normal, fmt := 11, scale := 0,
                                  data := (List.range o.l.len).map fun i => if o.l.has i then BitVec.ofNat 64 v else 0 }
  | .cancelReq =>
    let gone (q : Req) : Bool := q.tile = o.src && q.trig = o.trig
    let s := s.updTile t fun y => { y with
      pools := y.pools.map fun x => { x with wait := x.wait.filter fun q => !gone q },
      tickets := y.tickets.map fun x => { x with wait := x.wait.filter fun q => !gone q } }
    updAcc s t gone
where
  /-- The same for the wait list of `acc`. -/
  updAcc (s : State) (t : Nat) (gone : Req → Bool) : State :=
    if localOf t = 15 then
      let a := (s.cluster (clusterOf t)).array
      s.setArray (clusterOf t) { a with pool := { a.pool with wait := a.pool.wait.filter fun q => !gone q } }
    else s

/-- A grant's arrival (R119, R124): the trigger's handle run or the ticketed run is emitted; without a trigger the slot
or ticket goes back. -/
def State.takeGrant (s : State) (t : Nat) (g : Grant) : State :=
  match (s.tile t).entries.find? fun e => e.use = .trigger && e.id = g.trig with
  | some e =>
    let s := s.updTile t fun x => x.delEntry e.id
    let tok := match g.handle with
      | some h => handleRun e.tok h.toNat
      | none => e.tok
    s.emit t e.tok.slot e.tok.ctx e.tok.lo (toAll (s.slotTargets t e.tok.slot) tok)
  | none =>
    match g.handle with
    | some h => s.sendOp { act := .release, src := t, ctx := g.ctx, handle := h, emits := false }
    | none =>
      match s.regionAt t with
      | none => s
      | some r =>
        let name := mkHandle 0 g.tk (tileX g.tile - r.x0) (tileY g.tile - r.y0) 0
        s.sendOp { act := .retn, src := t, ctx := g.ctx, handle := BitVec.ofNat 32 name, emits := false }

/-! ## The events -/

/-- Whether an earlier packet has to leave a packet's buffer first: any in an output queue or on a link, any of the same
unit at a router's door, one held at the tile it is for (R90, R113), else one of the same source, destination and VC
(R331). -/
def State.behind (s : State) (i : Nat) (p : Packet) : Bool :=
  (s.net.take i).any fun q => q.place = p.place && q.vc = p.vc && (match p.place with
    | .outq _ => true
    | .link _ _ => true
    | .source _ => q.edge.slot = p.edge.slot
    | .input t _ => (q.stalled && q.dest = .tile t) || s.heldRequest q || q.edge.tile = p.edge.tile && q.dest = p.dest
    | _ => q.edge.tile = p.edge.tile && q.dest = p.dest)

/-- Whether a packet stands where it leaves the network for a unit (R278, R330; log entry 9): for the Dean and the host at the
router of its cluster, for a control core or a streamer where its t0 put it. -/
def Packet.leaves (p : Packet) : Bool :=
  match p.dest, p.place with
  | .dean _, .router _ _ => true
  | .egress _, .router _ _ => true
  | .dean _, _ => false
  | .egress _, _ => false
  | _, _ => true

/-- The packets of a virtual channel for a tile at a place, with their positions in the net. -/
def State.placed (s : State) (t vc : Nat) (pl : Place) : List (Packet × Nat) :=
  s.net.zipIdx.filter fun p => p.1.place = pl && p.1.dest = .tile t && p.1.vc = vc

/-- The packet that a restore has put in at a tile and the tile takes next (R322): each edge's in their order, and one that
waits, for want of room, only when no other can be taken (log entry 170). -/
def State.doorHead (s : State) (t vc : Nat) : Option (Packet × Nat) :=
  let ps := s.placed t vc (.door t)
  let first (p : Packet × Nat) : Bool := !(ps.any fun q => q.2 < p.2 && q.1.edge = p.1.edge)
  match ps.find? fun p => !p.1.stalled && !s.heldRequest p.1 && first p with
  | some p => some p
  | none => ps.head?

/-- The first packet of a virtual channel for a tile at one of its input ports, with its position in the net. What a restore
has put in at the tile comes before all else at its local port (R322). -/
def State.headAt (s : State) (t port vc : Nat) : Option (Packet × Nat) :=
  match if port = 0 then s.doorHead t vc else none with
  | some p => some p
  | none => (s.placed t vc (.input t port)).head?

/-- The pool operation at the head of an input port of its pool's tile: the cycle it arrived in, and its position. -/
def State.opHead (s : State) (t port : Nat) : Option (Nat × PoolOp × Nat) :=
  match s.headAt t port 0 with
  | some (p, i) => match p.cargo with
    | .op o => if p.since ≤ s.cycle then some (p.since, o, i) else none
    | _ => none
  | none => none

/-- The operation that a pool's tile serves next (R111, R113): of those at the heads of its input ports that no full
wait list holds, the one that arrived first, ports in the order local, north, east, south, west. -/
def State.nextOp (s : State) (t : Nat) : Option (PoolOp × Nat) :=
  (((List.range 5).filterMap fun q => s.opHead t q).foldl (fun (b : Option (Nat × PoolOp × Nat)) h =>
    if s.opHeld t h.2.1 then b
    else match b with
      | none => some h
      | some z => if h.1 < z.1 then some h else some z) none).map fun h => h.2

/-- The cycles that an operation takes at its pool's tile (R124). -/
def PoolOp.cycles (o : PoolOp) : Nat :=
  match o.act with
  | .tst => 1 + (o.l.len * fmtBytes o.fmt.toNat + 31) / 32
  | .tld => 1 + (o.l.len * fmtBytes o.fmt.toNat + 31) / 32
  | _ => 1

/-- POOL_OP (R111): tile u serves its next operation. -/
def execPoolOp (s : State) : Host.Outcome State Fault Refusal :=
  match s.focus with
  | .event u _ =>
    if s.cycle < (s.tile u).opAt then .next s
    else
      match s.nextOp u with
      | none => .next s
      | some (o, i) =>
        .next ((({ s with net := s.net.eraseIdx i } : State).updTile u fun x => { x with opAt := s.cycle + o.cycles }).serveOp u o)
  | _ => .next s

/-- Region-relative position of a tile. -/
def State.relPos (s : State) (t : Nat) : Nat × Nat :=
  match s.regionAt t with
  | some r => (tileX t - r.x0, tileY t - r.y0)
  | none => (0, 0)

/-- A record appended to a context's save area (R321). -/
def State.saveRec (s : State) (c : Nat) (r : SaveRec) : State :=
  s.setDean { s.dean with saves := assocSet s.dean.saves c (assocGet [] s.dean.saves c ++ [r]) }

/-- GRANT_ARRIVAL (R124): the grant at the head of tile u's input port k arrives; once a bell has come on all of the
tile's edges for its context it is recorded as channel state (R319). -/
def execGrantArrival (s : State) : Host.Outcome State Fault Refusal :=
  match s.focus with
  | .event u k =>
    match s.headAt u k 1 with
    | none => .next s
    | some (p, i) =>
      match p.cargo with
      | .grant g =>
        if s.cycle < p.since then .next s
        else
          let s : State := { s with net := s.net.eraseIdx i }
          if (s.tile u).belled g.ctx then
            let (x, y) := s.relPos u
            let (px, py) := s.relPos g.tile
            .next (s.saveRec g.ctx (.grant x y px py g))
          else .next (s.takeGrant u g)
      | _ => .next s
  | _ => .next s

end Sys2Proof.Machine
end

