-- ==== Sys2Proof/Machine/Reblk.lean ====
section
/-! DEFINITION. The re-block buffers of a converter node (R168): covering tags, and the output runs that are whole. -/

namespace Sys2Proof.Machine

/-- The lowest tag of an input that a buffer has covered already. -/
def Tile.coveredTag (x : Tile) (n : Nat) (a : Token) : Option Nat :=
  (tagsOf a.lo a.hi).find? fun t =>
    (x.rebuf a.ctx a.slot (t / n * n)).any fun b => bit b.covered.toNat (t - t / n * n)

/-- Whether a run's FMT or SCALE differs from that of a buffer it goes to; a CANCEL has neither. -/
def Tile.scaleClash (x : Tile) (n : Nat) (a : Token) : Bool :=
  a.act ≠ .cancel &&
  (outBases n a.lo a.hi).any fun base =>
    (x.rebuf a.ctx a.slot base).any fun b => b.typed && (b.fmt ≠ a.fmt || b.scale ≠ a.scale)

/-- An input's tags placed in the buffer of one output run. `id`: the pairing the input came by. -/
def ReBuf.cover (b : ReBuf) (n : Nat) (a : Token) (id : Option Nat) : ReBuf :=
  let m := BitVec.ofNat 32 (coverMask n b.base a.lo a.hi)
  let live := a.present.filter fun i => b.base ≤ a.lo + i && a.lo + i < b.base + n
  let b := { b with covered := b.covered ||| m, cancels := if a.act = .cancel then b.cancels ||| m else b.cancels,
                    fmt := if b.typed then b.fmt else a.fmt, inputs := b.inputs ++ id.toList }
  if a.act = .cancel then b
  else
    { b with scale := a.scale, typed := true,
             present := b.present ||| BitVec.ofNat 32 (live.foldl (fun k i => k + 2 ^ (a.lo + i - b.base)) 0),
             data := b.data ++ live.map fun i => (a.lo + i - b.base, BitVec.ofNat 64 (a.elem i)) }

/-- The token of an output run every tag of which is covered. -/
def ReBuf.token (b : ReBuf) (n : Nat) : Token :=
  let bare : Token := { act := .cancel, fmt := b.fmt, len := n, ctx := b.ctx, itag := BitVec.ofNat 32 b.base }
  if b.cancels = fullMask n then bare
  else if b.present = 0 then { bare with act := .empty, scale := b.scale }
  else
    { bare with act := .normal, scale := b.scale, mask := b.present,
                data := (List.range n).map fun i => ((b.data.find? fun v => v.1 = i).map fun v => v.2).getD 0 }

/-- The tokens of whole output runs among some, ascending, and the tile without their buffers. -/
def Tile.wholeRuns (x : Tile) (c slot n : Nat) (bases : List Nat) : List Token × Tile :=
  let whole (b : ReBuf) : Bool := b.ctx = c && b.slot = slot && bases.contains b.base && b.covered = fullMask n
  ((x.rebufs.filter whole).insertionSort (fun a b => a.base ≤ b.base) |>.map fun b => b.token n,
   { x with rebufs := x.rebufs.filter fun b => !whole b })

/-- An input placed in its buffers, new ones among them. -/
def Tile.coverAll (x : Tile) (n : Nat) (a : Token) (id : Option Nat) : Tile :=
  (outBases n a.lo a.hi).foldl (fun (y : Tile) base =>
    let b := (y.rebuf a.ctx a.slot base).getD { ctx := a.ctx, slot := a.slot, base := base }
    { y with rebufs := (y.rebufs.filter fun z => !(z.ctx = a.ctx && z.slot = a.slot && z.base = base)) ++ [b.cover n a id] }) x

/-- A fault of a converter node (R170): one record, and a FAULT token over the input's tags. -/
def State.nodeFault (s : State) (t : Nat) (a : Token) (slot : Nat) (fmt : Fmt) (tag cause sub : Nat) : State :=
  let (s, seq, _) := s.raise { s.slotRecord t slot a.ctx tag cause sub 0 0 0 with source := 4, unit := 0 }
  s.emit t slot a.ctx a.lo (toAll (s.slotTargets t slot) (faultToken fmt a.ctx a.itag a.len cause sub false 0 seq))

/-- A run, an EMPTY or a CANCEL taken in at a REBLK slot whose output runs have n tags (R168); a Collision freezes the
region (R21). -/
def State.reblock (s : State) (t slot n : Nat) (a : Token) (id : Option Nat) : State :=
  let a := { a with slot := slot }
  let x := s.tile t
  match x.coveredTag n a with
  | some tag => (s.nodeFault t a slot a.fmt tag 0x01 0x00).freezeRegion t
  | none =>
    if x.scaleClash n a then s.nodeFault t a slot a.fmt a.lo 0x0B 0x03
    else
      let (toks, y) := (x.coverAll n a id).wholeRuns a.ctx slot n (outBases n a.lo a.hi)
      toks.foldl (fun (z : State) tok => z.emit t slot a.ctx tok.lo (toAll (z.slotTargets t slot) tok)) (s.setTile t y)

end Sys2Proof.Machine
end

