-- ==== Sys2Proof/Machine/Arrive.lean ====
section
/-! DEFINITION. A token's arrival at a tile (R89 to R101, R105): admission, its effects, and the arrival of bells and of
tokens after a tile's save point (R319, R320). -/

namespace Sys2Proof.Machine

/-! ## Effects of an arrival -/

/-- A CANCEL over tags sent to every target of a slot (R99). -/
def State.sendCancel (s : State) (t slot c : Nat) (fmt : Fmt) (r : Nat × Nat) : State :=
  let tok : Token := { act := .cancel, fmt := fmt, len := r.2 - r.1, ctx := c, itag := BitVec.ofNat 32 r.1 }
  s.emit t slot c r.1 (toAll (s.slotTargets t slot) tok)

/-- The element of a discarded run that a firing of its slot would have used after R96: the lowest present one, K15 in
place of an absent element 0 under REPLACE; none for a FAULT run, whose firing does nothing at the pool (R98, R122). -/
def State.usedElem (s : State) (t : Nat) (a : Token) : Option Nat :=
  if a.act = .fault then none
  else if !a.has 0 && (unpackD ((s.blockOf t).slots.getD a.slot 0)).el = 2 then some (s.konst t 15)
  else a.present.head?.map a.elem

/-- A discarded run's handle or ticket given up (R119), with the effect that a firing has. -/
def State.releaseRun (s : State) (t : Nat) (i : SlotInfo) (a : Token) : State :=
  if 0x11 ≤ i.op && i.op ≤ 0x14 then
    match s.usedElem t a with
    | none => s
    | some h => s.sendOp { act := .release, src := t, slot := a.slot, ctx := a.ctx, itag := a.itag, l := a,
                           handle := BitVec.ofNat 32 h, emits := false }
  else if i.op = 0x16 && (s.usedElem t a).isSome then
    s.sendOp { act := .retn, src := t, slot := a.slot, ctx := a.ctx, itag := a.itag, l := a,
               handle := BitVec.ofNat 32 i.k, emits := false }
  else s

/-- A withdrawn trigger's request leaves its wait list (R119). -/
def State.withdraw (s : State) (t : Nat) (i : SlotInfo) (e : Entry) : State :=
  s.sendOp { act := .cancelReq, src := t, slot := e.tok.slot, ctx := e.tok.ctx, itag := e.tok.itag, trig := e.id, l := e.tok,
             handle := BitVec.ofNat 32 i.k, emits := false }

/-- The effects of an arrival applied: Illegal Order faults (R159), cancels passed on, releases and withdrawals. -/
def State.applyEffects (s : State) (t : Nat) (i : SlotInfo) (slot c : Nat) (fmt : Fmt) (f : Effects) : State :=
  let s := f.orders.foldl (fun (z : State) a =>
    z.slotFault t slot c (z.slotTargets t slot) a.fmt a.itag a.len a.lo 0x0B 0x04 0 0 0) s
  let s := f.cancels.foldl (fun (z : State) r => z.sendCancel t slot c fmt r) s
  let s := f.released.foldl (fun (z : State) a => z.releaseRun t i a) s
  f.triggers.foldl (fun (z : State) e => z.withdraw t i e) s

/-! ## Dropped stickies met by pairings (R241, R242) -/

/-- A pairing with a value in place of a sticky. -/
def Pairing.give (p : Pairing) (id : Nat) (v : Token) : Pairing :=
  let put (o : Operand) : Operand := if o = .stick id then .held v else o
  { p with l := put p.l, r := put p.r }

/-- A replay fault at the pairings formed against a record (R242): for each one record, with bit 7 of the subcode set, and
a FAULT run in the sticky's place, which its firing passes on to the slot's targets (R98). -/
def State.replayFault (s : State) (t : Nat) (d : DropRec) (cause sub : Nat) : State :=
  let r := (s.tile t).pairings.foldl (fun (z : State × List Pairing) p =>
    if p.uses d.id then
      let (y, seq, _) := z.1.raise { s.slotRecord t p.slot p.ctx p.itag.toNat cause (sub + 128) 0 0 0 with source := 7 }
      (y, z.2 ++ [p.give d.id (faultToken d.tok.fmt p.ctx p.itag p.len cause (sub + 128) false 0 seq)])
    else (z.1, z.2 ++ [p])) (s, [])
  r.1.updTile t fun x => { x with pairings := r.2 }

/-- Pairings formed against drop-table records: a poisoned record faults them, any other is asked for a replay once
(R241, R242). -/
def State.wantReplays (s : State) (t : Nat) : State :=
  (s.tile t).drops.foldl (fun (z : State) d =>
    let x := z.tile t
    if !(x.pairings.any fun p => p.uses d.id) then z
    else
      match d.poisoned with
      | some (c, u) => z.replayFault t d c u
      | none => if x.replayQ.contains d.id then z else z.setTile t { x with replayQ := x.replayQ ++ [d.id] }) s

/-! ## Bells (R319, R320) -/

/-- The tiles that a tile's slots send to. -/
def State.fanTiles (s : State) (t : Nat) : List Nat :=
  ((List.range (s.blockOf t).slots.length).flatMap fun k =>
    (s.slotTargets t k).filterMap fun g => match s.resolve t g.2 with
      | some (.tile d, _) => some d
      | _ => none).dedup

/-- The tiles reachable by paths of edges. -/
def State.reach (s : State) : Nat → List Nat → List Nat → List Nat
  | 0, _, seen => seen
  | fuel + 1, frontier, seen =>
    let new := ((frontier.flatMap s.fanTiles).dedup).filter fun t => !seen.contains t
    if new.isEmpty then seen else s.reach fuel new (seen ++ new)

/-- Whether an edge counts toward a tile's INDEG: not when its source can be reached from the tile (R319). -/
def State.countedEdge (s : State) (t : Nat) (e : Edge) : Bool :=
  32 ≤ e.slot || !((s.reach 8192 [t] []).contains e.tile)

/-- A token recorded as channel state (R319). -/
def State.recordChannel (s : State) (t : Nat) (p : Packet) : State :=
  let (x, y) := s.relPos t
  s.saveRec p.tok.ctx (.channel x y p.edge p.tok)

/-- A Registrar whose auction a bell stopped goes on with it when the bell fails (log entry 168). -/
def Registrar.unbelled (x : Registrar) (c : Nat) : Registrar :=
  if x.owner = some c && x.auction.any (fun a => a.belled) then
    { x with state := .running, auction := x.auction.map fun a => { a with belled := false } }
  else x

/-- BellProtocol (R21, R320): a record, and the region FROZEN, the context's save area as it stands. An auction that the bell
stopped runs on (log entry 168). -/
def State.bellProtocol (s : State) (t c sub : Nat) : State :=
  let (s, _, _) := s.raise { cause := 0x11, sub := sub, ctx := c, tenant := (s.ctx c).tenant, source := 8, x := tileX t, y := tileY t }
  let s := s.clusters.foldl (fun (z : State) d => z.setRegistrar d.1 ((z.cluster d.1).registrar.unbelled c)) s
  ((s.freezeImage (s.ctx c).image).freeze c .fault).bellOver c

/-- The bell state of a tile for a context. -/
def Tile.bellOf (x : Tile) (c : Nat) : TileBell := (x.bells.find? fun b => b.ctx = c).getD { ctx := c }
def Tile.setBell (x : Tile) (b : TileBell) : Tile := { x with bells := (x.bells.filter fun y => y.ctx ≠ b.ctx) ++ [b] }

/-- At step 1 of a save the context's tokens that wait in the tile's input buffers are recorded (R319). -/
def State.drainInputs (s : State) (t c : Nat) : State :=
  let mine (p : Packet) : Bool :=
    p.tok.ctx = c && p.cargo = .token && p.tok.act ≠ .bell && p.dest = .tile t && (match p.place with
      | .input d _ => d = t
      | .door d => d = t
      | _ => false)
  let s' := { s with net := s.net.filter fun p => !mine p }
  (s.net.filter mine).foldl (fun (z : State) p => z.recordChannel t p) s'

/-- A bell's arrival at a tile on an edge (R319, R320). -/
def State.bellArrives (s : State) (t : Nat) (e : Edge) (c : Nat) : State :=
  let x := s.tile t
  let b := x.bellOf c
  if !s.countedEdge t e then s.setTile t (x.setBell { b with ended := b.ended ++ [e] })
  else if b.edges.contains e then
    if b.saved then s else s.bellProtocol t c 0x01
  else
    let edges := b.edges ++ [e]
    let due := b.due || (s.blockOf t).indeg ≤ edges.length
    let s' := s.setTile t (x.setBell { b with edges := edges, due := due })
    if due && !b.due then s'.drainInputs t c else s'

/-! ## The arrival of one packet -/

/-- What comes of an arrival: taken from its buffer, or held there, after a Collision or for want of room. -/
inductive Arrival where
  | taken (s : State)
  | held (s : State) (collided : Bool)

/-- Whether a context's tokens may be delivered to slots (R21, R324): LIVE, or FROZEN. -/
def Ctx.delivers (x : Ctx) : Bool := x.st = .live || x.st = .frozen

/-- A token at the head of a tile's input buffer, the packet already out of the net (R89 to R101, R319). A CANCEL at a REBLK
slot waits in its buffer while its node lacks the re-block buffers that it needs (log entry 161). -/
def State.arrive (s : State) (t : Nat) (p : Packet) : Arrival :=
  let a := p.tok
  let c := a.ctx
  let x := s.tile t
  let i := s.slotInfo t a.slot
  if a.act = .bell then .taken (s.bellArrives t p.edge c)
  else if x.savedFor c || x.belled c && s.countedEdge t p.edge then .taken (s.recordChannel t p)
  else if !(s.ctx c).delivers then .taken s
  else if i.op = 0x0F && (a.act = .cancel || a.act = .purge || a.act = .sticky) then
    .taken (s.postAll t a.slot (toAll (s.slotTargets t a.slot) a))
  else if a.act = .purge then .taken (s.setTile t (x.purge c a.slot a.port))
  else if a.act = .cancel && i.op = 0xB1 then
    if s.buffersFor t a.slot a then .taken (s.reblock t a.slot (s.blockLen t a.slot) a none) else .held s false
  else
    let frozen := (s.ctx c).st = .frozen
    if p.collided && frozen then .held s true
    else
      match if a.act = .cancel then none else x.collides i a with
      | some tag =>
        let (s, _, _) := s.raise (s.slotRecord t a.slot c tag 0x01 a.port 0 0 0)
        .held (s.freezeRegion t) true
      | none =>
        let act (y : Tile) : Tile × Effects := if a.act = .cancel then y.cancel s.cycle i a else y.take s.cycle i a
        match Tile.admission act (Config.matchEntries + 1) x with
        | (y, none) => .held (s.setTile t y) false
        | (y, some f) => .taken (((s.setTile t y).wantReplays t).applyEffects t i a.slot c a.fmt f)

/-- The first token for a tile at one of its input ports, with its position in the net. -/
def State.inputHead (s : State) (t port : Nat) : Option (Packet × Nat) := s.headAt t port 2

/-- Whether a token that waits at a tile, at a position in the net, would be taken now. -/
def State.goesNow (s : State) (t : Nat) (p : Packet) (i : Nat) : Bool :=
  match ({ s with net := s.net.eraseIdx i }).arrive t p with
  | .taken _ => true
  | .held _ _ => false

/-- A dropped sticky's value going back in (R90, R241): the record leaves its table, the entry takes its number. -/
def Tile.readmission (d : DropRec) (tok : Token) (now : Nat) (y : Tile) : Tile × Effects :=
  ({ y with drops := y.drops.filter fun e => e.id ≠ d.id,
            entries := y.entries ++ [{ id := d.id, use := .sticky, tok := tok, lastRead := now }] }, {})

/-- Whether a tile's replay unit may work for a context: not while it is stopped (R234; log entry 141). -/
def State.replays (s : State) (c : Nat) : Bool := (s.ctx c).st = .live

/-- Whether a replayed value that waits at a tile is admitted before a packet (R90): it came earlier, and the packet waits
too, or the value would go in now. -/
def State.replayBefore (s : State) (t : Nat) (p : Packet) : Bool :=
  let x := s.tile t
  match x.rrun, x.rcur.bind fun id => x.drops.find? fun d => d.id = id with
  | some tok, some d =>
    s.replays d.tok.ctx && x.rsince < p.since &&
      (p.stalled || (Tile.admission (Tile.readmission d tok s.cycle) (Config.matchEntries + 1) x).2.isSome)
  | _, _ => false

/-- Whether the head of input port `q` is admitted before packet `p` at port `k` (R90): it arrived earlier, or in the same
cycle at an earlier port of local, north, east, south, west; one that waits holds back only others that wait, and, where it
would now be taken, any. -/
def State.headBefore (s : State) (t q : Nat) (p : Packet) (k : Nat) : Bool :=
  match s.inputHead t q with
  | some (z, i) =>
    !z.collided && (z.since < p.since || z.since = p.since && q < k) && (!z.stalled || p.stalled || s.goesNow t z i)
  | none => false

/-- Whether a packet is held back by what a restore has put in at its tile for its context, which comes first (R322). -/
def State.doorBefore (s : State) (t : Nat) (p : Packet) : Bool :=
  p.place ≠ .door t && (s.placed t 2 (.door t)).any fun z => z.1.tok.ctx = p.tok.ctx

/-- TOKEN_ARRIVAL (R89, R90): the head token of tile u's input port k (0 local, 1 north, 2 east, 3 south, 4 west) is
admitted, or waits, in the order of R90. -/
def execTokenArrival (s : State) : Host.Outcome State Fault Refusal :=
  match s.focus with
  | .event u k =>
    match s.inputHead u k with
    | none => .next s
    | some (p, i) =>
      if s.cycle < p.since || s.doorBefore u p || s.replayBefore u p || (List.range 5).any fun q => s.headBefore u q p k then .next s
      else
        match ({ s with net := s.net.eraseIdx i }).arrive u p with
        | .taken s' => .next s'
        | .held s' hit => .next { s' with net := s'.net.insertIdx i { p with stalled := true, collided := hit } }
  | _ => .next s

end Sys2Proof.Machine
end

