-- ==== Sys2Proof/Machine/Operands.lean ====
section
/-! DEFINITION. The operands of a firing (R96 to R98, R145 to R148): pieces over the pairing's tags, the empty
policies, FAULT operands, the scale rules, and the result of a firing that computes element by element. -/

namespace Sys2Proof.Machine

/-! ## A firing -/

/-- A fabric instruction's meaning at the firing that the focus names. -/
def firing (s : State) (f : Nat → Pairing → State) : Host.Outcome State Fault Refusal :=
  match s.focus with
  | .firing t p => .next (f t p)
  | _ => .refused .noFiring

/-- The value of a taken operand. -/
def Operand.value : Operand → Token
  | .run t => t
  | .held t => t
  | _ => {}

/-- Whether an operand is there. -/
def Operand.given : Operand → Bool
  | .none => false
  | _ => true

/-- An operand over a pairing's tags (R93): element i of the pairing meets element i of a sticky, and elements past a
sticky's own length are absent. -/
def Token.over (t : Token) (p : Pairing) : Token :=
  { t with act := if t.act = .sticky then .normal else t.act, ctx := p.ctx, itag := p.itag, len := p.len,
           mask := BitVec.ofNat 32 (t.mask.toNat % 2 ^ min t.len p.len), drp := false, crib := 0 }

/-- The operands of a pairing over its tags. -/
def Pairing.left (p : Pairing) : Token := p.l.value.over p
def Pairing.right (p : Pairing) : Token := p.r.value.over p

/-- The tile's datapath held for `n` cycles from the firing (R143): no other firing starts before. -/
def State.hold (s : State) (t n : Nat) : State := s.updTile t fun x => { x with lastRound := s.cycle + (n - 1) }

/-- A FAULT operand passed on (R98): the same payload over the pairing's tags, to every target, and no new record. -/
def State.passFault (s : State) (t : Nat) (p : Pairing) (ts : List (Nat × BitVec 18)) (fmt : Fmt) (a : Token) : State :=
  s.emit t p.slot p.ctx p.itag.toNat (toAll ts
    { act := .fault, fmt := fmt, len := p.len, ctx := p.ctx, itag := p.itag, mask := fullMask p.len, data := a.data })

/-- A fault of a firing (R161): one record giving `tag`, and FAULT tokens over the pairing's tags. -/
def State.fireFault (s : State) (t : Nat) (p : Pairing) (ts : List (Nat × BitVec 18)) (fmt : Fmt) (tag cause sub : Nat) : State :=
  s.slotFault t p.slot p.ctx ts fmt p.itag p.len tag cause sub 0 0 0

/-- An Empty fault (R97, R161): the record gives the pairing's lowest tag, and in its address field the lowest faulting
tag (log entry 134). -/
def State.emptyFault (s : State) (t : Nat) (p : Pairing) (ts : List (Nat × BitVec 18)) (fmt : Fmt) (tag : Nat) : State :=
  s.slotFault t p.slot p.ctx ts fmt p.itag p.len p.itag.toNat 0x0A 0x00 tag 0 0

/-- Flags ORed into the context's mode word (R133). -/
def State.addFlags (s : State) (c fl : Nat) : State :=
  s.updCtx c fun x => { x with mode := x.mode ||| BitVec.ofNat 32 fl }

/-! ## Empty policies (R96) -/

/-- An element of an operand, if present. -/
def Token.lane (t : Token) (i : Nat) : Option Nat := if t.has i then some (t.elem i) else none

/-- R96 for one tag: the two elements and whether an absence is a FORWARD one; none when rule 2 raises Empty. The
policies are 0 ABSORB, 1 FORWARD, 2 REPLACE, 3 FAULT (R32). `each` is the rule of R146 for reads across lanes, where
each operand's element follows its own policy. -/
def policy (each : Bool) (el er : Nat) (kl kr : Nat) (x y : Option Nat) : Option (Option Nat × Option Nat × Bool) :=
  let ps := (if x = none then [el] else []) ++ (if y = none then [er] else [])
  if ps.contains 3 then none
  else
    let fill (pol k : Nat) : Option Nat → Option Nat
      | none => if if each then pol = 2 else ps.all (fun q => q = 2) then some k else none
      | v => v
    some (fill el kl x, fill er kr y, ps.contains 1)

/-- What a firing computes on: its operands over the pairing's tags, the elements that R96 leaves, whether an element is
absent under FORWARD, the constant K with its scale (not 0 in a recipe alone, R238), and the mode word. -/
structure Lanes where
  l    : Token
  r    : Token
  x    : List (Option Nat)
  y    : List (Option Nat)
  fwd  : Bool
  k    : Nat
  ks   : Int := 0
  mode : Nat
  deriving DecidableEq, Repr

def Lanes.sl (z : Lanes) : Int := z.l.scale.toInt
def Lanes.sr (z : Lanes) : Int := z.r.scale.toInt

/-- R96 over all tags of a pairing, from the highest down; the lowest faulting index on an Empty fault. -/
def lanesFrom (each : Bool) (el er kl kr : Nat) : List (Option Nat × Option Nat) → Nat → Except Nat (List (Option Nat) × List (Option Nat) × Bool)
  | [], _ => .ok ([], [], false)
  | (x, y) :: rest, i =>
    match policy each el er kl kr x y with
    | none => .error i
    | some (x', y', f) =>
      match lanesFrom each el er kl kr rest (i + 1) with
      | .error j => .error j
      | .ok (xs, ys, g) => .ok (x' :: xs, y' :: ys, f || g)

/-- The right elements of a firing: Rt's, the constant at the slot's width in every lane (R148), or, in a unary form,
a present zero. -/
def rightLane (w : DWord) (two : Bool) (k : Nat) (r : Token) (i : Nat) : Option Nat :=
  if !two then some 0
  else if w.kr = 1 then some (k % 2 ^ fmtBits w.fmt.toNat)
  else r.lane i

/-- A firing of a slot word in the default layout with R98 and R96 applied; `out` is the result's format. Where both operands
are FAULT runs, the payload passed on is L's (log entry 131). The checks of `ok` come before R96 (R145); their failure is the
fault it names. -/
def State.withLanes (s : State) (t : Nat) (p : Pairing) (w : DWord) (two : Bool) (out : Fmt) (held : Nat)
    (ok : Token → Token → Option (Nat × Nat)) (body : State → List (Nat × BitVec 18) → Lanes → State)
    (each : Bool := false) : State :=
  let ts := s.targets t w.nt w.t1 w.t0
  let l := p.left
  let r := p.right
  let both := two && w.kr = 0
  let s := s.hold t held
  if l.act = .fault then s.passFault t p ts out l
  else if both && r.act = .fault then s.passFault t p ts out r
  else
    match ok l r with
    | some (c, u) => s.fireFault t p ts out p.itag.toNat c u
    | none =>
      let k := s.konst t w.kidx.toNat
      let k15 := s.konst t 15
      let pairs := (List.range p.len).map fun i => (l.lane i, rightLane w two k r i)
      match lanesFrom each w.el.toNat w.er.toNat (k15 % 2 ^ fmtBits l.fmt.toNat) (k15 % 2 ^ fmtBits r.fmt.toNat) pairs 0 with
      | .error i => s.emptyFault t p ts out (p.itag.toNat + i)
      | .ok (xs, ys, f) =>
        body s ts { l := l, r := r, x := xs, y := ys, fwd := f, k := k, mode := (s.ctx p.ctx).mode.toNat }

/-! ## Results (R97) -/

/-- A result run: format, scale, elements, and whether an absence is of the instruction's own doing. -/
structure Res where
  fmt   : Fmt := 0
  scale : Int := 0
  vals  : List (Option Nat) := []
  own   : Bool := false
  deriving DecidableEq, Repr

/-- The mask of a list of elements. -/
def maskOf : List (Option Nat) → Nat
  | [] => 0
  | v :: vs => (if v.isSome then 1 else 0) + 2 * maskOf vs

/-- A result as a token over tags from `itag` (R97): an EMPTY over `len` tags, or nothing, where no element is
present. -/
def Res.tokenAt (r : Res) (c : Nat) (itag : BitVec 32) (len : Nat) (fwd : Bool) : Option Token :=
  if r.vals.all fun v => v = none then
    if fwd || r.own then
      some { act := .empty, fmt := r.fmt, len := len, scale := BitVec.ofInt 8 r.scale, ctx := c, itag := itag }
    else none
  else
    some { act := .normal, fmt := r.fmt, len := r.vals.length, scale := BitVec.ofInt 8 r.scale, ctx := c,
           itag := itag, mask := BitVec.ofNat 32 (maskOf r.vals),
           data := r.vals.map fun v => BitVec.ofNat 64 (v.getD 0) }

/-- A result as a token at a pairing's ITAG. -/
def Res.token (r : Res) (p : Pairing) (fwd : Bool) : Option Token := r.tokenAt p.ctx p.itag p.len fwd

/-- Whether a run passes the last tag (R17). -/
def Token.wraps (t : Token) : Bool := (t.act = .normal || t.act = .sticky || t.act = .empty) && 2 ^ 32 < t.lo + t.len

/-- The tokens of a firing emitted; where a run among them would pass the last tag, TagWrap in their place (R17, R104). -/
def State.emitRuns (s : State) (t : Nat) (p : Pairing) (ts : List (Nat × BitVec 18)) (fmt : Fmt) (outs : List Out) : State :=
  if outs.any fun o => o.tok.wraps then s.fireFault t p ts fmt p.itag.toNat 0x0B 0x05
  else s.emit t p.slot p.ctx p.itag.toNat outs

/-- One run of a firing to every target of its slot, or TagWrap in its place (R17). -/
def State.emitRun (s : State) (t : Nat) (p : Pairing) (ts : List (Nat × BitVec 18)) (tok : Token) : State :=
  if tok.wraps then s.fireFault t p ts tok.fmt p.itag.toNat 0x0B 0x05
  else s.emit t p.slot p.ctx p.itag.toNat (toAll ts tok)

/-- A result emitted to targets. -/
def State.emitRes (s : State) (t : Nat) (p : Pairing) (ts : List (Nat × BitVec 18)) (fwd : Bool) (r : Res) : State :=
  match r.token p fwd with
  | none => s
  | some tok => s.emitRun t p ts tok

/-! ## Formats and scales (R145, R147) -/

def illFormat : Nat × Nat := (0x0B, 0x02)
def illScale : Nat × Nat := (0x0B, 0x03)

/-- R145's default check: both operands in the slot's FMT; a constant is not checked. -/
def sameFmt (w : DWord) (two : Bool) (l r : Token) : Option (Nat × Nat) :=
  if l.fmt ≠ w.fmt then some illFormat
  else if two && w.kr = 0 && r.fmt ≠ w.fmt then some illFormat
  else none

/-- L in the slot's FMT and Rt in a set of formats. -/
def rightFmt (w : DWord) (set : Nat → Bool) (l r : Token) : Option (Nat × Nat) :=
  if l.fmt ≠ w.fmt then some illFormat
  else if w.kr = 0 && !set r.fmt.toNat then some illFormat
  else none

/-- The scale rules of R147 (`none` for a right scale: the operand is a constant). -/
inductive ScaleRule where
  | left
  | eq
  | eqZero
  | sum (extra : Int)
  | diff
  | zero
  deriving DecidableEq, Repr

/-- A scale in range, or none. -/
def scaleIn (z : Int) : Option Int := if -128 ≤ z && z ≤ 127 then some z else none

/-- The result's scale under a rule (R147); none raises Illegal Scale. -/
def ScaleRule.apply : ScaleRule → Int → Option Int → Option Int
  | .left, l, _ => some l
  | .eq, l, r => if r.all fun z => z = l then some l else none
  | .eqZero, l, r => if r.all fun z => z = l then some 0 else none
  | .sum x, l, r => scaleIn (l + r.getD 0 + x)
  | .diff, l, r => scaleIn (l - r.getD 0)
  | .zero, _, _ => some 0

/-! ## Occupancy (R142, R143) -/

/-- Lane groups of a run. -/
def groupsOf (fmt len : Nat) : Nat :=
  let lanes := if fmtBytes fmt = 0 then 8 else 32 / fmtBytes fmt
  (len + lanes - 1) / lanes

/-- The classes of R143. -/
inductive Hold where
  | simple
  | multiply
  | divide
  | transcendental
  | reduce
  | permute
  deriving DecidableEq, Repr

/-- Cycles for which an instruction holds the datapath. -/
def Hold.cycles (h : Hold) (fmt len : Nat) : Nat :=
  let g := groupsOf fmt len
  let wide := fmtBytes fmt = 8
  match h with
  | .simple => g
  | .multiply => if wide then 2 * g else g
  | .divide => if wide then 16 * g else 8 * g
  | .transcendental => 4 * g
  | .reduce => g + 5
  | .permute => 2

/-! ## Element by element -/

/-- An instruction that computes each result element from the two elements of its tag: the form, R145's check, R147's
rule, the result's format, R143's class, and the element's value with its flags (none: made absent). -/
structure LaneOp where
  two  : Bool := true
  ok   : Token → Token → Option (Nat × Nat)
  rule : ScaleRule
  out  : Fmt
  cls  : Hold := .simple
  f    : Lanes → Nat → Nat → Option Nat × Nat

/-- The elements of a result and the OR of their flags. -/
def mapLanes (f : Nat → Nat → Option Nat × Nat) : List (Option Nat) → List (Option Nat) → List (Option Nat) × Nat
  | x :: xs, y :: ys =>
    let (vs, fl) := mapLanes f xs ys
    match x, y with
    | some a, some b => let (v, g) := f a b; (v :: vs, g ||| fl)
    | _, _ => (none :: vs, fl)
  | _, _ => ([], 0)

/-- Whether an element that both operands hold is absent from the result: the instruction's own doing (R97). -/
def ownAbsence : List (Option Nat) → List (Option Nat) → List (Option Nat) → Bool
  | x :: xs, y :: ys, v :: vs => (x.isSome && y.isSome && v.isNone) || ownAbsence xs ys vs
  | _, _, _ => false

/-- The firing of an element-wise instruction (R145 to R148, R161). -/
def State.lanewise (s : State) (t : Nat) (p : Pairing) (w : DWord) (o : LaneOp) : State :=
  s.withLanes t p w o.two o.out (o.cls.cycles w.fmt.toNat p.len) o.ok fun s ts z =>
    match o.rule.apply z.sl (if o.two && w.kr = 0 then some z.sr else none) with
    | none => s.fireFault t p ts o.out p.itag.toNat illScale.1 illScale.2
    | some sc =>
      let (vs, fl) := mapLanes (o.f z) z.x z.y
      (s.addFlags p.ctx fl).emitRes t p ts z.fwd
        { fmt := o.out, scale := sc, vals := vs, own := ownAbsence z.x z.y vs }

end Sys2Proof.Machine
end

