-- ==== Sys2Proof/Machine/Dataflow.lean ====
section
/-! DEFINITION. The dataflow control instructions (R102 to R105). -/

namespace Sys2Proof.Machine

/-- A firing that reads L alone, in any format (R103): held for one cycle (R105). -/
def State.onLeft (s : State) (t : Nat) (p : Pairing) (w : DWord) (out : Fmt)
    (body : State → List (Nat × BitVec 18) → Lanes → State) : State :=
  s.withLanes t p w false out 1 (fun _ _ => none) body

/-- A firing that reads both operands, in any formats (R103). -/
def State.onBoth (s : State) (t : Nat) (p : Pairing) (w : DWord)
    (body : State → List (Nat × BitVec 18) → Lanes → State) : State :=
  s.withLanes t p w true p.left.fmt 1 (fun _ _ => none) body

/-- A result as L, with elements of its own (R103). -/
def Lanes.asL (z : Lanes) (vals : List (Option Nat)) : Res := { fmt := z.l.fmt, scale := z.sl, vals := vals }

/-- L's elements where Rt holds one too: the MASK that R96 gives. -/
def Lanes.both (z : Lanes) : List (Option Nat) :=
  List.zipWith (fun x y : Option Nat => if y.isSome then x else none) z.x z.y

/-- L emitted to every target (PASS). -/
def State.passLeft (s : State) (t : Nat) (p : Pairing) (w : DWord) : State :=
  s.onLeft t p w p.left.fmt fun s ts z => s.emitRes t p ts z.fwd (z.asL z.x)

/-- A token of no elements over a pairing's tags. -/
def bareToken (act : Act) (fmt : Fmt) (p : Pairing) : Token :=
  { act := act, fmt := fmt, len := p.len, ctx := p.ctx, itag := p.itag }

/-- A part of L as a run of its own, as R97 gives it. -/
def partRun (p : Pairing) (z : Lanes) (a n : Nat) : Option Token :=
  (z.asL ((z.x.drop a).take n)).tokenAt p.ctx (p.itag + BitVec.ofNat 32 a) n z.fwd

/-- A part of L for one target of a slot. -/
def partOut (p : Pairing) (z : Lanes) (ix : Nat) (tgt : BitVec 18) (a n : Nat) : List Out :=
  (partRun p z a n).toList.map fun tok => { ix := ix, tgt := tgt, tok := tok }

def execSink (w : DWord) (s : State) : Host.Outcome State Fault Refusal :=
  firing s fun t p => s.onLeft t p w p.left.fmt fun s _ _ => s

def execPass (w : DWord) (s : State) : Host.Outcome State Fault Refusal :=
  firing s fun t p => s.passLeft t p w

def execFanout (w : DWord) (s : State) : Host.Outcome State Fault Refusal :=
  firing s fun t p => s.onLeft t p w p.left.fmt fun s ts z => s.emitRes t p ts z.fwd (z.asL z.x)

/-- One side of a STEER: L under a predicate, or a CANCEL over the pairing's tags where no element is left. -/
def steerSide (p : Pairing) (z : Lanes) (taken : Nat → Bool) : Token :=
  let vals := List.zipWith (fun x y : Option Nat => match x, y with
    | some a, some b => if taken b then some a else none
    | _, _ => none) z.x z.y
  match (z.asL vals).token p false with
  | some tok => tok
  | none => bareToken .cancel z.l.fmt p

/-- STEER: the predicate is Rt's raw bits. -/
def execSteer (w : DWord) (s : State) : Host.Outcome State Fault Refusal :=
  firing s fun t p => s.onBoth t p w fun s ts z =>
    s.emitRuns t p ts z.l.fmt
      [{ ix := 0, tgt := w.t0, tok := steerSide p z fun b => b ≠ 0 },
       { ix := 1, tgt := w.t1, tok := steerSide p z fun b => b = 0 }]

/-- MERGE: the run that arrived, on either port, unchanged. -/
def execMerge (w : DWord) (s : State) : Host.Outcome State Fault Refusal :=
  firing s fun t p =>
    let a := if p.l.given then p.left else p.right
    (s.hold t 1).emitRun t p (s.targets t w.nt w.t1 w.t0) a

def execSync (w : DWord) (s : State) : Host.Outcome State Fault Refusal :=
  firing s fun t p => s.onBoth t p w fun s ts z => s.emitRes t p ts z.fwd (z.asL z.both)

/-- EMIT: K's low bits at the FMT width in every present element, in a run of L's LEN whatever FMT's longest is (log entry
82). -/
def execEmit (w : DWord) (s : State) : Host.Outcome State Fault Refusal :=
  firing s fun t p => s.onLeft t p w w.fmt fun s ts z =>
    s.emitRes t p ts z.fwd
      { fmt := w.fmt, vals := z.x.map fun x => x.map fun _ => z.k % 2 ^ fmtBits w.fmt.toNat }

/-- RETAG: Rt's element 0 as the base ITAG; absent, it raises Empty whatever ER says. An EMPTY leaves over the new tags, as a
run would (log entry 132). -/
def execRetag (w : DWord) (s : State) : Host.Outcome State Fault Refusal :=
  firing s fun t p =>
    let absent (_ r : Token) : Option (Nat × Nat) := if r.has 0 then none else some (0x0A, 0x00)
    s.withLanes t p w true p.left.fmt 1 absent fun s ts z =>
      let base := z.r.elem 0 % 2 ^ 32
      if 2 ^ 32 < base + p.len then s.fireFault t p ts p.left.fmt p.itag.toNat 0x0B 0x05
      else
        match (z.asL z.both).tokenAt p.ctx (BitVec.ofNat 32 base) p.len z.fwd with
        | none => s
        | some tok => s.emit t p.slot p.ctx p.itag.toNat (toAll ts tok)

/-- STICK: L as a sticky, pinned, or droppable with recipe K[3:0]. -/
def execStick (w : DWord) (s : State) : Host.Outcome State Fault Refusal :=
  firing s fun t p => s.onLeft t p w p.left.fmt fun s ts z =>
    match (z.asL z.x).token p z.fwd with
    | none => s
    | some tok =>
      let tok' : Token :=
        if tok.act = .normal then
          { tok with act := .sticky, drp := w.kr = 1, crib := if w.kr = 1 then BitVec.ofNat 4 z.k else 0 }
        else tok
      s.emitRun t p ts tok'

/-- PURGE: a PURGE of L's context (R18), whatever L's MASK (log entry 133). -/
def execPurge (w : DWord) (s : State) : Host.Outcome State Fault Refusal :=
  firing s fun t p => s.onLeft t p w p.left.fmt fun s ts _ =>
    s.emit t p.slot p.ctx p.itag.toNat (toAll ts { act := .purge, ctx := p.ctx })

def execCancel (w : DWord) (s : State) : Host.Outcome State Fault Refusal :=
  firing s fun t p => s.onLeft t p w p.left.fmt fun s ts z =>
    s.emit t p.slot p.ctx p.itag.toNat (toAll ts (bareToken .cancel z.l.fmt p))

/-- SPLIT at element c := K[5:0]. -/
def execSplit (w : DWord) (s : State) : Host.Outcome State Fault Refusal :=
  firing s fun t p => s.onLeft t p w p.left.fmt fun s ts z =>
    let c := z.k % 64
    let outs :=
      if c = 0 then partOut p z 1 w.t1 0 p.len
      else if p.len ≤ c then partOut p z 0 w.t0 0 p.len
      else partOut p z 0 w.t0 0 c ++ partOut p z 1 w.t1 c (p.len - c)
    -- the tags of a part are taken past the last one where the run's are
    if 2 ^ 32 < p.itag.toNat + p.len && !outs.isEmpty then s.fireFault t p ts z.l.fmt p.itag.toNat 0x0B 0x05
    else s.emit t p.slot p.ctx p.itag.toNat outs

/-- One side of a PACK under its own policy (R103): elements and whether one is absent under FORWARD, or the index of
the lowest that raises Empty. -/
def packSide (pol k15 : Nat) (a : Token) : Except Nat (List (Option Nat) × Bool) :=
  match lanesFrom false pol pol k15 k15 ((List.range a.len).map fun i => (a.lane i, some 0)) 0 with
  | .error i => .error i
  | .ok (xs, _, f) => .ok (xs, f)

/-- PACK (R103, R104). Operands that clash fail before an absent element does (log entry 157). A FAULT token of a PACK covers the pairing's tags up to the longest run of its format. -/
def execPack (w : DWord) (s : State) : Host.Outcome State Fault Refusal :=
  firing s fun t p =>
    let l := p.l.value
    let r := p.r.value
    let ts := s.targets t w.nt w.t1 w.t0
    let s := s.hold t 1
    let top := fmtMaxLen l.fmt.toNat
    let q : Pairing := { p with len := min p.len top }
    if l.act = .fault then s.passFault t q ts l.fmt l
    else if r.act = .fault then s.passFault t q ts l.fmt r
    else if l.fmt ≠ r.fmt || l.scale ≠ r.scale || top < l.len + r.len then
      s.fireFault t q ts l.fmt p.itag.toNat 0x0B 0x09
    else
      let k15 := s.konst t 15 % 2 ^ fmtBits l.fmt.toNat
      match packSide w.el.toNat k15 l, packSide w.er.toNat k15 r with
      | .error i, _ => s.emptyFault t q ts l.fmt (l.lo + i)
      | _, .error i => s.emptyFault t q ts l.fmt (r.lo + i)
      | .ok (xs, f), .ok (ys, g) =>
        s.emitRes t p ts (f || g) { fmt := l.fmt, scale := l.scale.toInt, vals := xs ++ ys }

/-- UNPACK into runs of LEN n := K[5:0] (R103, R104): one run after the other to each target. An absent element fails before the
run's shape does (log entry 157). -/
def execUnpack (w : DWord) (s : State) : Host.Outcome State Fault Refusal :=
  firing s fun t p => s.onLeft t p w p.left.fmt fun s ts z =>
    let n := z.k % 64
    if n = 0 || fmtMaxLen z.l.fmt.toNat < n then s.fireFault t p ts z.l.fmt p.itag.toNat 0x0B 0x0A
    else
      let runs := (List.range ((p.len + n - 1) / n)).filterMap fun j => partRun p z (j * n) (min n (p.len - j * n))
      if 2 ^ 32 < p.itag.toNat + p.len && !runs.isEmpty then s.fireFault t p ts z.l.fmt p.itag.toNat 0x0B 0x05
      else s.emit t p.slot p.ctx p.itag.toNat (runs.flatMap (toAll ts))

/-- CTAG: element i is ITAG + i. -/
def execCtag (w : DWord) (s : State) : Host.Outcome State Fault Refusal :=
  firing s fun t p => s.onLeft t p w w.fmt fun s ts z =>
    let vals := z.x.zipIdx.map fun v => v.1.map fun _ => (p.itag.toNat + v.2) % 2 ^ 32
    s.emitRes t p ts z.fwd { fmt := 11, vals := vals }

/-- EGRESS: the token as it arrived, to each egress target. -/
def execEgress (w : DWord) (s : State) : Host.Outcome State Fault Refusal :=
  firing s fun t p =>
    (s.hold t 1).emit t p.slot p.ctx p.itag.toNat (toAll (s.targets t w.nt w.t1 w.t0) p.l.value)

end Sys2Proof.Machine
end

