-- ==== Sys2Proof/Machine/Memory.lean ====
section
/-! DEFINITION. Typed blocks (R137, R138) and the fabric memory instructions (R225 to R230): the groups of a pairing, and
what it emits once they are performed. -/

namespace Sys2Proof.Machine

/-! ## Typed blocks (R137, R138) -/

def blockFmt (b : List Byte) : Nat := field b 0 1 % 32
def blockPlane (b : List Byte) : Nat := field b 0 1 / 32
def blockScale (b : List Byte) : BitVec 8 := BitVec.ofNat 8 (field b 1 1)

/-- The elements a block of a format holds. -/
def blockCount (fmt : Nat) : Nat := if fmtBytes fmt = 0 then 496 else 62 / fmtBytes fmt

/-- Element i of a block's payload. -/
def blockElem (b : List Byte) (fmt i : Nat) : Nat :=
  if fmtBytes fmt = 0 then field b (2 + i / 8) 1 / 2 ^ (i % 8) % 2 else field b (2 + i * fmtBytes fmt) (fmtBytes fmt)

/-- R138's check of a block by a reader that interprets it. -/
def blockOk (b : List Byte) : Bool :=
  let k := fmtPlanes (blockFmt b)
  if k = 0 then blockPlane b = 0 else blockPlane b < k

/-- A typed block with its pad bytes zero, as every engine writes it (R137). -/
def padBlock (b : List Byte) : List Byte := 
  slice (b.take (if fmtBytes (blockFmt b) = 0 then 64 else 2 + blockCount (blockFmt b) * fmtBytes (blockFmt b))) 0 64

/-- A typed block of elements; pad bytes are zero. -/
def makeBlock (fmt : Nat) (scale : BitVec 8) (vals : List Nat) : List Byte :=
  let w := fmtBytes fmt
  slice (toBytes 1 fmt ++ toBytes 1 scale.toNat ++ (vals.take (blockCount fmt)).flatMap (toBytes w)) 0 64

/-! ## Groups (R226) -/

/-- The version an element names (R226). -/
def elemVersion (w : MWord) (k : Nat) (l r : Token) (i : Nat) : BitVec 16 :=
  match w.vsrc.toNat with
  | 0 => 0
  | 1 => BitVec.ofNat 16 (l.itag.toNat + i)
  | 2 => BitVec.ofNat 16 k
  | _ => BitVec.ofNat 16 (r.elem i)

/-- The version mode of an instruction with the version it names (R36, R217). -/
def memMode (kind : MemKind) (w : MWord) (n : BitVec 16) : VMode :=
  match kind with
  | .ld => if w.mod = 1 then .eq n else if w.mod = 2 then .ge n else .any
  | .ldb => if w.mod = 1 then .eq n else if w.mod = 2 then .ge n else .any
  | .st => if w.mod = 1 then .exp n else .next
  | .stb => if w.mod = 1 then .exp n else .next
  | .vwait => .ge n
  | .reclaim => .any
  | _ => .next

/-- The ATOM operations of MOD (R32). -/
def atomOf (m : Nat) : AtomOp :=
  match m with
  | 0 => .add
  | 1 => .min
  | 2 => .max
  | 3 => .xchg
  | 4 => .and
  | _ => .or

/-- What a group's access does at its home. -/
def memAccess (kind : MemKind) (w : MWord) (n : BitVec 16) (r : Token) (elems : List (Nat × Nat)) : AccessOp :=
  let wid := fmtBytes w.fmt.toNat
  match kind with
  | .st => .store (elems.flatMap fun e => (toBytes wid (r.elem e.1)).zipIdx.map fun b => (e.2 % 64 + b.2, b.1))
  | .stb => .store ((makeBlock r.fmt.toNat r.scale ((List.range r.len).map fun i => (r.lane i).getD 0)).zipIdx.map fun b => (b.2, b.1))
  | .atom => .atom (atomOf w.mod.toNat) (fmtSigned w.fmt.toNat) (elems.map fun e => (e.2 % 64, BitVec.ofNat 64 (r.elem e.1), 0))
  | .cas => .atom .cas false (elems.map fun e =>
      (e.2 % 64, BitVec.ofNat 64 (r.elem e.1 % 2 ^ 32), BitVec.ofNat 64 (r.elem e.1 / 2 ^ 32)))
  | .reclaim => .reclaim n
  | .vwait => .probe
  | _ => .load

/-- The bytes an access moves (R344). -/
def memMoved (kind : MemKind) (w : MWord) (n : Nat) : Nat :=
  match kind with
  | .ldb => 64
  | .stb => 64
  | .vwait => 0
  | .reclaim => 0
  | _ => n * fmtBytes w.fmt.toNat

/-- Whether a misaligned element faults, and its unit of alignment. -/
def memAlign (kind : MemKind) (w : MWord) : Nat :=
  match kind with
  | .ldb => 64
  | .stb => 64
  | .vwait => 1
  | .reclaim => 1
  | _ => fmtBytes w.fmt.toNat

/-- One group: it fails before it is issued where its elements name different versions or are misaligned. -/
def memGroup (kind : MemKind) (w : MWord) (k : Nat) (l r : Token) (elems : List (Nat × Nat)) : Group :=
  let n := elemVersion w k l r (elems.headD (0, 0)).1
  let mixed := elems.any fun e => elemVersion w k l r e.1 ≠ n
  let crooked := elems.any fun e => e.2 % memAlign kind w ≠ 0
  { elems := elems, ver := n,
    st := if mixed then .failed 0x0B 0x0F else if crooked then .failed 0x0F 0x06 else .todo,
    acc := { op := memAccess kind w n r elems, mode := memMode kind w n, ret := w.ret = 1,
             width := fmtBytes w.fmt.toNat, moved := memMoved kind w elems.length } }

/-- The groups of live elements, by 64-byte block, in ascending order of their lowest element. -/
def memGroups (kind : MemKind) (w : MWord) (k : Nat) (l r : Token) (live : List Nat) : List Group :=
  let elems := live.map fun i => (i, l.elem i)
  let blocks := ((elems.map fun e => e.2 / 64).reverse.dedup).reverse
  blocks.map fun b => memGroup kind w k l r (elems.filter fun e => e.2 / 64 = b)

/-! ## A firing -/

/-- The elements accessed: those present on every port used (R36); LDB and STB use the lowest one alone (R227). -/
def memLive (kind : MemKind) (useR : Bool) (l r : Token) : List Nat :=
  match kind with
  | .ldb => ((List.range l.len).filter fun i => l.has i && (!useR || r.has i)).take 1
  | .stb => ((List.range l.len).filter l.has).take 1
  | _ => (List.range l.len).filter fun i => l.has i && (!useR || r.has i)

/-- The format of Rt that an instruction asks for (R226). -/
def memRight (kind : MemKind) (w : MWord) : Option Fmt :=
  match kind with
  | .st => some w.fmt
  | .atom => some w.fmt
  | .cas => some 29
  | _ => none

/-- A memory pairing placed at the tile's port and issued. -/
def State.addPairing (s : State) (t : Nat) (m : MemPairing) : State :=
  let x := s.tile t
  (s.setTile t { x with port := x.port ++ [{ m with seq := x.portSeq, born := s.cycle }], portSeq := x.portSeq + 1 }).issuePort t

/-- The firing of a memory instruction but FENCE (R225 to R228); with no element accessed it emits an EMPTY (R36). -/
def State.memFire (s : State) (t : Nat) (p : Pairing) (w : MWord) (kind : MemKind) (out : Fmt) : State :=
  let ts := s.targets t w.nt w.t1 w.t0
  let l := p.left
  let r := p.right
  let useR := (memRight kind w).isSome || kind = .stb || w.vsrc = 3
  let s := s.hold t 1
  if l.act = .fault then s.passFault t p ts out l
  else if useR && r.act = .fault then s.passFault t p ts out r
  else if l.fmt ≠ 30 || (memRight kind w).any fun f => f ≠ r.fmt then s.fireFault t p ts out p.itag.toNat 0x0B 0x02
  else
    let live := memLive kind useR l r
    if live.isEmpty then
      s.emit t p.slot p.ctx p.itag.toNat (toAll ts (bareToken .empty out p))
    else
      let mask := live.foldl (fun n i => n + 2 ^ i) 0
      s.addPairing t
        { kind := kind, slot := p.slot, ctx := p.ctx, fmt := out, scope := w.scope.toNat,
          acq := w.aqrl = 1 && (kind ≠ .st && kind ≠ .stb),
          rel := w.aqrl = 1 && (kind = .st || kind = .stb || kind = .atom || kind = .cas),
          l := { l with mask := BitVec.ofNat 32 mask },
          r := if useR then some r else none,
          groups := memGroups kind w (s.konst t w.kidx.toNat) l r live }

def execLd (w : MWord) (s : State) : Host.Outcome State Fault Refusal :=
  firing s fun t p => s.memFire t p w .ld w.fmt

def execSt (w : MWord) (s : State) : Host.Outcome State Fault Refusal :=
  firing s fun t p => s.memFire t p w .st 11

def execAtom (w : MWord) (s : State) : Host.Outcome State Fault Refusal :=
  firing s fun t p => s.memFire t p w .atom w.fmt

def execCas (w : MWord) (s : State) : Host.Outcome State Fault Refusal :=
  firing s fun t p => s.memFire t p w .cas w.fmt

def execReclaim (w : MWord) (s : State) : Host.Outcome State Fault Refusal :=
  firing s fun t p => s.memFire t p w .reclaim 11

def execVwait (w : MWord) (s : State) : Host.Outcome State Fault Refusal :=
  firing s fun t p => s.memFire t p w .vwait 11

def execLdb (w : MWord) (s : State) : Host.Outcome State Fault Refusal :=
  firing s fun t p => s.memFire t p w .ldb w.fmt

def execStb (w : MWord) (s : State) : Host.Outcome State Fault Refusal :=
  firing s fun t p => s.memFire t p w .stb 11

/-- FENCE: L, which carries FMT A64 (R226), waits at the port until its predecessors at SCOPE have been performed (R228). -/
def execFence (w : MWord) (s : State) : Host.Outcome State Fault Refusal :=
  firing s fun t p =>
    let ts := s.targets t w.nt w.t1 w.t0
    let l := p.left
    let s := s.hold t 1
    if l.act = .fault then s.passFault t p ts l.fmt l
    else if l.fmt ≠ 30 then s.fireFault t p ts l.fmt p.itag.toNat 0x0B 0x02
    else
      s.addPairing t { kind := .fence, slot := p.slot, ctx := p.ctx, fmt := l.fmt, scope := w.scope.toNat, l := l }

/-! ## Results (R226 to R229) -/

/-- A run of one word per element of L that a group covers. -/
def MemPairing.run (m : MemPairing) (vals : List (Nat × Word)) : Token :=
  { act := .normal, fmt := m.fmt, len := m.l.len, ctx := m.ctx, itag := m.l.itag, mask := m.l.mask,
    data := (List.range m.l.len).map fun i => ((vals.find? fun v => v.1 = i).map fun v => v.2).getD 0 }

/-- One value for every element of each group. -/
def MemPairing.perGroup (m : MemPairing) (f : Group → Word) : List (Nat × Word) :=
  m.groups.flatMap fun g => g.elems.map fun e => (e.1, f g)

/-- The runs of a loaded typed block, or the fault it raises (R227). -/
def MemPairing.blockRuns (m : MemPairing) : Except (Nat × Nat) (List Token) :=
  let b := ((m.groups.headD {}).vals).map fun v => v.2.setWidth 8
  let fmt := blockFmt b
  if !blockOk b then .error (0x0B, 0x0B)
  else if fmtPlanes fmt ≠ 0 then .error (0x0B, 0x02)
  else
    let n := blockCount fmt
    let len := fmtMaxLen fmt
    let runs := (n + len - 1) / len
    if 2 ^ 32 < m.l.lo + runs * len then .error (0x0B, 0x05)
    else
      .ok ((List.range runs).map fun j =>
        let k := min len (n - j * len)
        { act := .normal, fmt := BitVec.ofNat 5 fmt, len := len, scale := blockScale b, ctx := m.ctx,
          itag := m.l.itag + BitVec.ofNat 32 (j * len), mask := fullMask k,
          data := (List.range k).map fun i => BitVec.ofNat 64 (blockElem b fmt (j * len + i)) })

/-- What a memory pairing emits once performed. -/
def MemPairing.results (m : MemPairing) : Except (Nat × Nat) (List Token) :=
  match m.kind with
  | .ld => .ok [m.run (m.groups.flatMap fun g => g.vals)]
  | .atom => .ok [m.run (m.groups.flatMap fun g => g.vals)]
  | .cas => .ok [m.run (m.groups.flatMap fun g => g.vals)]
  | .ldb => m.blockRuns
  | .stb => .ok [{ act := .normal, fmt := 11, len := 1, ctx := m.ctx, itag := m.l.itag, mask := 1,
                   data := [(m.groups.headD {}).ver.setWidth 64] }]
  | .reclaim => .ok [m.run (m.perGroup fun g => BitVec.ofNat 64 g.count)]
  | .fence => .ok [m.l]
  | _ => .ok [m.run (m.perGroup fun g => g.ver.setWidth 64)]

/-- A group's fault: its cause and subcode. -/
def Group.fault? (g : Group) : Option (Nat × Nat) :=
  match g.st with
  | .failed c u => some (c, u)
  | _ => none

/-- The version a VersionGone record gives. -/
def VMode.version : VMode → Nat
  | .eq n => n.toNat
  | .ge n => n.toNat
  | .exp n => n.toNat
  | _ => 0

/-- Whether a pairing's results are all there: every group is performed, or one failed and none is still on its way. -/
def MemPairing.over (m : MemPairing) : Bool :=
  if m.groups.any fun g => g.fault?.isSome then m.groups.all fun g => g.st ≠ .issued && g.st ≠ .waiting
  else m.groups.all fun g => g.st = .done

/-- The faulting address of a group (R229): of its first misaligned element where that is the fault, else of its lowest. -/
def Group.faultAddress (g : Group) (kind : MemKind) (cause sub : Nat) : Nat :=
  let unit := match kind with
    | .ldb => 64
    | .stb => 64
    | _ => g.acc.width
  let lowest := (g.elems.headD (0, 0)).2
  if cause = 0x0F && sub = 0x06 then ((g.elems.find? fun e => e.2 % unit ≠ 0).map Prod.snd).getD lowest else lowest

/-- The fault of a pairing: a record with the faulting address, and FAULT tokens with the count performed (R229). -/
def State.memFault (s : State) (t : Nat) (m : MemPairing) (g : Group) (cause sub : Nat) : State :=
  let count := (m.groups.filter fun x => x.st = .done).length
  s.slotFault t m.slot m.ctx (s.slotTargets t m.slot) m.fmt m.l.itag m.l.len m.l.lo cause sub
    (g.faultAddress m.kind cause sub) (if cause = 5 then g.acc.mode.version else 0) count

/-- MEMORY_RESPONSE (R221): the k-th pairing of tile u's port emits once every group is performed, a FENCE once its
predecessors are. -/
def execMemoryResponse (s : State) : Host.Outcome State Fault Refusal :=
  match s.focus with
  | .event u k =>
    let x := s.tile u
    match x.port[k]? with
    | none => .next s
    | some m =>
      if !m.over || (m.kind = .fence && !s.settledBefore (clusterOf u) m.scope x.port m) then .next s
      else
        let s := s.setTile u { x with port := x.port.eraseIdx k }
        match m.groups.find? fun g => g.fault?.isSome with
        | some g =>
          let (c, f) := (g.fault?).getD (0, 0)
          .next (s.memFault u m g c f)
        | none =>
          match m.results with
          | .error (c, f) => .next (s.memFault u m (m.groups.headD {}) c f)
          | .ok toks =>
            .next (s.emit u m.slot m.ctx m.l.lo (toks.flatMap fun tok => toAll (s.slotTargets u m.slot) tok))
  | _ => .next s

end Sys2Proof.Machine
end

