-- ==== Sys2Proof/Machine/Walks.lean ====
section
/-! DEFINITION. Walk slots and walks (R209, R210), walk faults and the streams they stop (R211), and XINV (R213). -/

namespace Sys2Proof.Machine

/-- The stack domain that serves a stream's misses (R209). -/
def streamDomain (w : StreamId) : Nat := domainOf ((streamRank w).headD 0)

/-- The access kind's code in a walk fault's record (R211). -/
def AccKind.code : AccKind → Nat
  | .read => 0
  | .write => 1
  | .readWrite => 2
  | .fetch => 3

/-! ## The streams -/

/-- The record that a tile's replay unit is at work on. -/
def Tile.replayHead (x : Tile) : Option DropRec :=
  match x.rcur with
  | none => none
  | some id => x.drops.find? fun d => d.id = id

/-- The consuming slot and lowest tag of a replay (R242): its first pairing's, or the sticky's own where none waits. -/
def Tile.replayConsumer (x : Tile) (d : DropRec) : Nat × Nat :=
  match x.pairings.find? fun p => p.uses d.id with
  | some p => (p.slot, p.itag.toNat)
  | none => (d.tok.slot, d.tok.lo)

/-- The stream's entry filled, and the stream going on (R208, R209). -/
def State.fillEntry (s : State) (who : StreamId) (e : TEntry) : State :=
  match who with
  | .tilePort t => (s.updTile t fun x => { x with entry := some e, stall := .none }).issuePort t
  | .replayUnit t => s.updTile t fun x => { x with rentry := some e, rstall := .none }
  | .agn c a => s.updAgn c a fun x => { x with entry := some e, stall := .none }
  | .taskData c k => s.updTask c k fun x => ({ x with dentry := some e } : Task).ready
  | .taskFetch c k => s.updTask c k fun x => ({ x with fentry := some e } : Task).ready

/-- The group that a walk was for fails, and the port goes on (R211). -/
def State.failPort (s : State) (t cause sub : Nat) : State :=
  let x := s.tile t
  let x := match x.stoppedAt with
    | none => x
    | some p => x.updGroup p.seq ((p.nextGroup.map Prod.snd).getD 0) fun _ g => { g with st := .failed cause sub }
  (s.setTile t { x with stall := .none }).issuePort t

/-- The record of a walk fault (R211). -/
def State.walkRecord (s : State) (w : Walk) (cause sub : Nat) : FaultRec :=
  let place (t : Nat) (r : FaultRec) : FaultRec := { r with x := tileX t, y := tileY t }
  let base : FaultRec :=
    { cause := cause, sub := sub, tenant := w.tenant, address := w.va, version := w.level + 4 * w.kind.code }
  match w.who with
  | .tilePort t =>
    let p := ((s.tile t).stoppedAt).getD {}
    place t { base with ctx := p.ctx, source := 0, unit := p.slot, itag := p.l.lo }
  | .replayUnit t =>
    let d := ((s.tile t).replayHead).getD {}
    let (slot, tag) := (s.tile t).replayConsumer d
    place t { base with ctx := d.tok.ctx, source := 7, unit := slot, itag := tag, sub := sub + 128 }
  | .agn c a =>
    let g := assocGet {} (s.cluster c).streamer.agns a
    place (tileIn c 0) { base with ctx := g.cmd.ctx, source := 1, unit := a, itag := g.cmd.d.citag.toNat, version := g.cursor }
  | .taskData c k => place (tileIn c 0) { base with ctx := (s.task c k).faultCtx, source := 2, unit := k }
  | .taskFetch c k => place (tileIn c 0) { base with ctx := (s.task c k).faultCtx, source := 2, unit := k }

/-- The access of a stream fails with a cause (R211). -/
def State.failStream (s : State) (w : Walk) (cause sub : Nat) : State :=
  let v := w.level + 4 * w.kind.code
  match w.who with
  | .tilePort t => s.failPort t cause sub
  | .replayUnit t => s.updTile t fun x => { x with rfail := some (cause, sub), rstall := .none }
  | .agn c a => s.updAgn c a fun x => x.fail cause sub w.va
  | .taskData c k => s.trap c k cause sub w.va w.va (s.task c k).pc v
  | .taskFetch c k => s.trap c k cause sub w.va 0 (s.task c k).pc v

/-- A stream stopped on its record's block, or an AGN until RESUME (R211). -/
def State.stallStream (s : State) (who : StreamId) (b : Nat) : State :=
  match who with
  | .tilePort t => s.updTile t fun x => { x with stall := .record b }
  | .replayUnit t => s.updTile t fun x => { x with rstall := .record b }
  | .agn c a => s.updAgn c a fun x => { x with stall := .resume }
  | .taskData c k => s.updTask c k fun x => { x with st := .blocked (.record b) }
  | .taskFetch c k => s.updTask c k fun x => { x with st := .blocked (.record b) }

def streamIsAgn : StreamId → Bool
  | .agn _ _ => true
  | _ => false

/-- A walk's fault (R211): NotValid and BadEntry stop the stream on its record; where the record cannot be stored, an AGN
stalls all the same and any other stream fails the access, which writes the one record; any other cause fails it too. -/
def State.walkFault (s : State) (w : Walk) (cause sub : Nat) : State :=
  let r := s.walkRecord w cause sub
  if cause = 0x06 && (sub = 0x01 || sub = 0x02) && (streamIsAgn w.who || s.recordable r.ctx) then
    let (s', _, at_) := s.raise r
    s'.stallStream w.who (at_.getD 0 / 64)
  else s.failStream w cause sub

/-! ## The events -/

/-- WALK_START (R209): a free walk slot of domain u is granted to its oldest miss, whose ASID is checked (R308). -/
def execWalkStart (s : State) : Host.Outcome State Fault Refusal :=
  match s.focus with
  | .event u _ =>
    match s.misses.findIdx? fun w => streamDomain w.who = u with
    | none => .next s
    | some i =>
      if Config.walkSlots ≤ (s.walks.filter fun w => streamDomain w.who = u).length then .next s
      else
        let w := s.misses.getD i {}
        let d := s.domain u
        let s := { s.setDomain u { d with wkWalk := d.wkWalk + 1 } with misses := s.misses.eraseIdx i }
        match s.walkRoot w.asid w.tenant with
        | .next root => .next { s with walks := s.walks ++ [{ w with level := 3, table := root }] }
        | .bad c f => .next (s.walkFault w c f)
        | .leaf e => .next (s.fillEntry w.who e)
  | _ => .next s

/-- The position of the k-th walk of a domain. -/
def State.walkAt (s : State) (d k : Nat) : Option (Walk × Nat) :=
  (s.walks.zipIdx.filter fun w => streamDomain w.1.who = d)[k]?

/-- The read of a level's entry charged to the tenant of its stream (R344; log entry 57). -/
def State.chargeWalk (s : State) (w : Walk) : State :=
  let n := s.actingTenant w.tenant w.asid
  let at_ := levelEntry w.level w.table w.va
  if (s.keyFor n at_).isNone then s else s.addMeter n (s.spaceOf at_).meter 8

/-- WALK_STEP (R210): the level read of the k-th walk of domain u returns. -/
def execWalkStep (s : State) : Host.Outcome State Fault Refusal :=
  match s.focus with
  | .event u k =>
    match s.walkAt u k with
    | none => .next s
    | some (w, i) =>
      let s := s.chargeWalk w
      match s.walkLevel w.asid (s.actingTenant w.tenant w.asid) w.level w.table w.va with
      | .next t => .next { s with walks := s.walks.set i { w with level := w.level - 1, table := t } }
      | .leaf e => .next ({ s with walks := s.walks.eraseIdx i }.fillEntry w.who e)
      | .bad c f => .next ({ s with walks := s.walks.eraseIdx i }.walkFault w c f)
  | _ => .next s

/-! ## XINV (R213) -/

/-- Every translation entry of an ASID invalid. -/
def State.invalidate (s : State) (asid : Nat) : State :=
  let keep (e : Option TEntry) : Option TEntry := e.filter fun x => x.asid ≠ asid
  let tiles := s.tiles.map fun p => (p.1, ({ p.2 with entry := keep p.2.entry, rentry := keep p.2.rentry } : Tile))
  let clusters := s.clusters.map fun p =>
    let agns := p.2.streamer.agns.map fun a => (a.1, ({ a.2 with entry := keep a.2.entry } : Agn))
    let tasks := p.2.core.tasks.map fun t =>
      (t.1, ({ t.2 with dentry := keep t.2.dentry, fentry := keep t.2.fentry } : Task))
    (p.1, ({ p.2 with streamer := { p.2.streamer with agns := agns }, core := { p.2.core with tasks := tasks } } : Cluster))
  { s with tiles := tiles, clusters := clusters }

/-- Whether a block is reached by translation, not through the commons window. -/
def throughEntry (b : Nat) : Bool := 64 * b < 2 ^ 52

/-- The accesses that have been issued and not yet performed, each with its block and the tenant it is charged to: of tile
ports, of tasks, and waiting at their homes. -/
def State.openAccesses (s : State) : List (Nat × Nat) :=
  (s.tiles.flatMap fun t => t.2.port.flatMap fun p => (p.groups.filter fun g => g.st = .issued).map fun g => (g.block, g.acc.tenant)) ++
  (s.clusters.flatMap fun c => (c.2.core.tasks.filter fun t => t.2.st = .blocked .access).map fun t =>
    (t.2.access.acc.block, t.2.access.acc.tenant)) ++
  s.waits.map fun w => (w.acc.block, w.acc.tenant)

/-- Whether a task's access, or a piece that it is to store, was translated under its ASID and has yet to be performed. -/
def Task.translatedOpen (t : Task) : Bool :=
  (t.st = .blocked .access && throughEntry t.access.acc.block) || t.ranged.any fun p => !p.done && throughEntry (p.home / 64)

/-- Whether an access translated under an ASID has yet to be performed: issued by a tile port or a task, or waiting at its
home. -/
def State.translatedOpen (s : State) (asid : Nat) : Bool :=
  (s.tiles.any fun t => t.2.port.any fun p =>
    (s.ctx p.ctx).asid = asid && p.groups.any fun g => (g.st = .issued || g.st = .waiting) && throughEntry g.block) ||
  (s.clusters.any fun c => c.2.core.tasks.any fun t => t.2.asid = asid && t.2.translatedOpen) ||
  s.waits.any fun w => throughEntry w.acc.block && w.asid = some asid

/-- Tasks whose write of XINV waits for an ASID's accesses. -/
def State.xinvTasks (s : State) (asid : Nat) : List (Nat × Nat) :=
  s.clusters.flatMap fun c => (c.2.core.tasks.filter fun t => t.2.st = .blocked (.xinv asid)).map fun t => (c.1, t.1)

/-- XINV (R213): the entries of the ASID are invalid, and once no access translated through them is open the CSRWs that
wait for them return. -/
def execXinv (asid : BitVec 16) (s : State) : Host.Outcome State Fault Refusal :=
  let n := asid.toNat
  let ts := s.xinvTasks n
  if ts.isEmpty || s.translatedOpen n then .next s
  else .next (ts.foldl (fun (z : State) t => z.updTask t.1 t.2 fun x => x.retire.ready) (s.invalidate n))

end Sys2Proof.Machine
end

