-- ==== Sys2Proof/Machine/Engine.lean ====
section
/-! DEFINITION. What the engines of a cluster share: plane groups (R139, R140), reads of the cluster's commons, the
firing of an engine instruction (R199), tokens from t0's router port (R191), and completions (R193, R197, R277). -/

namespace Sys2Proof.Machine

/-! ## Plane groups (R139, R140) -/

/-- Element i of the first p planes of a group of format `fmt`, as an I8 or N8 element. -/
def planeElem (fmt p : Nat) (blocks : List (List Byte)) (i : Nat) : Nat :=
  let v := (blocks.take p).foldl (fun n b => 2 * n + blockElem b fmt i) 0
  if fmtPlaneSigned fmt then low 8 (sval p v) else v

/-- A group's planes are of one FMT and SCALE, and each passes R138. -/
def planesOk (blocks : List (List Byte)) : Bool :=
  let b := blocks.headD []
  blocks.all fun c => blockOk c && blockFmt c = blockFmt b && blockScale c = blockScale b

/-- The planes to read of k under a PLSEL, APL or BPL field: 0 means all. -/
def planesRead (k sel : Nat) : Nat := if sel = 0 then k else sel

/-- A value clamped to a plane format. -/
def planeClamp (fmt : Nat) (z : Int) : Int := max (planeRange fmt).1 (min (planeRange fmt).2 z)

/-- The plane blocks of a group of values at a scale. -/
def makePlanes (fmt : Nat) (scale : BitVec 8) (vals : List Int) : List (List Byte) :=
  let k := fmtPlanes fmt
  let w := vals.map fun z => low k (planeClamp fmt z)
  (List.range k).map fun p =>
    let bit8 (j : Nat) : Byte :=
      BitVec.ofNat 8 (((w.drop (8 * j)).take 8).zipIdx.foldl (fun n v => n + (v.1 / 2 ^ (k - 1 - p) % 2) * 2 ^ v.2) 0)
    toBytes 1 (fmt + 32 * p) ++ toBytes 1 scale.toNat ++ (List.range 62).map bit8

/-! ## Reads of the issuing cluster's commons (R188, R201) -/

/-- Whether an A64 address lies in a cluster's commons. -/
def inOwnCommons (c va : Nat) : Bool := va < 2 ^ 56 && inCommons va && bits va 27 19 = c

/-- Bytes read at ANY from home addresses of the commons, block by block. -/
def State.readBlocks (s : State) (tenant h : Nat) : Nat → Nat → Except (Nat × Nat) (List Byte × State)
  | 0, _ => .ok ([], s)
  | fuel + 1, n =>
    if n = 0 then .ok ([], s)
    else
      let k := min n (64 - h % 64)
      match s.actNow { block := h / 64, op := .load, tenant := tenant, moved := k } with
      | .done s' o =>
        match s'.readBlocks tenant (h + k) fuel (n - k) with
        | .ok (bs, s'') => .ok (slice o.bytes (h % 64) k ++ bs, s'')
        | .error e => .error e
      | .bad c u => .error (c, u)
      | _ => .error (0x07, 0x06)

/-- Bytes of the issuing cluster's commons (R188): Bounds, subcode Commons, elsewhere. -/
def State.readCommons (s : State) (c tenant va n : Nat) : Except (Nat × Nat) (List Byte × State) :=
  if inOwnCommons c va && inOwnCommons c (va + n - 1) then
    s.readBlocks tenant (commonsBase c + bits va 18 0) (n / 64 + 2) n
  else .error (0x0F, 0x04)

/-! ## Firings (R199) -/

/-- The firing of an engine instruction: a FAULT operand is passed on, and a trigger run with no present element issues
nothing and emits an EMPTY (R97, R199). -/
def State.engineFire (s : State) (t : Nat) (p : Pairing) (w : EWord) (out : Fmt)
    (body : State → List (Nat × BitVec 18) → Token → State) : State :=
  let ts := s.targets t w.nt w.t1 w.t0
  let l := p.left
  let s := s.hold t 1
  if l.act = .fault then s.passFault t p ts out l
  else if l.present.isEmpty then s.emit t p.slot p.ctx p.itag.toNat (toAll ts (bareToken .empty out p))
  else body s ts l

/-- The lowest present element of an operand (R109). -/
def Token.lowest (t : Token) : Nat := t.elem (t.present.headD 0)

/-! ## Tokens from t0's router port (R191) -/

/-- The destination of a target relative to a cluster's t0, for a context: none outside its region (R201). -/
def State.resolveFor (s : State) (ctx c : Nat) (g : BitVec 18) : Option (Dest × Nat × Nat) :=
  match s.resolve (tileIn c 0) g with
  | some (.tile d, a, b) =>
    match s.ctxRegion ctx with
    | some r => if r.holds d then some (.tile d, a, b) else none
    | none => none
  | r => r

/-- A token of an engine put in at t0's router port. -/
def State.injectAt (s : State) (ctx c ix : Nat) (g : BitVec 18) (tok : Token) : State :=
  match s.resolveFor ctx c g with
  | none => s
  | some (d, slot, port) =>
    let tok := match d with
      | .tile dst => tok.sendTo dst slot port
      | _ => tok
    s.inject c tok { tile := tileIn c 0, slot := 33, ix := ix } d

/-! ## Completions on a task's register (R277) -/

/-- Whether the instruction a task would run reads or writes a pending register (R277). -/
def Task.stalled (t : Task) : Bool :=
  match t.fetched with
  | some w => (instrRegs (coreStep w)).any t.pending
  | none => false

/-- A completion word written to a task's register: its pending bit clears, and a task that waited for it is RUNNABLE
(R275, R277, R289). One for g0, or of a task that has ended, is discarded. -/
def State.taskResult (s : State) (c k reg : Nat) (v : Word) : State :=
  let t := s.task c k
  let r := BitVec.ofNat 5 reg
  if !t.pending r then s
  else
    let t := { t.setReg r v with score := t.score &&& ~~~(1#32 <<< reg) }
    s.setTask c k (match t.st with
      | .blocked .pending => if t.stalled then t else t.ready
      | .blocked .wfi => t.retire.ready
      | _ => t)

/-- A completion word for a register of a saved task (R291): written where the task is saved. -/
def SaveRec.result (r : SaveRec) (x y k reg : Nat) (v : Word) : SaveRec :=
  match r with
  | .task px py j t vcs =>
    if px = x && py = y && j = k && t.pending (BitVec.ofNat 5 reg) then
      .task px py j { t.setReg (BitVec.ofNat 5 reg) v with score := t.score &&& ~~~(1#32 <<< reg) } vcs
    else r
  | r => r

/-- A completion word for the task that issued a command, wherever it is. -/
def State.srcResult (s : State) (src : CmdSource) (v : Word) : State :=
  match src with
  | .task c k reg => s.taskResult c k reg v
  | .saved ctx x y k reg =>
    s.setDean { s.dean with saves := s.dean.saves.map fun p => if p.1 = ctx then (p.1, p.2.map fun r => r.result x y k reg v) else p }
  | _ => s

/-- Tasks of a core that were BLOCKED for a reason are RUNNABLE and run their instruction again (R275). -/
def State.wake (s : State) (c : Nat) (why : BlockReason) : State :=
  (s.cluster c).core.tasks.foldl (fun (z : State) p =>
    if (z.task c p.1).st = .blocked why then z.updTask c p.1 Task.ready else z) s

/-! ## A task's instruction (R43, R246, R247) -/

/-- The instructions of a recipe record up to a zero word (R246). -/
def recipeInstrs : List (BitVec 32) → List Instr
  | [] => []
  | w :: ws => if w = 0 then [] else coreStep w :: recipeInstrs ws

/-- The sources of a recipe: the registers that its words read, less the tagged one and g0 (R246). -/
def recipeSources (d : Nat) (ws : List (BitVec 32)) : List Nat :=
  (((recipeInstrs ws).flatMap instrReads).map BitVec.toNat).filter fun r => r ≠ d && r ≠ 0

/-- Whether a register is pinned: a source of a recipe that some tag names (R247). -/
def Task.pinned (t : Task) (r : Nat) : Bool := t.tags.any fun g => (recipeSources g.1 (t.recipes.getD g.2 [])).contains r

/-- A precise fault that gives the pc (R43). -/
def State.taskFault (s : State) (c k cause sub : Nat) : State :=
  let pc := (s.task c k).pc
  s.trap c k cause sub pc.toNat 0 pc 0

/-- An instruction that writes gD: Recipe, subcode Pin, where gD is pinned (R247). -/
def State.writing (s : State) (c k : Nat) (t : Task) (d : BitVec 5) (go : State) : State :=
  if t.pinned d.toNat then s.taskFault c k 0x0C 0x05 else go

/-- A register marked pending as an E-format instruction issues (R277); g0 never is. -/
def Task.mark (t : Task) (r : BitVec 5) : Task :=
  if r = 0 then t else { t with score := t.score ||| (1#32 <<< r.toNat) }

/-- A control-core instruction's meaning at the task that the focus names. -/
def tasking (s : State) (f : Nat → Nat → Task → State) : Host.Outcome State Fault Refusal :=
  match s.focus with
  | .task c k => .next (f c k (s.task c k))
  | _ => .refused .noTask

/-- The issue of an engine command by a task (R277, R287): it writes gD once it completes, so that a pinned gD traps at
issue (R247); its CTX must be LIVE, and it waits while the engine's queue is full. -/
def State.taskIssue (s : State) (c k : Nat) (t : Task) (d : BitVec 5) (room : Bool) (go : State → State) : State :=
  s.writing c k t d
    (if t.ctx = 0xFFF || (s.ctx t.ctx).st ≠ .live then s.taskFault c k 0x07 0x09
     else if !room then s.block c k .engine
     else go (s.setTask c k (t.retire.mark d)))

/-- An engine command whose SCOPE is a reserved code raises BadField (R36, R41, R43). -/
def State.scoped (s : State) (c k : Nat) (sc : BitVec 3) (go : State) : State :=
  if 4 < sc.toNat then s.taskFault c k 0x0B 0x08 else go

/-! ## Results and faults of commands (R193, R197, R312) -/

/-- The record of an engine's fault at a cluster. -/
def engineRecord (source unit c ctx tenant itag cause sub address : Nat) : FaultRec :=
  { cause := cause, sub := sub, ctx := ctx, tenant := tenant, source := source, unit := unit, x := tileX (tileIn c 0),
    y := tileY (tileIn c 0), itag := itag, address := address }

/-- A completed run of LEN 1 that holds one N32 element (R180, R193). -/
def oneN32 (ctx : Nat) (itag : BitVec 32) (v : Nat) : Token :=
  { act := .normal, fmt := 11, len := 1, ctx := ctx, itag := itag, mask := 1, data := [BitVec.ofNat 64 (v % 2 ^ 32)] }

end Sys2Proof.Machine
end

