-- ==== Sys2Proof/Machine/Integer.lean ====
section
/-! DEFINITION. The integer element instructions (R149, R150) and MASK, AGEN and BFX. -/

namespace Sys2Proof.Machine

/-- An element as an integer of a format: signed for I, unsigned for N. -/
def ival (f x : Nat) : Int := if fmtSigned f then sval (fmtBits f) x else ((x % 2 ^ fmtBits f : Nat) : Int)

/-- A binary integer instruction of the slot's format with an exact result reduced mod 2^w (R149). -/
def intOp (w : DWord) (rule : ScaleRule) (f : Int → Int → Int) (cls : Hold := .simple) : LaneOp :=
  { ok := sameFmt w true, rule := rule, out := w.fmt, cls := cls,
    f := fun _ a b => (some (low (fmtBits w.fmt.toNat) (f (ival w.fmt.toNat a) (ival w.fmt.toNat b))), 0) }

/-- A unary integer instruction of the slot's format. -/
def intOp1 (w : DWord) (rule : ScaleRule) (f : Int → Int) : LaneOp :=
  { two := false, ok := sameFmt w false, rule := rule, out := w.fmt,
    f := fun _ a _ => (some (low (fmtBits w.fmt.toNat) (f (ival w.fmt.toNat a))), 0) }

/-- A bitwise instruction of two elements. -/
def bitOp (w : DWord) (f : Nat → Nat → Nat) : LaneOp :=
  { ok := sameFmt w true, rule := .left, out := w.fmt,
    f := fun _ a b => (some (f a b % 2 ^ fmtBits w.fmt.toNat), 0) }

/-- A shift: Rt is any integer format, read unsigned as the amount (R149). -/
def shiftOp (w : DWord) (f : (w x a : Nat) → Nat) : LaneOp :=
  { ok := rightFmt w fmtInt, rule := .left, out := w.fmt,
    f := fun _ x a =>
      let n := fmtBits w.fmt.toNat
      (some (f n (x % 2 ^ n) a % 2 ^ n), 0) }

/-- Bits complemented within a width. -/
def flip (n x : Nat) : Nat := (2 ^ n - 1) - x % 2 ^ n

/-- DIV (R149, R150): truncated; all ones by zero. -/
def intDiv (a b : Int) : Int := if b = 0 then -1 else a.tdiv b

/-- REM (R149, R150): L by zero. -/
def intRem (a b : Int) : Int := if b = 0 then a else a - b * a.tdiv b

/-- An integer clamped to a range. -/
def clampTo (r : Int × Int) (z : Int) : Int := max r.1 (min z r.2)

/-- The conditions of CMP (R32, R149). -/
def intCond (c : Nat) (a b : Int) : Bool :=
  match c with
  | 0 => a = b
  | 1 => a ≠ b
  | 2 => a < b
  | 3 => a ≤ b
  | 4 => a > b
  | 5 => a ≥ b
  | _ => false

def shlBits (n x a : Nat) : Nat := if n ≤ a then 0 else x * 2 ^ a
def shrBits (n x a : Nat) : Nat := if n ≤ a then 0 else x / 2 ^ a
def sarBits (n x a : Nat) : Nat := low n (sval n x / (2 ^ min a (n - 1) : Nat))
def rolBits (n x a : Nat) : Nat := x * 2 ^ (a % n) + x / 2 ^ (n - a % n)

/-- BFX's field (R149). -/
def bitField (k x : Nat) : Nat :=
  let lsb := bits k 5 0
  let wid := bits k 14 8
  let v := x / 2 ^ lsb % 2 ^ wid
  if bit k 16 && bit v (wid - 1) then low 64 (sval wid v) else v

def laneAdd (w : DWord) : LaneOp :=
  intOp w .eq fun a b => a + b
def execAdd (w : DWord) (s : State) : Host.Outcome State Fault Refusal :=
  firing s fun t p => s.lanewise t p w (laneAdd w)

def laneSub (w : DWord) : LaneOp :=
  intOp w .eq fun a b => a - b
def execSub (w : DWord) (s : State) : Host.Outcome State Fault Refusal :=
  firing s fun t p => s.lanewise t p w (laneSub w)

def laneMul (w : DWord) : LaneOp :=
  intOp w (.sum 0) (fun a b => a * b) .multiply
def execMul (w : DWord) (s : State) : Host.Outcome State Fault Refusal :=
  firing s fun t p => s.lanewise t p w (laneMul w)

/-- MULH: the upper half of the exact product; its scale rises by the width. -/
def laneMulh (w : DWord) : LaneOp :=
  let n := fmtBits w.fmt.toNat
  intOp w (.sum n) (fun a b => a * b / (2 ^ n : Nat)) .multiply
def execMulh (w : DWord) (s : State) : Host.Outcome State Fault Refusal :=
  firing s fun t p => s.lanewise t p w (laneMulh w)

def laneDiv (w : DWord) : LaneOp :=
  intOp w .diff intDiv .divide
def execDiv (w : DWord) (s : State) : Host.Outcome State Fault Refusal :=
  firing s fun t p => s.lanewise t p w (laneDiv w)

def laneRem (w : DWord) : LaneOp :=
  intOp w .left intRem .divide
def execRem (w : DWord) (s : State) : Host.Outcome State Fault Refusal :=
  firing s fun t p => s.lanewise t p w (laneRem w)

def laneMin (w : DWord) : LaneOp :=
  intOp w .eq fun a b => min a b
def execMin (w : DWord) (s : State) : Host.Outcome State Fault Refusal :=
  firing s fun t p => s.lanewise t p w (laneMin w)

def laneMax (w : DWord) : LaneOp :=
  intOp w .eq fun a b => max a b
def execMax (w : DWord) (s : State) : Host.Outcome State Fault Refusal :=
  firing s fun t p => s.lanewise t p w (laneMax w)

def laneAbs (w : DWord) : LaneOp :=
  intOp1 w .left fun a => (a.natAbs : Int)
def execAbs (w : DWord) (s : State) : Host.Outcome State Fault Refusal :=
  firing s fun t p => s.lanewise t p w (laneAbs w)

def laneNeg (w : DWord) : LaneOp :=
  intOp1 w .left fun a => 0 - a
def execNeg (w : DWord) (s : State) : Host.Outcome State Fault Refusal :=
  firing s fun t p => s.lanewise t p w (laneNeg w)

def laneAnd (w : DWord) : LaneOp :=
  bitOp w fun a b => a &&& b
def execAnd (w : DWord) (s : State) : Host.Outcome State Fault Refusal :=
  firing s fun t p => s.lanewise t p w (laneAnd w)

def laneOr (w : DWord) : LaneOp :=
  bitOp w fun a b => a ||| b
def execOr (w : DWord) (s : State) : Host.Outcome State Fault Refusal :=
  firing s fun t p => s.lanewise t p w (laneOr w)

def laneXor (w : DWord) : LaneOp :=
  bitOp w fun a b => a ^^^ b
def execXor (w : DWord) (s : State) : Host.Outcome State Fault Refusal :=
  firing s fun t p => s.lanewise t p w (laneXor w)

def laneAndn (w : DWord) : LaneOp :=
  bitOp w fun a b => a &&& flip (fmtBits w.fmt.toNat) b
def execAndn (w : DWord) (s : State) : Host.Outcome State Fault Refusal :=
  firing s fun t p => s.lanewise t p w (laneAndn w)

def laneNot (w : DWord) : LaneOp :=
  { two := false, ok := sameFmt w false, rule := .left, out := w.fmt,
    f := fun _ a _ => (some (flip (fmtBits w.fmt.toNat) a), 0) }
def execNot (w : DWord) (s : State) : Host.Outcome State Fault Refusal :=
  firing s fun t p => s.lanewise t p w (laneNot w)

def laneShl (w : DWord) : LaneOp :=
  shiftOp w shlBits
def execShl (w : DWord) (s : State) : Host.Outcome State Fault Refusal :=
  firing s fun t p => s.lanewise t p w (laneShl w)

def laneShr (w : DWord) : LaneOp :=
  shiftOp w shrBits
def execShr (w : DWord) (s : State) : Host.Outcome State Fault Refusal :=
  firing s fun t p => s.lanewise t p w (laneShr w)

def laneSar (w : DWord) : LaneOp :=
  shiftOp w sarBits
def execSar (w : DWord) (s : State) : Host.Outcome State Fault Refusal :=
  firing s fun t p => s.lanewise t p w (laneSar w)

def laneRol (w : DWord) : LaneOp :=
  shiftOp w rolBits
def execRol (w : DWord) (s : State) : Host.Outcome State Fault Refusal :=
  firing s fun t p => s.lanewise t p w (laneRol w)

def laneClz (w : DWord) : LaneOp :=
  { two := false, ok := sameFmt w false, rule := .zero, out := w.fmt,
    f := fun _ a _ => (some (clz (fmtBits w.fmt.toNat) a), 0) }
def execClz (w : DWord) (s : State) : Host.Outcome State Fault Refusal :=
  firing s fun t p => s.lanewise t p w (laneClz w)

def lanePopc (w : DWord) : LaneOp :=
  { two := false, ok := sameFmt w false, rule := .zero, out := w.fmt,
    f := fun _ a _ => (some (popcount (fmtBits w.fmt.toNat) a), 0) }
def execPopc (w : DWord) (s : State) : Host.Outcome State Fault Refusal :=
  firing s fun t p => s.lanewise t p w (lanePopc w)

/-- CMP: scales are checked under eq, and the result has scale 0. -/
def laneCmp (w : DWord) : LaneOp :=
  intOp w .eqZero fun a b => if intCond w.mod.toNat a b then 1 else 0
def execCmp (w : DWord) (s : State) : Host.Outcome State Fault Refusal :=
  firing s fun t p => s.lanewise t p w (laneCmp w)

def laneAdds (w : DWord) : LaneOp :=
  intOp w .eq fun a b => clampTo (intRange w.fmt.toNat) (a + b)
def execAdds (w : DWord) (s : State) : Host.Outcome State Fault Refusal :=
  firing s fun t p => s.lanewise t p w (laneAdds w)

def laneSubs (w : DWord) : LaneOp :=
  intOp w .eq fun a b => clampTo (intRange w.fmt.toNat) (a - b)
def execSubs (w : DWord) (s : State) : Host.Outcome State Fault Refusal :=
  firing s fun t p => s.lanewise t p w (laneSubs w)

/-- MADK: the addend K is taken at the result's scale. -/
def laneMadk (w : DWord) : LaneOp :=
  let n := fmtBits w.fmt.toNat
  { ok := sameFmt w true, rule := .sum 0, out := w.fmt, cls := .multiply,
    f := fun z a b => (some (low n (ival w.fmt.toNat a * ival w.fmt.toNat b + ival w.fmt.toNat z.k)), 0) }
def execMadk (w : DWord) (s : State) : Host.Outcome State Fault Refusal :=
  firing s fun t p => s.lanewise t p w (laneMadk w)

/-- AGEN: L in A64, Rt an index in the slot's format, K a signed 64-bit stride; the result is A64. -/
def laneAgen (w : DWord) : LaneOp :=
  { ok := fun l r => if l.fmt ≠ 30 || r.fmt ≠ w.fmt then some illFormat else none,
    rule := .zero, out := 30,
    f := fun z a b => (some (low 64 ((a : Int) + ival w.fmt.toNat b * sval 64 z.k)), 0) }
def execAgen (w : DWord) (s : State) : Host.Outcome State Fault Refusal :=
  firing s fun t p => s.lanewise t p w (laneAgen w)

def laneBfx (w : DWord) : LaneOp :=
  let n := fmtBits w.fmt.toNat
  { two := false, ok := sameFmt w false, rule := .left, out := w.fmt,
    f := fun z a _ => (some (bitField z.k (a % 2 ^ n) % 2 ^ n), 0) }
def execBfx (w : DWord) (s : State) : Host.Outcome State Fault Refusal :=
  firing s fun t p => s.lanewise t p w (laneBfx w)

/-- MASK: Rt in any format; an element is absent where Rt's raw bits are zero. -/
def laneMask (w : DWord) : LaneOp :=
  { ok := rightFmt w fun _ => true, rule := .left, out := w.fmt,
    f := fun _ a b => (if b = 0 then none else some a, 0) }
def execMask (w : DWord) (s : State) : Host.Outcome State Fault Refusal :=
  firing s fun t p => s.lanewise t p w (laneMask w)

end Sys2Proof.Machine
end

