-- ==== Sys2Proof/Machine/FloatOps.lean ====
section
/-! DEFINITION. The floating-point element instructions (R151 to R153) and the local conversions (R156, R157). -/

namespace Sys2Proof.Machine

/-- The floating-point format of a slot word, and its rounding mode at a firing (R129, R148). -/
def DWordFloat (w : DWord) : FloatFmt := floatFmt w.fmt.toNat
def roundingOf (w : DWord) (z : Lanes) : Nat := rmOf w.mod.toNat z.mode

/-- The value of a left or right element under the fold rule (R147); a constant has no scale. -/
def foldL (w : DWord) (z : Lanes) (a : Nat) : Val := floatVal (DWordFloat w) a z.sl z.mode
def foldR (w : DWord) (z : Lanes) (b : Nat) : Val :=
  floatVal (DWordFloat w) b (if w.kr = 1 then 0 else z.sr) z.mode
/-- The addend K as its plain value (R147). -/
def foldK (w : DWord) (z : Lanes) : Val := floatVal (DWordFloat w) (z.k % 2 ^ fmtBits w.fmt.toNat) z.ks z.mode

/-- A value with the flags of its exact computation, rounded once (R151). -/
def roundOnce (w : DWord) (z : Lanes) (v : Val × Nat) : Option Nat × Nat :=
  let (b, fl) := roundVal (DWordFloat w) (roundingOf w z) z.mode v.1
  (some b, v.2 ||| fl)

/-- A binary float instruction of the fold rule whose exact value is rounded once. -/
def foldOp (w : DWord) (cls : Hold) (f : (rm : Nat) → Val → Val → Val × Nat) : LaneOp :=
  { ok := sameFmt w true, rule := .zero, out := w.fmt, cls := cls,
    f := fun z a b => roundOnce w z (f (roundingOf w z) (foldL w z a) (foldR w z b)) }

/-- A unary float instruction of the fold rule given by its result's bits and flags. -/
def foldOp1 (w : DWord) (cls : Hold) (f : FloatFmt → (rm mode : Nat) → Val → Nat × Nat) : LaneOp :=
  { two := false, ok := sameFmt w false, rule := .zero, out := w.fmt, cls := cls,
    f := fun z a _ => let (b, fl) := f (DWordFloat w) (roundingOf w z) z.mode (foldL w z a); (some b, fl) }

/-- An exact result of one stage carried into the next, with the flags of both. -/
def andThen (v : Val × Nat) (f : Val → Val × Nat) : Val × Nat :=
  let (r, fl) := f v.1
  (r, v.2 ||| fl)

/-- A sign-bit instruction: no rounding, no flag, L's scale. -/
def signOp (w : DWord) (two : Bool) (f : (top a b : Nat) → Nat) : LaneOp :=
  { two := two, ok := sameFmt w two, rule := .left, out := w.fmt,
    f := fun _ a b => (some (f (2 ^ (fmtBits w.fmt.toNat - 1)) a b), 0) }

def laneFadd (w : DWord) : LaneOp :=
  foldOp w .multiply fun rm a b => valAdd rm a b
def execFadd (w : DWord) (s : State) : Host.Outcome State Fault Refusal :=
  firing s fun t p => s.lanewise t p w (laneFadd w)

def laneFsub (w : DWord) : LaneOp :=
  foldOp w .multiply fun rm a b => valAdd rm a (valNeg b)
def execFsub (w : DWord) (s : State) : Host.Outcome State Fault Refusal :=
  firing s fun t p => s.lanewise t p w (laneFsub w)

def laneFmul (w : DWord) : LaneOp :=
  foldOp w .multiply fun _ a b => valMul a b
def execFmul (w : DWord) (s : State) : Host.Outcome State Fault Refusal :=
  firing s fun t p => s.lanewise t p w (laneFmul w)

/-- FMAK: l × r + K with one rounding. -/
def laneFmak (w : DWord) : LaneOp :=
  { foldOp w .multiply (fun _ a b => valMul a b) with
    f := fun z a b =>
      roundOnce w z (andThen (valMul (foldL w z a) (foldR w z b)) fun v => valAdd (roundingOf w z) v (foldK w z)) }
def execFmak (w : DWord) (s : State) : Host.Outcome State Fault Refusal :=
  firing s fun t p => s.lanewise t p w (laneFmak w)

/-- FNMSK: K − l × r with one rounding. -/
def laneFnmsk (w : DWord) : LaneOp :=
  { foldOp w .multiply (fun _ a b => valMul a b) with
    f := fun z a b =>
      roundOnce w z (andThen (valMul (foldL w z a) (foldR w z b)) fun v =>
        valAdd (roundingOf w z) (foldK w z) (valNeg v)) }
def execFnmsk (w : DWord) (s : State) : Host.Outcome State Fault Refusal :=
  firing s fun t p => s.lanewise t p w (laneFnmsk w)

def laneFdiv (w : DWord) : LaneOp :=
  { ok := sameFmt w true, rule := .zero, out := w.fmt, cls := .divide,
    f := fun z a b =>
      let (r, fl) := floatDiv (DWordFloat w) (roundingOf w z) z.mode (foldL w z a) (foldR w z b)
      (some r, fl) }
def execFdiv (w : DWord) (s : State) : Host.Outcome State Fault Refusal :=
  firing s fun t p => s.lanewise t p w (laneFdiv w)

def laneFsqrt (w : DWord) : LaneOp :=
  foldOp1 w .divide floatSqrt
def execFsqrt (w : DWord) (s : State) : Host.Outcome State Fault Refusal :=
  firing s fun t p => s.lanewise t p w (laneFsqrt w)

/-- FMIN and FMAX: both operands have one scale, so the elements are compared as stored (R152). -/
def minMaxOp (w : DWord) (max? : Bool) : LaneOp :=
  { ok := sameFmt w true, rule := .eq, out := w.fmt,
    f := fun z a b =>
      let f := DWordFloat w
      let (r, fl) := floatMinMax f max? a b (floatVal f a 0 z.mode) (floatVal f b 0 z.mode)
      (some r, fl) }

def laneFmin (w : DWord) : LaneOp :=
  minMaxOp w false
def execFmin (w : DWord) (s : State) : Host.Outcome State Fault Refusal :=
  firing s fun t p => s.lanewise t p w (laneFmin w)

def laneFmax (w : DWord) : LaneOp :=
  minMaxOp w true
def execFmax (w : DWord) (s : State) : Host.Outcome State Fault Refusal :=
  firing s fun t p => s.lanewise t p w (laneFmax w)

def laneFabs (w : DWord) : LaneOp :=
  signOp w false fun top a _ => a % top
def execFabs (w : DWord) (s : State) : Host.Outcome State Fault Refusal :=
  firing s fun t p => s.lanewise t p w (laneFabs w)

def laneFneg (w : DWord) : LaneOp :=
  signOp w false fun top a _ => (a + top) % (2 * top)
def execFneg (w : DWord) (s : State) : Host.Outcome State Fault Refusal :=
  firing s fun t p => s.lanewise t p w (laneFneg w)

/-- FCPYS: L's magnitude with Rt's sign. -/
def laneFcpys (w : DWord) : LaneOp :=
  signOp w true fun top a b => a % top + b / top % 2 * top
def execFcpys (w : DWord) (s : State) : Host.Outcome State Fault Refusal :=
  firing s fun t p => s.lanewise t p w (laneFcpys w)

/-- FCMP: 1.0 or +0.0 by the condition of MOD. -/
def laneFcmp (w : DWord) : LaneOp :=
  { ok := sameFmt w true, rule := .zero, out := w.fmt,
    f := fun z a b =>
      let (c, fl) := floatCond w.mod.toNat (foldL w z a) (foldR w z b)
      let f := DWordFloat w
      (some (if c then f.enc false f.bias 0 else 0), fl) }
def execFcmp (w : DWord) (s : State) : Host.Outcome State Fault Refusal :=
  firing s fun t p => s.lanewise t p w (laneFcmp w)

/-- FCLASS: an N32 mask of the element as stored. -/
def laneFclass (w : DWord) : LaneOp :=
  { two := false, ok := sameFmt w false, rule := .zero, out := 11,
    f := fun _ a _ => (some (floatClass (DWordFloat w) a), 0) }
def execFclass (w : DWord) (s : State) : Host.Outcome State Fault Refusal :=
  firing s fun t p => s.lanewise t p w (laneFclass w)

/-- A value times a power of two. -/
def Val.scaleBy (n : Int) : Val → Val
  | .fin s m e => .fin s m (e + n)
  | v => v

/-- FSCALE: r is Rt's raw I32 element. -/
def laneFscale (w : DWord) : LaneOp :=
  { ok := rightFmt w fun f => f = 8, rule := .zero, out := w.fmt, cls := .multiply,
    f := fun z a b => roundOnce w z ((foldL w z a).scaleBy (sval 32 b), 0) }
def execFscale (w : DWord) (s : State) : Host.Outcome State Fault Refusal :=
  firing s fun t p => s.lanewise t p w (laneFscale w)

def laneFround (w : DWord) : LaneOp :=
  foldOp1 w .multiply floatRint
def execFround (w : DWord) (s : State) : Host.Outcome State Fault Refusal :=
  firing s fun t p => s.lanewise t p w (laneFround w)

/-! ## Local conversion and bit instructions (R156, R157) -/

/-- WIDEN's pairs: a wider integer destination, not from I to N. -/
def widens (sf df : Nat) : Bool :=
  fmtInt sf && fmtInt df && fmtBytes sf < fmtBytes df && (fmtSigned df || !fmtSigned sf)

/-- NARROW's pairs. -/
def narrows (sf df : Nat) : Bool := fmtInt sf && fmtInt df && fmtBytes df < fmtBytes sf

/-- CVTL's pairs (R156). -/
def cvtlPair (sf df : Nat) : Bool :=
  if sf = 1 then df = 3 || df = 4 || df = 8 || df = 11
  else if df = 1 then sf = 3 || sf = 4 || sf = 8 || sf = 11
  else 8 ≤ sf && sf ≤ 13 && widens sf df

/-- L's format accepted with the slot's as destination. -/
def pairFmt (w : DWord) (pair : Nat → Nat → Bool) (l _ : Token) : Option (Nat × Nat) :=
  if pair l.fmt.toNat w.fmt.toNat then none else some illFormat

/-- CVTL: floats fold to scale 0, integers keep L's scale. -/
def laneCvtl (w : DWord) (sf : Nat) : LaneOp :=
  let df := w.fmt.toNat
  let folds := fmtFloat sf || fmtFloat df
  { two := false, ok := pairFmt w cvtlPair, rule := if folds then .zero else .left, out := w.fmt,
    f := fun z a _ =>
      if folds then
        let (b, fl) := convertElem sf z.sl df 0 (roundingOf w z) z.mode a
        (some b, fl)
      else (some (low (fmtBits df) (ival sf a)), 0) }
def execCvtl (w : DWord) (s : State) : Host.Outcome State Fault Refusal :=
  firing s fun t p => s.lanewise t p w (laneCvtl w p.left.fmt.toNat)

def laneNarrow (w : DWord) : LaneOp :=
  let df := w.fmt.toNat
  { two := false, ok := pairFmt w narrows, rule := .left, out := w.fmt,
    f := fun z a _ => (some (low (fmtBits df) (clampTo (intRange df) (ival z.l.fmt.toNat a))), 0) }
def execNarrow (w : DWord) (s : State) : Host.Outcome State Fault Refusal :=
  firing s fun t p => s.lanewise t p w (laneNarrow w)

def laneWiden (w : DWord) : LaneOp :=
  { two := false, ok := pairFmt w widens, rule := .left, out := w.fmt,
    f := fun z a _ => (some (low (fmtBits w.fmt.toNat) (ival z.l.fmt.toNat a)), 0) }
def execWiden (w : DWord) (s : State) : Host.Outcome State Fault Refusal :=
  firing s fun t p => s.lanewise t p w (laneWiden w)

/-- PLANE: bit (a mod w) of L, in L's format. -/
def lanePlane (w : DWord) : LaneOp :=
  { ok := rightFmt w fmtInt, rule := .zero, out := w.fmt,
    f := fun _ a b => (some (a / 2 ^ (b % fmtBits w.fmt.toNat) % 2), 0) }
def execPlane (w : DWord) (s : State) : Host.Outcome State Fault Refusal :=
  firing s fun t p => s.lanewise t p w (lanePlane w)

end Sys2Proof.Machine
end

