-- ==== Sys2Proof/Machine/Converter.lean ====
section
/-! DEFINITION. The converter nodes (R163 to R170): acceptance of CVT, REBLK, QPLANE, QUNPL and SCALEMX, and the work of
a node on the head of its queue. -/

namespace Sys2Proof.Machine

/-! ## Acceptance (R163) -/

/-- The firing of a converter instruction: the pairing joins the node's queue. -/
def State.convFire (s : State) (t : Nat) (p : Pairing) (w : EWord) (op : Nat) : State :=
  (s.hold t 1).updTile t fun x =>
    { x with convQ := x.convQ ++ [{ id := x.nextId, op := op, w := w, slot := p.slot, ctx := p.ctx, l := p.left, born := s.cycle }],
             nextId := x.nextId + 1 }

def execCvt (w : EWord) (s : State) : Host.Outcome State Fault Refusal := firing s fun t p => s.convFire t p w 0xB0
def execReblk (w : EWord) (s : State) : Host.Outcome State Fault Refusal := firing s fun t p => s.convFire t p w 0xB1
def execQplane (w : EWord) (s : State) : Host.Outcome State Fault Refusal := firing s fun t p => s.convFire t p w 0xB2
def execQunpl (w : EWord) (s : State) : Host.Outcome State Fault Refusal := firing s fun t p => s.convFire t p w 0xB3
def execScalemx (w : EWord) (s : State) : Host.Outcome State Fault Refusal := firing s fun t p => s.convFire t p w 0xB4

/-! ## Scales (R167) -/

/-- B: the largest finite value of a format, as m × 2^e. -/
def largestOf (fmt : Nat) : Nat × Int :=
  if fmtFloat fmt then
    match floatVal (floatFmt fmt) ((floatFmt fmt).largest false) 0 0 with
    | .fin _ m e => (m, e)
    | _ => (0, 0)
  else if fmtPlanes fmt ≠ 0 then ((planeRange fmt).2.toNat, 0)
  else ((intRange fmt).2.toNat, 0)

/-- Whether m1 × 2^e1 is at most m2 × 2^e2. -/
def scaledLe (m1 : Nat) (e1 : Int) (m2 : Nat) (e2 : Int) : Bool :=
  let e := min e1 e2
  m1 * 2 ^ (e1 - e).toNat ≤ m2 * 2 ^ (e2 - e).toNat

/-- The largest magnitude of a run's finite elements, as m × 2^e. -/
def largestIn (mode : Nat) (l : Token) : Nat × Int :=
  l.present.foldl (fun (z : Nat × Int) i =>
    match elemVal l.fmt.toNat (l.elem i) l.scale.toInt mode with
    | .fin _ m e => if scaledLe m e z.1 z.2 then z else (m, e)
    | _ => z) (0, 0)

/-- The scale SCALEMX gives for a run and a format: the least s′ with M × 2^(−s′) ≤ B, clamped. -/
def scaleFor (mode fmt : Nat) (l : Token) : Int :=
  let (m, e) := largestIn mode l
  let (b, eb) := largestOf fmt
  if m = 0 then 0
  else
    -- the least s′ lies within one of the difference of the magnitudes' exponents
    let guess : Int := (Nat.log2 m : Int) + e - ((Nat.log2 b : Int) + eb)
    let s := if scaledLe m (e - (guess - 1)) b eb then guess - 1
             else if scaledLe m (e - guess) b eb then guess else guess + 1
    max (-128) (min 127 s)

/-! ## The five instructions (R167 to R169) -/

/-- What a node's pairing comes to: a run, nothing, or a fault. -/
inductive NodeOut where
  | run (t : Token)
  | bad (cause sub : Nat)
  deriving DecidableEq, Repr

/-- The bit pairs of R136 that CVT takes with SMODE = 01. -/
def bitPair (sf df : Nat) : Bool :=
  (df = 30 && (sf = 29 || sf = 28)) || (sf = 30 && (df = 29 || df = 28)) ||
  (df = 31 && (sf = 11 || sf = 8)) || (sf = 31 && (df = 11 || df = 8))

/-- The format that carries a converted element: I8 for Pk, N8 for Qk. -/
def carrier (fmt : Nat) : Nat := if fmtPlanes fmt = 0 then fmt else if fmtPlaneSigned fmt then 10 else 13

/-- CVT (R167), with its flags. -/
def cvtOut (mode k : Nat) (w : EWord) (l : Token) : NodeOut × Nat :=
  let sf := l.fmt.toNat
  let df := w.fmt.toNat
  let smode := bits k 9 8
  let num (f : Nat) : Bool := fmtFloat f || fmtInt f
  if bitPair sf df && smode = 1 then (.run { l with fmt := w.fmt }, 0)
  else if !num sf || !(num df || fmtPlanes df ≠ 0) then (.bad 0x0B 0x02, 0)
  else
    let s' : Int := if smode = 0 then sval 8 k else if smode = 1 then l.scale.toInt else scaleFor mode df l
    let vs := (List.range l.len).map fun i =>
      if l.has i then convertElem sf l.scale.toInt df s' (rmOf w.mod.toNat mode) mode (l.elem i) else (0, 0)
    (.run { l with fmt := BitVec.ofNat 5 (carrier df), scale := BitVec.ofInt 8 s',
                   data := vs.map fun v => BitVec.ofNat 64 v.1 }, vs.foldl (fun n v => n ||| v.2) 0)

/-- NV where a run holds a signalling NaN (R128, R132). -/
def signalFlags (mode : Nat) (l : Token) : Nat :=
  l.present.foldl (fun n i => n ||| nvOf (elemVal l.fmt.toNat (l.elem i) l.scale.toInt mode)) 0

/-- SCALEMX (R167), with its flags; without a present element the result is absent. -/
def scalemxOut (mode : Nat) (w : EWord) (l : Token) : NodeOut × Nat :=
  if !(fmtFloat l.fmt.toNat || fmtInt l.fmt.toNat) then (.bad 0x0B 0x02, 0)
  else if l.present.isEmpty then (.run { act := .empty, fmt := 8, len := l.len, ctx := l.ctx, itag := l.itag }, 0)
  else
    (.run { act := .normal, fmt := 8, len := 1, ctx := l.ctx, itag := l.itag, mask := 1,
            data := [BitVec.ofNat 64 (low 32 (scaleFor mode w.fmt.toNat l))] }, signalFlags mode l)

/-- QPLANE (R169): one element per plane, and L's MASK. -/
def qplaneOut (w : EWord) (l : Token) : NodeOut :=
  let f := w.fmt.toNat
  let k := fmtPlanes f
  if l.fmt.toNat ≠ carrier f then .bad 0x0B 0x02
  else if 2 ^ 32 < l.lo + (k + 1) then .bad 0x0B 0x05
  else
    let v (i : Nat) : Nat :=
      if l.has i then low k (planeClamp f (if fmtPlaneSigned f then sval 8 (l.elem i) else (l.elem i : Int))) else 0
    let plane (p : Nat) : Nat := (List.range l.len).foldl (fun n i => n + (v i / 2 ^ (k - 1 - p) % 2) * 2 ^ i) 0
    .run { act := .normal, fmt := 11, len := k + 1, scale := l.scale, ctx := l.ctx, itag := l.itag, mask := fullMask (k + 1),
           data := ((List.range k).map plane ++ [l.mask.toNat]).map fun n => BitVec.ofNat 64 n }

/-- QUNPL (R169): values from j of k planes, truncated (R140). An absent plane element reads as zero. -/
def qunplOut (w : EWord) (n : Nat) (l : Token) : NodeOut :=
  let f := w.fmt.toNat
  let k := fmtPlanes f
  let j := l.len - 1
  let e (p : Nat) : Nat := if l.has p then l.elem p else 0
  let sc := l.scale.toInt + ((k : Int) - j)
  if l.fmt ≠ 11 then .bad 0x0B 0x02
  else if j < 2 || k < j then .bad 0x0B 0x1A
  else if 127 < sc then .bad 0x0B 0x03
  else if 2 ^ 32 < l.lo + n then .bad 0x0B 0x05
  else
    let v (i : Nat) : Nat :=
      let u := (List.range j).foldl (fun m p => 2 * m + e p / 2 ^ i % 2) 0
      if fmtPlaneSigned f then low 8 (sval j u) else u
    .run { act := .normal, fmt := BitVec.ofNat 5 (carrier f), len := n, scale := BitVec.ofInt 8 sc, ctx := l.ctx,
           itag := l.itag, mask := BitVec.ofNat 32 (e j % 2 ^ n), data := (List.range n).map fun i => BitVec.ofNat 64 (v i) }

/-- The format of a pairing's result, for its FAULT or EMPTY token; REBLK's run keeps its own (R65). -/
def ConvCmd.outFmt (q : ConvCmd) : Fmt :=
  if q.op = 0xB1 then q.l.fmt else if q.op = 0xB2 then 11 else if q.op = 0xB4 then 8 else BitVec.ofNat 5 (carrier q.w.fmt.toNat)

/-- The work of a node on a pairing (R163, R170): the result or FAULT token is emitted, and a result with no present element
as an EMPTY. -/
def State.convert (s : State) (t : Nat) (q : ConvCmd) : State :=
  let l := { q.l with slot := q.slot, act := if q.l.act ≠ .fault && q.l.present.isEmpty then .empty else q.l.act }
  let ts := s.slotTargets t q.slot
  let mode := (s.ctx q.ctx).mode.toNat
  let out (z : NodeOut × Nat) : State :=
    match z.1 with
    | .run tok =>
      let tok := if tok.mask = 0 then { tok with act := .empty, data := [] } else { tok with act := .normal }
      (s.addFlags q.ctx z.2).emit t q.slot q.ctx l.lo (toAll ts tok)
    | .bad c u => s.nodeFault t l q.slot q.outFmt l.lo c u
  if l.act = .fault then
    s.emit t q.slot q.ctx l.lo (toAll ts { l with fmt := q.outFmt, scale := 0, mask := fullMask l.len })
  else if q.op = 0xB0 then out (cvtOut mode (s.konst t q.w.kidx.toNat) q.w l)
  else if q.op = 0xB1 then s.reblock t q.slot (s.konst t q.w.kidx.toNat % 64) l (some q.id)
  else if q.op = 0xB2 then out (qplaneOut q.w l, 0)
  else if q.op = 0xB3 then out (qunplOut q.w (s.konst t q.w.kidx.toNat % 64) l, 0)
  else out (scalemxOut mode q.w l)

/-- CONVERTER_PAIRING (R163): the node of tile u works on the head of its queue. -/
def execConverterPairing (s : State) : Host.Outcome State Fault Refusal :=
  match s.focus with
  | .event u _ =>
    match (s.tile u).convQ with
    | [] => .next s
    | q :: rest => .next (((s.updTile u fun x => { x with convQ := rest }).convert u q).progressed q.ctx)
  | _ => .next s

end Sys2Proof.Machine
end

