-- ==== Sys2Proof/Machine/Runs.lean ====
section
/-! DEFINITION. The run instructions, which read across the lanes of one run (R157's BITS, R158 to R160), and the
accumulating and ordered RSUM (R159). -/

namespace Sys2Proof.Machine

/-- A run instruction's firing (R145, R146): `body` gives the results for T0 and, for RTOP2, T1, with its flags. -/
def State.runwise (s : State) (t : Nat) (p : Pairing) (w : DWord) (two : Bool) (out : Fmt) (cls : Hold)
    (ok : Token → Token → Option (Nat × Nat)) (body : Lanes → Res × Nat) : State :=
  s.withLanes t p w two out (cls.cycles w.fmt.toNat p.len) ok (fun s ts z =>
    let (r, fl) := body z
    (s.addFlags p.ctx fl).emitRes t p ts z.fwd r) true

/-- A unary run instruction of the slot's format. -/
def State.runwise1 (s : State) (t : Nat) (p : Pairing) (w : DWord) (out : Fmt) (cls : Hold) (body : Lanes → Res × Nat) :
    State := s.runwise t p w false out cls (sameFmt w false) body

/-- Whether L holds an element: an absence in the result is then the instruction's own (R97). -/
def Lanes.some? (z : Lanes) : Bool := z.x.any fun v => v.isSome

/-! ## Sums (R158) -/

/-- A node of RSUM's tree: its value, its element once rounded, and flags. -/
structure SumNode where
  v    : Val
  elem : Option Nat
  fl   : Nat
  deriving DecidableEq, Repr

/-- Two neighbours joined; one alone is taken as it is. -/
def joinPair {α : Type} (f : α → α → α) : Option α → Option α → Option α
  | some a, some b => some (f a b)
  | some a, none => some a
  | none, b => b

/-- One level of a tree. -/
def treeLevel {α : Type} (f : α → α → α) : List (Option α) → List (Option α)
  | a :: b :: rest => joinPair f a b :: treeLevel f rest
  | rest => rest

/-- The root of a pairwise tree over positions 0 to 31. -/
def treeRoot {α : Type} (f : α → α → α) (xs : List (Option α)) : Option α :=
  let leaves := xs ++ List.replicate (32 - xs.length) none
  match treeLevel f (treeLevel f (treeLevel f (treeLevel f (treeLevel f leaves)))) with
  | a :: _ => a
  | [] => none

/-- The sum of two nodes, rounded. -/
def addNodes (f : FloatFmt) (rm mode : Nat) (a b : SumNode) : SumNode :=
  let (v, g) := valAdd rm a.v b.v
  let (e, h) := roundVal f rm mode v
  { v := floatVal f e 0 mode, elem := some e, fl := a.fl ||| b.fl ||| g ||| h }

/-- The tree sum of a run, with flags; none when the root is absent. -/
def treeSum (w : DWord) (z : Lanes) : Option Nat × Nat :=
  let fmt := w.fmt.toNat
  if fmtFloat fmt then
    let f := floatFmt fmt
    let rm := roundingOf w z
    match treeRoot (addNodes f rm z.mode) (z.x.map fun v => v.map fun a => { v := floatVal f a z.sl z.mode, elem := none, fl := 0 }) with
    | none => (none, 0)
    | some n =>
      match n.elem with
      | some e => (some e, n.fl)
      | none => let (e, h) := roundVal f rm z.mode n.v; (some e, n.fl ||| h)
  else (treeRoot (fun a b => (a + b) % 2 ^ fmtBits fmt) z.x, 0)

/-- The scale of a sum: 0 for floats, L's for integers. -/
def sumScale (w : DWord) (z : Lanes) : Int := if fmtFloat w.fmt.toNat then 0 else z.sl

/-- Running sums in position order (RSCAN). -/
def scanSums (f : FloatFmt) (rm mode : Nat) (sc : Int) : Val → List (Option Nat) → List (Option Nat) × Nat
  | _, [] => ([], 0)
  | acc, none :: xs => let (r, fl) := scanSums f rm mode sc acc xs; (none :: r, fl)
  | acc, some a :: xs =>
    let (v, g) := valAdd rm acc (floatVal f a sc mode)
    let (e, h) := roundVal f rm mode v
    let (r, fl) := scanSums f rm mode sc (floatVal f e 0 mode) xs
    (some e :: r, g ||| h ||| fl)

def scanInts (m : Nat) : Nat → List (Option Nat) → List (Option Nat)
  | _, [] => []
  | acc, none :: xs => none :: scanInts m acc xs
  | acc, some a :: xs => some ((acc + a) % m) :: scanInts m ((acc + a) % m) xs

/-! ## The accumulating form (R159) -/

/-- The accumulation register of a context at a slot. -/
def Tile.accReg (x : Tile) (c slot : Nat) : Option AccReg := x.accs.find? fun a => a.ctx = c && a.slot = slot

def Tile.setAccReg (x : Tile) (a : AccReg) : Tile :=
  { x with accs := (x.accs.filter fun b => !(b.ctx = a.ctx && b.slot = a.slot)) ++ [a] }

/-- T after a firing, its scale and flags; none on Illegal Scale. -/
def accumulate (w : DWord) (z : Lanes) (a : AccReg) : Option (AccReg × Nat) :=
  let fmt := w.fmt.toNat
  let (e, fl) := treeSum w z
  if fmtFloat fmt then
    match e with
    | none => some ({ a with scale := some 0 }, fl)
    | some b =>
      let f := floatFmt fmt
      let (v, g) := valAdd (roundingOf w z) (floatVal f a.total.toNat 0 z.mode) (floatVal f b 0 z.mode)
      let (r, h) := roundVal f (roundingOf w z) z.mode v
      some ({ a with total := BitVec.ofNat 64 r, scale := some 0 }, fl ||| g ||| h)
  else
    match a.scale with
    | some sc =>
      if sc ≠ z.l.scale then none
      else some ({ a with total := BitVec.ofNat 64 ((a.total.toNat + e.getD 0) % 2 ^ fmtBits fmt) }, 0)
    | none =>
      some ({ a with total := BitVec.ofNat 64 ((a.total.toNat + e.getD 0) % 2 ^ fmtBits fmt), scale := some z.l.scale }, 0)

/-- The register of a context at a slot taken, if it has none yet (R159). -/
def Tile.takeAccReg (x : Tile) (c slot : Nat) : Tile :=
  if (x.accReg c slot).isSome then x else x.setAccReg { ctx := c, slot := slot }

/-- After a run of an ordered slot has been added (R159): E moves past its tags, and what waits there takes its turn. -/
def State.nextTurnAt (s : State) (t : Nat) (p : Pairing) : State :=
  let i := s.slotInfo t p.slot
  let x := (s.tile t).setExpected p.ctx p.slot (p.itag.toNat + p.len)
  let (y, f) := Tile.earlyTurn s.cycle p.ctx p.slot i.k (Config.matchEntries + 1) (x, {})
  (s.setTile t y).applyEffects t i p.slot p.ctx p.left.fmt f

/-- A firing of the accumulating form. Its first takes the register, also where it faults; a fault changes neither the total
nor the expected tag (R161, R162), nor does a FAULT run that is passed on take its turn (log entry 160). -/
def State.rsumAcc (s : State) (t : Nat) (p : Pairing) (w : DWord) : State :=
  (s.updTile t fun x => x.takeAccReg p.ctx p.slot).withLanes t p w false w.fmt (Hold.reduce.cycles w.fmt.toNat p.len) (sameFmt w false) fun s ts z =>
    let a := ((s.tile t).accReg p.ctx p.slot).getD { ctx := p.ctx, slot := p.slot }
    match accumulate w z a with
    | none => s.fireFault t p ts w.fmt p.itag.toNat illScale.1 illScale.2
    | some (a', fl) =>
      let s := ((s.updTile t fun x => x.setAccReg a').addFlags p.ctx fl).emitRes t p ts z.fwd
        { fmt := w.fmt, scale := (a'.scale.getD 0).toInt, vals := [some a'.total.toNat] }
      if w.ord = 1 then s.nextTurnAt t p else s

def execRsum (w : DWord) (s : State) : Host.Outcome State Fault Refusal :=
  firing s fun t p =>
    if w.kr = 1 then s.rsumAcc t p w
    else
      s.runwise1 t p w w.fmt .reduce fun z =>
        let (e, fl) := treeSum w z
        ({ fmt := w.fmt, scale := sumScale w z, vals := [e] }, fl)

def execRscan (w : DWord) (s : State) : Host.Outcome State Fault Refusal :=
  firing s fun t p => s.runwise1 t p w w.fmt .reduce fun z =>
    let fmt := w.fmt.toNat
    let (vs, fl) :=
      if fmtFloat fmt then scanSums (floatFmt fmt) (roundingOf w z) z.mode z.sl (.fin false 0 0) z.x
      else (scanInts (2 ^ fmtBits fmt) 0 z.x, 0)
    ({ fmt := w.fmt, scale := sumScale w z, vals := vs }, fl)

/-! ## Extremes (R160) -/

/-- Whether element `a` is greater than `b` in a format: −0 below +0; NaNs are not compared. -/
def elemGt (fmt mode a b : Nat) : Bool :=
  if fmtFloat fmt then
    let va := floatVal (floatFmt fmt) a 0 mode
    let vb := floatVal (floatFmt fmt) b 0 mode
    let c := valCmp va vb
    c > 0 || (c = 0 && !va.neg? && vb.neg?)
  else ival fmt b < ival fmt a

/-- The greater or lesser of two elements with flags (R152, R160). -/
def pickElem (fmt mode : Nat) (max? : Bool) (a b : Nat) : Nat × Nat :=
  if fmtFloat fmt then
    let f := floatFmt fmt
    floatMinMax f max? a b (floatVal f a 0 mode) (floatVal f b 0 mode)
  else if max? then (if ival fmt a < ival fmt b then b else a, 0)
  else (if ival fmt b < ival fmt a then b else a, 0)

/-- The extreme present element, with flags. -/
def extreme (fmt mode : Nat) (max? : Bool) : List (Option Nat) → Option Nat × Nat :=
  fun xs => (xs.filterMap id).foldl (fun z a =>
    match z with
    | (none, fl) => let (r, g) := pickElem fmt mode max? a a; (some r, fl ||| g)
    | (some b, fl) => let (r, g) := pickElem fmt mode max? b a; (some r, fl ||| g)) (none, 0)

/-- Whether an element is a number. -/
def isNumber (fmt a : Nat) : Bool := !(fmtFloat fmt && (floatVal (floatFmt fmt) a 0 0).isNan)

/-- The position of the greatest number, the lowest on ties, `skip` left out. -/
def greatestAt (fmt mode : Nat) (xs : List (Option Nat)) (skip : Option Nat) : Option Nat :=
  xs.zipIdx.foldl (fun best v =>
    match v.1 with
    | none => best
    | some a =>
      if !isNumber fmt a || some v.2 = skip then best
      else
        match best with
        | none => some v.2
        | some j => if elemGt fmt mode a ((xs.getD j none).getD 0) then some v.2 else best) none

/-- NV for any signalling NaN among the present elements (R132). -/
def snanFlags (fmt : Nat) (xs : List (Option Nat)) : Nat :=
  if fmtFloat fmt && xs.any fun v => match v with
    | some a => floatVal (floatFmt fmt) a 0 0 = .snan
    | none => false
  then flagNV else 0

def execRmax (w : DWord) (s : State) : Host.Outcome State Fault Refusal :=
  firing s fun t p => s.runwise1 t p w w.fmt .reduce fun z =>
    let (r, fl) := extreme w.fmt.toNat z.mode true z.x
    ({ fmt := w.fmt, scale := z.sl, vals := [r] }, fl)

def execRmin (w : DWord) (s : State) : Host.Outcome State Fault Refusal :=
  firing s fun t p => s.runwise1 t p w w.fmt .reduce fun z =>
    let (r, fl) := extreme w.fmt.toNat z.mode false z.x
    ({ fmt := w.fmt, scale := z.sl, vals := [r] }, fl)

def execRargmx (w : DWord) (s : State) : Host.Outcome State Fault Refusal :=
  firing s fun t p => s.runwise1 t p w 11 .reduce fun z =>
    ({ fmt := 11, vals := [greatestAt w.fmt.toNat z.mode z.x none], own := z.some? }, snanFlags w.fmt.toNat z.x)

/-- RTOP2: values to T0, positions to T1. -/
def execRtop2 (w : DWord) (s : State) : Host.Outcome State Fault Refusal :=
  firing s fun t p =>
    s.withLanes t p w false w.fmt (Hold.reduce.cycles w.fmt.toNat p.len) (sameFmt w false) fun s ts z =>
      let fmt := w.fmt.toNat
      let a := greatestAt fmt z.mode z.x none
      let b := if a = none then none else greatestAt fmt z.mode z.x a
      let value (i : Option Nat) : Option Nat :=
        i.map fun j => let e := (z.x.getD j none).getD 0; (pickElem fmt z.mode true e e).1
      let part (ix : Nat) (tgt : BitVec 18) (r : Res) : List Out :=
        match r.token p z.fwd with
        | none => []
        | some tok => [{ ix := ix, tgt := tgt, tok := tok }]
      (s.addFlags p.ctx (snanFlags fmt z.x)).emitRuns t p ts w.fmt
        (part 0 w.t0 { fmt := w.fmt, scale := z.sl, vals := [value a, value b], own := z.some? } ++
         part 1 w.t1 { fmt := 11, vals := [a, b], own := z.some? })

/-! ## Lanes moved (R160) -/

def execShuf (w : DWord) (s : State) : Host.Outcome State Fault Refusal :=
  firing s fun t p => s.runwise t p w true w.fmt .permute (rightFmt w fmtInt) fun z =>
    ({ fmt := w.fmt, scale := z.sl,
       vals := z.y.map fun v => match v with
         | some j => z.x.getD j none
         | none => none,
       own := z.some? && z.y.any fun v => v.isSome }, 0)

def execBcast (w : DWord) (s : State) : Host.Outcome State Fault Refusal :=
  firing s fun t p => s.runwise1 t p w w.fmt .permute fun z =>
    ({ fmt := w.fmt, scale := z.sl, vals := z.x.map fun _ => z.x.getD (z.k % 32) none, own := z.some? }, 0)

def execRotl (w : DWord) (s : State) : Host.Outcome State Fault Refusal :=
  firing s fun t p => s.runwise1 t p w w.fmt .permute fun z =>
    ({ fmt := w.fmt, scale := z.sl, vals := (List.range p.len).map fun i => z.x.getD ((i + z.k % 32) % p.len) none }, 0)

def execCompact (w : DWord) (s : State) : Host.Outcome State Fault Refusal :=
  firing s fun t p => s.runwise1 t p w w.fmt .permute fun z =>
    let here := z.x.filter fun v => v.isSome
    ({ fmt := w.fmt, scale := z.sl, vals := here ++ List.replicate (p.len - here.length) none }, 0)

/-- Elements of L taken in order where Rt holds one (EXPAND). -/
def expandLanes (xs : List (Option Nat)) : List (Option Nat) → Nat → List (Option Nat)
  | [], _ => []
  | none :: ys, j => none :: expandLanes xs ys j
  | some _ :: ys, j => xs.getD j none :: expandLanes xs ys (j + 1)

def execExpand (w : DWord) (s : State) : Host.Outcome State Fault Refusal :=
  firing s fun t p => s.runwise t p w true w.fmt .permute (rightFmt w fun _ => true) fun z =>
    ({ fmt := w.fmt, scale := z.sl, vals := expandLanes z.x z.y 0, own := z.some? && z.y.any fun v => v.isSome }, 0)

/-- RPOP: always present, but for a run with no element under ABSORB. -/
def execRpop (w : DWord) (s : State) : Host.Outcome State Fault Refusal :=
  firing s fun t p => s.runwise1 t p w 11 .reduce fun z =>
    let n := (z.x.filter fun v => v.isSome).length
    ({ fmt := 11, vals := [if z.l.present.isEmpty && w.el = 0 then none else some n] }, 0)

/-- BITS (R157). -/
def bitLanes : List (Option Nat) → Nat
  | [] => 0
  | v :: vs => v.getD 0 % 2 + 2 * bitLanes vs

def execBits (w : DWord) (s : State) : Host.Outcome State Fault Refusal :=
  firing s fun t p => s.runwise1 t p w 11 .reduce fun z =>
    ({ fmt := 11, vals := [if z.some? then some (bitLanes z.x) else none] }, 0)

end Sys2Proof.Machine
end

