-- ==== Sys2Proof/Machine/Special.lean ====
section
/-! DEFINITION. The special functions (R154, R155): fixed-point evaluation to 320 fraction bits, which holds every
folded F32 operand exactly, then one rounding (log entry 14). -/

namespace Sys2Proof.Machine

/-! ## Fixed point -/

/-- Fraction bits, and the number 1. -/
def fxBits : Nat := 320
def fxOne : Nat := 2 ^ fxBits

/-- A finite magnitude in fixed point, exact for every folded F32 value. -/
def toFx (m : Nat) (e : Int) : Nat := if 0 ≤ e + fxBits then m * 2 ^ (e + fxBits).toNat else m / 2 ^ (-(e + fxBits)).toNat

/-- Σ tⁿ yⁿ / n! from a first term. -/
def expSum (y : Nat) : Nat → Nat → Nat → Nat
  | 0, _, _ => 0
  | n + 1, k, t => t + expSum y n (k + 1) (t * y / fxOne / k)

/-- e^y for y in [0, 1). -/
def fxExp (y : Nat) : Nat := expSum y 90 1 fxOne

/-- Σ z^(2k+1) / (2k+1), with `z2` the square of z, from the first power `p`. -/
def atanhSum (z2 : Nat) : Nat → Nat → Nat → Nat
  | 0, _, _ => 0
  | n + 1, k, p => p / k + atanhSum z2 n (k + 2) (p * z2 / fxOne)

/-- ln(M) for M in [1, 2), as 2 atanh((M − 1) / (M + 1)). -/
def fxLn (m : Nat) : Nat :=
  let z := (m - fxOne) * fxOne / (m + fxOne)
  2 * atanhSum (z * z / fxOne) 110 1 z

/-- ln 2, as 2 atanh(1/3). -/
def fxLn2 : Nat :=
  let z := fxOne / 3
  2 * atanhSum (z * z / fxOne) 110 1 z

/-- arctan(1/q), by its alternating series from the first power. -/
def atanSum (q : Nat) : Nat → Nat → Nat → Int
  | 0, _, _ => 0
  | n + 1, k, p => ((p / k : Nat) : Int) - atanSum q n (k + 2) (p / (q * q))

/-- 2π, by Machin's formula. -/
def fxTau : Nat := (2 * (16 * atanSum 5 80 1 (fxOne / 5) - 4 * atanSum 239 30 1 (fxOne / 239))).toNat

/-- Alternating Σ ± t yⁿ over every second factorial term: the sine from (y, 2), the cosine from (1, 1). -/
def circSum (y2 : Nat) : Nat → Nat → Nat → Int
  | 0, _, _ => 0
  | n + 1, k, t => (t : Int) - circSum y2 n (k + 2) (t * y2 / fxOne / (k * (k + 1)))

/-- Sine and cosine of 2π r for r in [0, 1/4). -/
def fxSin (r : Nat) : Nat :=
  let y := r * fxTau / fxOne
  (circSum (y * y / fxOne) 60 2 y).toNat
def fxCos (r : Nat) : Nat :=
  let y := r * fxTau / fxOne
  (circSum (y * y / fxOne) 60 1 fxOne).toNat

/-- e^(−u) for a fixed-point u. -/
def fxExpNeg (u : Nat) : Nat :=
  let n := u / fxLn2
  if fxBits < n then 0 else fxOne * fxOne / fxExp (u % fxLn2) / 2 ^ n

/-! ## Rounding -/

/-- A fixed-point magnitude rounded into F32 under RNE; `exact` says that nothing lies beyond its last bit. -/
def fxRound (mode : Nat) (neg : Bool) (m : Nat) (exact : Bool) : Nat × Nat :=
  if exact then roundFin f32 0 mode neg m (-(fxBits : Int)) false
  else roundFin f32 0 mode neg (max m 1) (-(fxBits : Int)) true

/-! ## The functions (R154) -/

/-- 2^x. -/
def specExp2 (mode : Nat) : Val → Nat × Nat
  | .fin neg m e =>
    let x := toFx m e
    let z : Int := if neg then -(x : Int) else x
    let n : Int := z / (fxOne : Int)
    let f := (z % (fxOne : Int)).toNat
    let n := max (-1000) (min n 1000)
    roundFin f32 0 mode false (if f = 0 then fxOne else fxExp (f * fxLn2 / fxOne)) (n - fxBits) (f ≠ 0)
  | .inf neg => (if neg then 0 else f32.infinity false, 0)
  | v => (f32.nan, nvOf v)

/-- log2 x. -/
def specLog2 (mode : Nat) : Val → Nat × Nat
  | .fin neg m e =>
    if m = 0 then (f32.infinity true, flagDZ)
    else if neg then (f32.nan, flagNV)
    else
      let b := Nat.log2 m
      let x := m * 2 ^ (fxBits - b)
      let ex : Int := e + b
      let frac := if x = fxOne then 0 else fxLn x * fxOne / fxLn2
      let z : Int := ex * (fxOne : Int) + frac
      if z = 0 then (0, 0) else fxRound mode (z < 0) z.natAbs (x = fxOne)
  | .inf neg => if neg then (f32.nan, flagNV) else (f32.infinity false, 0)
  | v => (f32.nan, nvOf v)

/-- A quarter turn's sine or cosine, by quadrant: the magnitude, its sign, and whether it is exact. -/
def quadrant (q r : Nat) : Nat × Bool :=
  match q % 4 with
  | 0 => (if r = 0 then 0 else fxSin r, false)
  | 1 => (if r = 0 then fxOne else fxCos r, false)
  | 2 => (if r = 0 then 0 else fxSin r, true)
  | _ => (if r = 0 then fxOne else fxCos r, true)

/-- sin(2πx), or with `turn` = 1 cos(2πx) = sin(2π(|x| + 1/4)). -/
def specCircle (turn mode : Nat) : Val → Nat × Nat
  | .fin neg m e =>
    let x := toFx m e % fxOne
    let quarter := fxOne / 4
    let r := x % quarter
    let (v, minus) := quadrant (x / quarter + turn) r
    let sign := if turn = 0 then minus != neg else minus
    if v = 0 then (f32.enc (turn = 0 && neg) 0 0, 0) else fxRound mode sign v (r = 0)
  | .inf _ => (f32.nan, flagNV)
  | v => (f32.nan, nvOf v)

/-- tanh x: an operand below 2^−60 gives the value just below it. -/
def specTanh (mode : Nat) : Val → Nat × Nat
  | .fin neg m e =>
    if m = 0 then (f32.enc neg 0 0, 0)
    else if e + Nat.log2 m < -60 then roundFin f32 0 mode neg (m * 2 ^ 100 - 1) (e - 100) true
    else
      let t := fxExpNeg (2 * toFx m e)
      fxRound mode neg ((fxOne - t) * fxOne / (fxOne + t)) false
  | .inf neg => (f32.enc neg f32.bias 0, 0)
  | v => (f32.nan, nvOf v)

/-- 1 / (1 + e^−x). -/
def specSigm (mode : Nat) : Val → Nat × Nat
  | .fin neg m e =>
    if m = 0 then (f32.enc false (f32.bias - 1) 0, 0)
    else
      let t := fxExpNeg (toFx m e)
      fxRound mode false ((if neg then t else fxOne) * fxOne / (fxOne + t)) false
  | .inf neg => (if neg then 0 else f32.enc false f32.bias 0, 0)
  | v => (f32.nan, nvOf v)

/-! ## The estimates (R155) -/

/-- The 9-bit significand 2 t + 1 of y, where t holds 8 bits of a normalised magnitude. -/
def estSig (m : Nat) : Nat :=
  let b := Nat.log2 m
  2 * (if 7 ≤ b then m / 2 ^ (b - 7) else m * 2 ^ (7 - b)) + 1

/-- An inexact magnitude `q` × 2^e rounded RNE to 8 significant bits, then into F32 without NX; with `uf` a tiny result
sets UF. -/
def estRound (uf : Bool) (mode : Nat) (neg : Bool) (q : Nat) (e : Int) : Nat × Nat :=
  let sh : Int := (Nat.log2 q : Int) - 7
  let (v8, _) := roundShift q sh true 0 false
  let (b, fl) := roundFin f32 0 mode neg v8 (e + sh) false
  let tiny := uf && (Nat.log2 v8 : Int) + e + sh < f32.emin
  (b, (fl &&& (flagOF ||| flagUF)) ||| (if tiny then flagUF else 0))

def specRcpe (mode : Nat) : Val → Nat × Nat
  | .fin neg m e =>
    if m = 0 then (f32.infinity neg, flagDZ)
    else
      let ex : Int := e + Nat.log2 m
      estRound true mode neg (2 ^ 40 / estSig m) (8 - ex - 40)
  | .inf neg => (f32.enc neg 0 0, 0)
  | v => (f32.nan, nvOf v)

def specRsqe (mode : Nat) : Val → Nat × Nat
  | .fin neg m e =>
    if m = 0 then (f32.infinity neg, flagDZ)
    else if neg then (f32.nan, flagNV)
    else
      let ex : Int := e + Nat.log2 m - 8
      let odd := (ex % 2).toNat
      let y := estSig m * 2 ^ odd
      estRound false mode false (isqrt 42 (2 ^ 80 / y) 0) (-((ex - odd) / 2) - 40)
  | .inf neg => if neg then (f32.nan, flagNV) else (0, 0)
  | v => (f32.nan, nvOf v)

/-! ## The instructions -/

/-- A unary F32 function of the folded operand. -/
def specOp (w : DWord) (cls : Hold) (f : (mode : Nat) → Val → Nat × Nat) : LaneOp :=
  { two := false, ok := sameFmt w false, rule := .zero, out := w.fmt, cls := cls,
    f := fun z a _ => let (b, fl) := f z.mode (floatVal f32 a z.sl z.mode); (some b, fl) }

def laneFrsqe (w : DWord) : LaneOp :=
  specOp w .simple specRsqe
def execFrsqe (w : DWord) (s : State) : Host.Outcome State Fault Refusal :=
  firing s fun t p => s.lanewise t p w (laneFrsqe w)

def laneFrcpe (w : DWord) : LaneOp :=
  specOp w .simple specRcpe
def execFrcpe (w : DWord) (s : State) : Host.Outcome State Fault Refusal :=
  firing s fun t p => s.lanewise t p w (laneFrcpe w)

def laneFexp2 (w : DWord) : LaneOp :=
  specOp w .transcendental specExp2
def execFexp2 (w : DWord) (s : State) : Host.Outcome State Fault Refusal :=
  firing s fun t p => s.lanewise t p w (laneFexp2 w)

def laneFlog2 (w : DWord) : LaneOp :=
  specOp w .transcendental specLog2
def execFlog2 (w : DWord) (s : State) : Host.Outcome State Fault Refusal :=
  firing s fun t p => s.lanewise t p w (laneFlog2 w)

def laneFsin (w : DWord) : LaneOp :=
  specOp w .transcendental (specCircle 0)
def execFsin (w : DWord) (s : State) : Host.Outcome State Fault Refusal :=
  firing s fun t p => s.lanewise t p w (laneFsin w)

def laneFcos (w : DWord) : LaneOp :=
  specOp w .transcendental (specCircle 1)
def execFcos (w : DWord) (s : State) : Host.Outcome State Fault Refusal :=
  firing s fun t p => s.lanewise t p w (laneFcos w)

def laneFtanh (w : DWord) : LaneOp :=
  specOp w .transcendental specTanh
def execFtanh (w : DWord) (s : State) : Host.Outcome State Fault Refusal :=
  firing s fun t p => s.lanewise t p w (laneFtanh w)

def laneFsigm (w : DWord) : LaneOp :=
  specOp w .transcendental specSigm
def execFsigm (w : DWord) (s : State) : Host.Outcome State Fault Refusal :=
  firing s fun t p => s.lanewise t p w (laneFsigm w)

end Sys2Proof.Machine
end

