-- ==== Sys2Proof/Machine/Matrix.lean ====
section
/-! DEFINITION. The matrix array (R172 to R186): operand descriptors, the sums of MMA and MMAC, accumulators, the command
queue, held GIVEs and MMSTAT. -/

namespace Sys2Proof.Machine

/-! ## Classes (R172) -/

/-- The classes of R172. -/
inductive MClass where
  | half
  | f19
  | f32
  | f64
  | byteFloat
  | byteInt
  | plane
  deriving DecidableEq, Repr

/-- The class of a format; none where no MMA takes it. -/
def mclass (f : Nat) : Option MClass :=
  if f = 3 || f = 4 then some .half
  else if f = 2 then some .f19
  else if f = 1 then some .f32
  else if f = 0 then some .f64
  else if f = 5 || f = 6 || f = 7 then some .byteFloat
  else if f = 10 || f = 13 then some .byteInt
  else if fmtPlanes f ≠ 0 then some .plane
  else none

/-- The accumulator kind of a class. -/
def MClass.kind : MClass → AccKindM
  | .f64 => .f64
  | .byteInt => .i32
  | .plane => .i32
  | _ => .f32

/-- Cycles per 16 k-steps, given the planes read. -/
def MClass.rate (c : MClass) (pa pb : Nat) : Nat :=
  match c with
  | .half => 16
  | .f19 => 32
  | .f32 => 64
  | .f64 => 64
  | .byteFloat => 8
  | .byteInt => 8
  | .plane => max pa pb

/-- The kind that a FMT of ACCZ or ACCWR names, and the format of a kind's elements. -/
def kindOf (f : Nat) : AccKindM := if f = 0 then .f64 else if f = 8 then .i32 else .f32
def AccKindM.fmt : AccKindM → Nat
  | .f64 => 0
  | .f32 => 1
  | .i32 => 8
/-- Columns of a kind, and the LEN of its runs. -/
def AccKindM.columns : AccKindM → Nat
  | .f64 => 32
  | _ => 64

/-! ## Descriptors (R178) -/

/-- An operand descriptor's fields; `zeroOk` says that its zero fields are zero. -/
def mdescOf (bs : List Byte) : MDesc :=
  let w1 := field bs 8 8
  let w2 := field bs 16 8
  let w3 := field bs 24 8
  { aaddr := field bs 0 8, zero := bit w1 56, bpl := bits w1 55 52, apl := bits w1 51 48, bfmt := bits w1 44 40,
    boff := bits w1 39 32, k := bits w1 29 16 + 1, n := bits w1 13 8 + 1, m := bits w1 4 0 + 1,
    astride := bits w2 47 32, acch := BitVec.ofNat 32 w2, gy := bits w3 11 9, gx := bits w3 8 6,
    gh := bits w3 5 3 + 1, gw := bits w3 2 0 + 1,
    zeroOk := bits w1 63 57 = 0 && bits w1 47 45 = 0 && bits w1 31 30 = 0 && bits w1 15 14 = 0 && bits w1 7 5 = 0 &&
      bits w2 63 48 = 0 && w3 / 2 ^ 12 = 0 }

/-- The group fields are all zero, as an MMA's must be. -/
def MDesc.alone (d : MDesc) : Bool := d.gx = 0 && d.gy = 0 && d.gw = 1 && d.gh = 1

/-- Blocks of K elements of a format: one row of A or one column of B. -/
def rowBlocks (fmt k : Nat) : Nat :=
  if fmtPlanes fmt = 0 then (k + blockCount fmt - 1) / blockCount fmt else (k + 495) / 496 * fmtPlanes fmt

/-- Whether a plane count to read is in range for a format (R178). -/
def planesFit (fmt sel : Nat) : Bool := if fmtPlanes fmt = 0 then sel = 0 else sel ≠ 1 && sel ≤ fmtPlanes fmt

/-- The fit checks of R178 on B and the shape. The rule's list of misfits does not name an N above 32 for F64; it is taken as one
(log entry 162). -/
def MDesc.fitsB (d : MDesc) : Bool :=
  d.boff + rowBlocks d.bfmt d.k ≤ 256 && planesFit d.bfmt d.bpl && (d.bfmt ≠ 0 || d.n ≤ 32)

/-- The fit checks of R178 on A, of format `fmt`, in cluster c's commons. The rule's list of misfits does not name an ASTRIDE
outside 1 to 8,192; it is taken as one (log entry 162). -/
def MDesc.fitsA (d : MDesc) (c fmt : Nat) : Bool :=
  1 ≤ d.astride && d.astride ≤ 8192 && planesFit fmt d.apl && d.aaddr % 64 = 0 &&
  bits d.aaddr 18 0 + 64 * ((d.m - 1) * d.astride + rowBlocks fmt d.k) ≤ 2 ^ 19 && inOwnCommons c d.aaddr

/-! ## Accumulators (R175, R177) -/

/-- An accumulator of a cluster. -/
def MArray.acc (a : MArray) (h : Nat) : Acc := assocGet {} a.accs (hSlot h)
def State.setAcc (s : State) (c h : Nat) (x : Acc) : State :=
  let a := (s.cluster c).array
  s.setArray c { a with accs := assocSet a.accs (hSlot h) x }

/-- The element at a row and column (R175). -/
def Acc.at_ (x : Acc) (r c : Nat) : Nat := (assocGet 0 x.elems (64 * r + c)).toNat
def Acc.put (x : Acc) (r c v : Nat) : Acc := { x with elems := assocSet x.elems (64 * r + c) (BitVec.ofNat 64 v) }

/-- Every element the canonical NaN of kind F32: what a poisoned operand leaves (R184). -/
def Acc.poisoned : Acc :=
  { kind := .f32, elems := (List.range 2048).map fun i => (i, BitVec.ofNat 64 f32.nan) }

/-! ## The sums (R180) -/

/-- One k-group of a float kind: the exact sum of its products added to the total with one rounding, and the flags. -/
def groupStep (f : FloatFmt) (mode : Nat) (acc : Nat) (pairs : List (Val × Val)) : Nat × Nat :=
  let s := pairs.foldl (fun (z : Val × Nat) p =>
    let m := valMul p.1 p.2
    let a := valAdd 0 z.1 m.1
    (a.1, z.2 ||| m.2 ||| a.2)) (Val.fin false 0 0, 0)
  let t := valAdd 0 (floatVal f acc 0 mode) s.1
  let r := roundVal f 0 mode t.1
  (r.1, s.2 ||| t.2 ||| r.2)

/-- All k-groups of a float kind in ascending order, `g` elements each. -/
def groupSteps (f : FloatFmt) (mode g : Nat) : Nat → Nat → List (Val × Val) → Nat × Nat
  | 0, acc, _ => (acc, 0)
  | fuel + 1, acc, ps =>
    if ps.isEmpty then (acc, 0)
    else
      let r := groupStep f mode acc (ps.take g)
      let t := groupSteps f mode g fuel r.1 (ps.drop g)
      (t.1, r.2 ||| t.2)

/-- The integer sum of the I32 kind, modulo 2^32. -/
def intSteps (acc : Nat) (ps : List (Int × Int)) : Nat := low 32 (ps.foldl (fun (z : Int) p => z + p.1 * p.2) acc)

/-- An operand row or column as read: blocks in element order. Element i's payload and its block's scale. -/
def rowElem (fmt p : Nat) (blocks : List (List Byte)) (i : Nat) : Nat × Int :=
  if fmtPlanes fmt = 0 then
    let b := blocks.getD (i / blockCount fmt) []
    (blockElem b fmt (i % blockCount fmt), (blockScale b).toInt)
  else
    let k := fmtPlanes fmt
    let g := (blocks.drop (i / 496 * k)).take k
    (planeElem fmt p g (i % 496), (blockScale (g.headD [])).toInt)

/-- The integer value of a payload of a byte or plane format. -/
def rowInt (fmt v : Nat) : Int := if fmt = 10 || fmtPlaneSigned fmt then sval 8 v else (v : Int)

/-- The blocks that are read of a row: all, or the first p of each plane group. -/
def readOf (fmt p i : Nat) : Bool := fmtPlanes fmt = 0 || i % fmtPlanes fmt < p

/-- R138, R139, and the format the descriptor declares (log entry 21), over the blocks of a row that are read: the first
fault, with the index of its block. -/
def rowFault (fmt p : Nat) (blocks : List (List Byte)) : Option (Nat × Nat × Nat) :=
  let k := fmtPlanes fmt
  let one (b : List Byte) (i : Nat) : Option (Nat × Nat × Nat) :=
    let first := blocks.getD (i / k * k) []
    if !readOf fmt p i then none
    else if !blockOk b then some (0x0B, 0x0B, i)
    else if k ≠ 0 && i % k ≠ 0 && (blockFmt b ≠ blockFmt first || blockScale b ≠ blockScale first) then some (0x0B, 0x0B, i)
    else if blockFmt b ≠ fmt then some (0x0B, 0x02, i)
    else none
  (blocks.zipIdx.filterMap fun b => one b.1 b.2).head?

/-- The one scale of the blocks read of several rows; none where they differ (R180). -/
def oneScale (fmt p : Nat) (rows : List (List (List Byte))) : Option Int :=
  let all := rows.flatMap fun r => (r.zipIdx.filter fun b => readOf fmt p b.2).map fun b => blockScale b.1
  match all with
  | [] => some 0
  | x :: xs => if xs.all fun y => y = x then some x.toInt else none

/-- A fault met by an operand: cause, subcode and the address of its block. -/
abbrev OperandFault := Nat × Nat × Nat

/-- The blocks of a row of A that are read, each whole, through the commons (R178, R185), from the i-th on; the others are
left empty. -/
def State.readRow (s : State) (c tenant va fmt p : Nat) : Nat → Nat → Except OperandFault (List (List Byte)) × State
  | 0, _ => (.ok [], s)
  | left + 1, i =>
    if !readOf fmt p i then
      match s.readRow c tenant va fmt p left (i + 1) with
      | (.ok bs, s') => (.ok ([] :: bs), s')
      | (.error e, s') => (.error e, s')
    else
      match s.readCommons c tenant (va + 64 * i) 64 with
      | .error (e, u) => (.error (e, u, va + 64 * i), s)
      | .ok (b, s') =>
        match s'.readRow c tenant va fmt p left (i + 1) with
        | (.ok bs, s'') => (.ok (b :: bs), s'')
        | (.error e, s'') => (.error e, s'')

/-- The rows of A in a cluster's commons, from row r on, up to the first fault (R178). -/
def State.readRows (s : State) (c tenant fmt p : Nat) (d : MDesc) : Nat → Nat → (List (List (List Byte)) × Option OperandFault) × State
  | 0, _ => (([], none), s)
  | left + 1, r =>
    let va := d.aaddr + 64 * r * d.astride
    match s.readRow c tenant va fmt p (rowBlocks fmt d.k) 0 with
    | (.error e, s') => (([], some e), s')
    | (.ok bs, s') =>
      match rowFault fmt p bs with
      | some (e, u, i) => (([], some (e, u, va + 64 * i)), s')
      | none =>
        let z := s'.readRows c tenant fmt p d left (r + 1)
        ((bs :: z.1.1, z.1.2), z.2)

/-- Column j of B: blocks of slice j of the B store from BOFF (R173). -/
def Cluster.column (x : Cluster) (fmt : Nat) (d : MDesc) (j : Nat) : List (List Byte) :=
  (List.range (rowBlocks fmt d.k)).map fun i => cellsGet x.bstore ((j * 256 + d.boff + i) * 64) 64

/-- The first fault of column j: a block marked bad, or one that fails its checks (R173, R184). Its address is that of a
BSTORE destination, slice × 256 + block (R189; log entry 139). -/
def Cluster.columnFault (x : Cluster) (fmt p : Nat) (d : MDesc) (j : Nat) : Option OperandFault :=
  let at_ (i : Nat) : Nat := j * 256 + d.boff + i
  let bad := (List.range (rowBlocks fmt d.k)).find? fun i => readOf fmt p i && x.bpoison.contains (at_ i)
  match rowFault fmt p (x.column fmt d j), bad with
  | some (e, u, i), some k => if k ≤ i then some (0x08, 0x00, at_ k) else some (e, u, at_ i)
  | some (e, u, i), none => some (e, u, at_ i)
  | none, some k => some (0x08, 0x00, at_ k)
  | none, none => none

/-- The sum of one element of the output: A's row, B's column, and the element before (R180). -/
def sumElem (cls : MClass) (fa fb pa pb k mode acc : Nat) (a b : List (List Byte)) : Nat × Nat :=
  match cls.kind with
  | .i32 =>
    (intSteps acc ((List.range k).map fun i => (rowInt fa (rowElem fa pa a i).1, rowInt fb (rowElem fb pb b i).1)), 0)
  | kind =>
    let val (f : Nat) (z : Nat × Int) : Val := floatVal (floatFmt f) z.1 z.2 mode
    groupSteps (floatFmt kind.fmt) mode (if kind = .f64 then 1 else 8) (k + 1) acc
      ((List.range k).map fun i => (val fa (rowElem fa pa a i), val fb (rowElem fb pb b i)))

/-- All sums of an MMA over an accumulator, with the flags. -/
def sumAll (cls : MClass) (fa fb pa pb mode : Nat) (d : MDesc) (rows cols : List (List (List Byte))) (x : Acc) : Acc × Nat :=
  rows.zipIdx.foldl (fun (z : Acc × Nat) a =>
    cols.zipIdx.foldl (fun (y : Acc × Nat) b =>
      let r := sumElem cls fa fb pa pb d.k mode (y.1.at_ a.2 b.2) a.1 b.1
      (y.1.put a.2 b.2 r.1, y.2 ||| r.2)) z) (x, 0)

/-- What an MMA leaves: the accumulator and flags, or a fault; poison is met mid-way, any other before a write (R184). -/
inductive Summed where
  | ok (x : Acc) (flags : Nat)
  | bad (e : OperandFault)

/-- The sums of an MMA whose descriptor is d, over rows of A of format fa, in cluster c (R180). Blocks of unequal SCALE
within an operand are refused whatever the kind (log entry 63), and a product scale that no SCALE can hold (log entry
137). -/
def State.sum (s : State) (c fa ctx : Nat) (d : MDesc) (rows : List (List (List Byte))) : Summed :=
  match mclass fa with
  | none => .bad (0x0B, 0x02, d.aaddr)
  | some cls =>
    let fb := d.bfmt
    let pa := planesRead (fmtPlanes fa) d.apl
    let pb := planesRead (fmtPlanes fb) d.bpl
    let x : Acc := if d.zero then { kind := cls.kind } else (s.cluster c).array.acc d.acch.toNat
    let cols := (List.range d.n).map fun j => (s.cluster c).column fb d j
    match ((List.range d.n).filterMap fun j => (s.cluster c).columnFault fb pb d j).head? with
    | some e => .bad e
    | none =>
      match oneScale fa pa rows, oneScale fb pb cols with
      | some sa, some sb =>
        let sc := sa + ((fmtPlanes fa : Int) - pa) + sb + ((fmtPlanes fb : Int) - pb)
        let r := sumAll cls fa fb pa pb (s.ctx ctx).mode.toNat d rows cols x
        if cls.kind ≠ .i32 then .ok r.1 r.2
        else if sc < -128 || 127 < sc || x.scale.any fun z => z ≠ sc then .bad (0x0B, 0x03, d.aaddr)
        else .ok { r.1 with scale := some sc } r.2
      | _, _ => .bad (0x0B, 0x03, d.aaddr)

/-! ## Acceptance (R176, R180, R183) -/

/-- The accumulator handle of the descriptor at an address, which orders the command among those of its accumulator
(R176); its checks come at its start. -/
def State.peekHandle (s : State) (c desc : Nat) : BitVec 32 :=
  if inOwnCommons c desc then BitVec.ofNat 32 (ofBytes (cellsGet s.mem (commonsBase c + bits desc 18 0 + 16) 4)) else 0

/-- A command put into the array's queue; a GIVE of its accumulator that is held there goes first (R177). -/
def State.queueArray (s : State) (c : Nat) (q : ArrayCmd) : State :=
  let a := (s.cluster c).array
  let behind := a.gives.any fun g => hSlot g.handle.toNat = hSlot q.handle.toNat
  s.setArray c { a with queue := a.queue ++ [{ q with born := s.cycle, behind := behind }] }

/-- Whether the array's queue has room (R176). -/
def State.arrayRoom (s : State) (c : Nat) : Bool := ((s.cluster c).array.queue).length < 8

/-- The firing of a matrix instruction that is queued; a handle of `none` is read from the descriptor. -/
def State.arrayFire (s : State) (t : Nat) (p : Pairing) (w : EWord) (op : ArrayOp) (out : Fmt) (handle : Token → Option Nat) :
    State :=
  s.engineFire t p w out fun s _ l =>
    let c := clusterOf t
    let k := s.konst t w.kidx.toNat
    s.queueArray c
      { op := op, fmt := w.fmt.toNat, desc := k, shape := k,
        handle := match handle l with
          | some h => BitVec.ofNat 32 h
          | none => s.peekHandle c k
        src := .slot t p.slot l, ctx := p.ctx, tenant := (s.ctx p.ctx).tenant, itag := p.itag, l := l, r := p.right }

def execMma (w : EWord) (s : State) : Host.Outcome State Fault Refusal :=
  firing s fun t p => s.arrayFire t p w .mma 11 fun _ => none

def execMmac (w : EWord) (s : State) : Host.Outcome State Fault Refusal :=
  firing s fun t p => s.arrayFire t p w .mmac 11 fun _ => none

def execAccz (w : EWord) (s : State) : Host.Outcome State Fault Refusal :=
  firing s fun t p => s.arrayFire t p w .accz p.left.fmt fun l => some l.lowest

def execAccrd (w : EWord) (s : State) : Host.Outcome State Fault Refusal :=
  firing s fun t p => s.arrayFire t p w .accrd 1 fun l => some l.lowest

/-- ACCWR (R182): the handle comes on the r port; with no element present on either port nothing is issued. -/
def execAccwr (w : EWord) (s : State) : Host.Outcome State Fault Refusal :=
  firing s fun t p =>
    let r := p.right
    let ts := s.targets t w.nt w.t1 w.t0
    if p.left.act ≠ .fault && r.act = .fault then (s.hold t 1).passFault t p ts 11 r
    else if p.left.act ≠ .fault && r.present.isEmpty then
      (s.hold t 1).emit t p.slot p.ctx p.itag.toNat (toAll ts (bareToken .empty 11 p))
    else s.arrayFire t p w .accwr 11 fun _ => some r.lowest

/-- MMA of a control core (R183): the A format is BFMT, taken at the start. -/
def execMmaC (d a : BitVec 5) (_q : BitVec 1) (sc : BitVec 3) (s : State) : Host.Outcome State Fault Refusal :=
  tasking s fun c k t =>
    s.scoped c k sc (s.taskIssue c k t d (s.arrayRoom c) fun s =>
      let desc := (t.reg a).toNat
      s.queueArray c
        { op := .mma, desc := desc, handle := s.peekHandle c desc, src := .task c k d.toNat, ctx := t.ctx,
          tenant := s.actingTenant t.tenant t.asid, fmt := 32 })

/-- MMSTAT's elements (R182). -/
def State.arrayStat (s : State) (c : Nat) : List Nat :=
  let a := (s.cluster c).array
  let busy := (List.range 4).foldl (fun n i =>
    n + if a.queue.any fun q => hSlot q.handle.toNat = i && q.started then 2 ^ i else 0) 0
  let held := (List.range 4).foldl (fun n i =>
    n + if a.gives.any fun g => hSlot g.handle.toNat = i then 2 ^ (4 + i) else 0) 0
  let group := match a.queue.find? fun q => q.op = .mmac && q.started with
    | some q => q.d.gw - 1 + 8 * (q.d.gh - 1)
    | none => 0
  [busy + held + 256 * a.queue.length, a.done.toNat, a.busy.toNat, group]

/-- An N32 run of LEN 4 at L's ITAG (R182, R198). -/
def fourN32 (p : Pairing) (vs : List Nat) : Token :=
  { act := .normal, fmt := 11, len := 4, ctx := p.ctx, itag := p.itag, mask := 15,
    data := vs.map fun v => BitVec.ofNat 64 (v % 2 ^ 32) }

/-- MMSTAT (R182). -/
def execMmstat (w : EWord) (s : State) : Host.Outcome State Fault Refusal :=
  firing s fun t p => s.engineFire t p w 11 fun s ts _ => s.emitRun t p ts (fourN32 p (s.arrayStat (clusterOf t)))

/-! ## Results (R180, R182, R184) -/

/-- Tokens of a command that completed: to the slot's targets, or a status in gD. -/
def State.arrayResult (s : State) (q : ArrayCmd) (toks : List Token) (status : Nat) : State :=
  match q.src with
  | .slot t slot _ => s.emit t slot q.ctx q.itag.toNat (toks.flatMap fun tok => toAll (s.slotTargets t slot) tok)
  | src => s.srcResult src (BitVec.ofNat 64 status)

/-- Format, ITAG and LEN of the result that a FAULT token replaces (R314). -/
def ArrayCmd.shapeOf (q : ArrayCmd) (kind : AccKindM) : Fmt × BitVec 32 × Nat :=
  match q.op with
  | .accz => (q.l.fmt, q.itag, q.l.len)
  | .accwr => (11, q.itag, q.l.len)
  | .accrd => (BitVec.ofNat 5 kind.fmt, BitVec.ofNat 32 (q.itag.toNat / 2048 * 2048), if kind = .f64 then 16 else 32)
  | _ => (11, q.itag, 1)

/-- A command's fault (R184): one record, and a FAULT token, or the status in gD. -/
def State.arrayFault (s : State) (c : Nat) (q : ArrayCmd) (cause sub address : Nat) : State :=
  let kind := ((s.cluster c).array.acc q.handle.toNat).kind
  let itag := if q.src.byTask then 0 else q.itag.toNat
  let (s, seq, _) := s.raise (engineRecord 3 0 c q.ctx q.tenant itag cause sub address)
  let (fmt, tag, len) := q.shapeOf kind
  s.arrayResult q [faultToken fmt q.ctx tag len cause sub false 0 seq] (cause * 256 + sub)

/-- Held GIVEs whose accumulator has no earlier command left are served, each checked as it is (R110, R177). -/
def State.serveGives (s : State) (c : Nat) : State :=
  let t := tileIn c 15
  (s.cluster c).array.gives.foldl (fun (z : State) o =>
    if z.accBusy t o.handle.toNat then z
    else
      let a := (z.cluster c).array
      let z := z.setArray c { a with gives := a.gives.erase o }
      z.serveOp t o) s

/-- The k-th command leaves the queue: its work has been done in `s`; tasks that waited for room go on. -/
def State.dropArray (s : State) (c k : Nat) : State :=
  let a := (s.cluster c).array
  (s.setArray c { a with queue := a.queue.eraseIdx k }).wake c .engine

/-- A command that failed leaves the queue with its fault, and GIVEs held for it are served. -/
def State.failArray (s : State) (c k : Nat) (q : ArrayCmd) (cause sub address : Nat) : State :=
  (((s.dropArray c k).arrayFault c q cause sub address).serveGives c).progressed q.ctx

/-! ## Starting (R176, R177) -/

/-- An ACCRD of another iteration while its accumulator is HELD (R177). -/
def State.readerWaits (s : State) (c : Nat) (q : ArrayCmd) : Bool :=
  let z := (s.cluster c).array.pool.slots.getD (hSlot q.handle.toNat) {}
  q.op = .accrd && !q.started && z.st = .held && (z.ownerCtx ≠ q.ctx || z.ownerTag ≠ q.itag)

/-- Whether a command multiplies. -/
def ArrayCmd.multiplies (q : ArrayCmd) : Bool := q.op = .mma || q.op = .mmac

/-- Whether the k-th command of the queue may start (R176, R177). -/
def State.mayStart (s : State) (c k : Nat) (q : ArrayCmd) : Bool :=
  !q.started && !q.behind && !s.readerWaits c q &&
  ((s.cluster c).array.queue.take k).all fun z =>
    (hSlot z.handle.toNat ≠ hSlot q.handle.toNat || s.readerWaits c z) && !(q.multiplies && z.multiplies)

/-- The checks before an MMA's first accumulator write (R178, R180, R183): the A format and descriptor, or a fault. -/
def State.checkMma (s : State) (c : Nat) (q : ArrayCmd) (bs : List Byte) : Except (Nat × Nat) (Nat × MDesc) :=
  let d := mdescOf bs
  let fa := if q.fmt = 32 then d.bfmt else q.fmt
  let follower := q.op = .mmac && d.gx ≠ 0
  if q.desc % 32 ≠ 0 || !d.zeroOk || (q.op = .mma && !d.alone) then .error (0x0B, 0x0C)
  else if !follower && !inOwnCommons c d.aaddr then .error (0x0F, 0x04)
  else if !d.fitsB || !(if follower then planesFit fa d.apl else d.fitsA c fa) then .error (0x0F, 0x02)
  else
    match s.accCheck c d.acch.toNat q.ctx true with
    | some e => .error e
    | none =>
      match mclass fa, mclass d.bfmt with
      | some ca, some cb =>
        if ca ≠ cb then .error (0x0B, 0x02)
        else if !d.zero && ((s.cluster c).array.acc d.acch.toNat).kind ≠ ca.kind then .error (0x0B, 0x02)
        else .ok (fa, d)
      | _, _ => .error (0x0B, 0x02)

/-- The start of an MMA or of an MMAC's member: descriptor read and checked. -/
def State.openMma (s : State) (c : Nat) (q : ArrayCmd) : Except (Nat × Nat) (ArrayCmd × State) :=
  match s.readCommons c q.tenant q.desc 32 with
  | .error e => .error e
  | .ok (bs, s') =>
    match s'.checkMma c q bs with
    | .error e => .error e
    | .ok (fa, d) => .ok ({ q with fmt := fa, d := d, handle := d.acch, started := true }, s')

/-- A started command put back at its place. -/
def State.setArrayCmd (s : State) (c k : Nat) (q : ArrayCmd) : State :=
  let a := (s.cluster c).array
  s.setArray c { a with queue := a.queue.set k q }

/-- ARRAY_COMMAND_START (R176): the k-th command of cluster u starts; an MMAC starts with its row instead. -/
def execArrayCommandStart (s : State) : Host.Outcome State Fault Refusal :=
  match s.focus with
  | .event u k =>
    match (s.cluster u).array.queue[k]? with
    | none => .next s
    | some q =>
      if q.op = .mmac || !s.mayStart u k q then .next s
      else if q.op = .mma then
        match s.openMma u q with
        | .error (c, f) => .next (s.failArray u k q c f q.desc)
        | .ok (q', s') => .next (s'.setArrayCmd u k q')
      else
        match s.accCheck u q.handle.toNat q.ctx (q.op ≠ .accrd) with
        | some (c, f) => .next (s.failArray u k q c f q.handle.toNat)
        | none => .next (s.setArrayCmd u k { q with started := true })
  | _ => .next s

/-! ## MMAC's rows (R181) -/

/-- The queue position of a cluster's first multiplying command, if it may start. -/
def State.headMmac (s : State) (c : Nat) : Option (Nat × ArrayCmd) :=
  match (s.cluster c).array.queue.findIdx? fun q => q.multiplies with
  | none => none
  | some k =>
    match (s.cluster c).array.queue[k]? with
    | none => none
    | some q => if q.op = .mmac && s.mayStart c k q then some (k, q) else none

/-- Whether a member's cluster lies in the context's region, unfused (R181). -/
def State.memberOk (s : State) (ctx col row : Nat) : Bool :=
  col < 32 && row < 16 &&
  (let t := tileIn (32 * row + col) 15
   !s.fused t && (match s.ctxRegion ctx with
    | some r => r.holds t
    | none => false))

/-- The members of a row under a context: cluster, queue position and command; none while one has not accepted its MMAC. An MMAC
of another context at a position is none of the group: the row waits until it is over (log entry 165). -/
def State.rowMembers (s : State) (ctx row col0 w : Nat) : Option (List (Nat × Nat × ArrayCmd)) :=
  (List.range w).foldr (fun i z =>
    match z, s.headMmac (32 * row + col0 + i) with
    | some l, some (k, q) => if q.ctx = ctx then some ((32 * row + col0 + i, k, q) :: l) else none
    | _, _ => none) (some [])

/-- The descriptor of a cluster's MMAC that has been accepted and not completed, with its A format, under a context. -/
def State.acceptedMmac (s : State) (c ctx : Nat) : Option (Nat × ArrayCmd × MDesc) :=
  (((s.cluster c).array.queue.zipIdx.find? fun q => q.1.multiplies).filter fun q => q.1.op = .mmac && q.1.ctx = ctx).map fun q =>
    (q.2, q.1, if q.1.started then q.1.d
               else mdescOf (cellsGet s.mem (commonsBase c + bits q.1.desc 18 0) 32))

/-- The members north and south of one that have accepted an MMAC that disagrees with it (R181): cluster, queue position,
command. -/
def State.discord (s : State) (m : Nat × Nat × ArrayCmd) : List (Nat × Nat × ArrayCmd) :=
  let d := m.2.2.d
  let at_ (c gy : Nat) : List (Nat × Nat × ArrayCmd) :=
    match s.acceptedMmac c m.2.2.ctx with
    | none => []
    | some (k, q, e) =>
      if e.m = d.m && e.k = d.k && e.gw = d.gw && e.gh = d.gh && e.bfmt = d.bfmt && q.fmt = m.2.2.fmt && e.gx = d.gx && e.gy = gy
      then [] else [(c, k, q)]
  (if d.gy = 0 then [] else at_ (m.1 - 32) (d.gy - 1)) ++ (if d.gy + 1 < d.gh then at_ (m.1 + 32) (d.gy + 1) else [])

/-- Every member of a row fails with one cause. -/
def State.failRow (s : State) (ms : List (Nat × Nat × ArrayCmd)) (cause sub : Nat) : State :=
  ms.foldl (fun (z : State) m => z.failArray m.1 m.2.1 m.2.2 cause sub m.2.2.desc) s

/-- Whether the i-th member's command and descriptor agree with the first's (R181). -/
def rowAgrees (a b : ArrayCmd) (i : Nat) : Bool :=
  a.fmt = b.fmt && a.d.bfmt = b.d.bfmt && a.d.m = b.d.m && a.d.k = b.d.k && a.d.gw = b.d.gw &&
  a.d.gh = b.d.gh && a.d.gy = b.d.gy && b.d.gx = i

/-- The members of a row opened one after another; members that fail their own checks are reported. -/
def State.openRow (s : State) : List (Nat × Nat × ArrayCmd) → List (Nat × Nat × ArrayCmd) × State × Bool
  | [] => ([], s, true)
  | (c, k, q) :: ms =>
    match s.openMma c q with
    | .error (e, f) =>
      let s := s.failArray c k q e f q.desc
      let r := s.openRow ms
      (r.1, r.2.1, false)
    | .ok (q', s') =>
      let r := s'.openRow ms
      ((c, k, q') :: r.1, r.2)

/-- A row's members started: each takes A from where the member at GX = 0 names it. -/
def State.startRow (s : State) (ms : List (Nat × Nat × ArrayCmd)) : State :=
  match ms with
  | [] => s
  | (_, _, a) :: _ =>
    ms.foldl (fun (z : State) m =>
      z.setArrayCmd m.1 m.2.1
        { m.2.2 with d := { m.2.2.d with aaddr := a.d.aaddr, astride := a.d.astride } }) s

/-- MMAC_ROW_START (R181): the row of cluster u's group starts once every member has accepted its MMAC. Members of the rows
beside it that have accepted one and disagree fail with it, but one already running goes on (log entry 138). Where one
member fails its own checks, the others of its row fail with Group (log entry 163), and so does a member whose GX or GY lies
outside its own group (log entry 164). -/
def execMmacRowStart (s : State) : Host.Outcome State Fault Refusal :=
  match s.focus with
  | .event u _ =>
    match s.headMmac u with
    | none => .next s
    | some (k, q) =>
      match s.readCommons u q.tenant q.desc 32 with
      | .error (c, f) => .next (s.failArray u k q c f q.desc)
      | .ok (bs, _) =>
        let d := mdescOf bs
        let col := u % 32
        let row := u / 32
        let inside := d.gx ≤ col && d.gy ≤ row &&
          (List.range d.gw).all fun i => (List.range d.gh).all fun j => s.memberOk q.ctx (col - d.gx + i) (row - d.gy + j)
        if !inside then .next (s.failArray u k q 0x09 0x00 q.desc)
        else if d.gw ≤ d.gx || d.gh ≤ d.gy then .next (s.failArray u k q 0x0B 0x0D q.desc)
        else
          match s.rowMembers q.ctx row (col - d.gx) d.gw with
          | none => .next s
          | some ms =>
            let (open_, s', ok) := s.openRow ms
            let first := (open_.headD (0, 0, {})).2.2
            if !ok then .next (s'.failRow open_ 0x0B 0x0D)
            else if open_.zipIdx.all fun m => rowAgrees first m.1.2.2 m.2 then
              let others := open_.flatMap s'.discord
              if others.isEmpty then .next (s'.startRow open_)
              else .next (s'.failRow (open_ ++ others.filter fun m => !m.2.2.started) 0x0B 0x0D)
            else .next (s'.failRow open_ 0x0B 0x0D)
  | _ => .next s

/-! ## Completion -/

/-- The runs of an ACCRD (R182): M rows of N columns, the shape in K. -/
def accRuns (q : ArrayCmd) (x : Acc) : List Token :=
  let m := bits q.shape 5 0
  let n := min (bits q.shape 14 8) x.kind.columns
  let len := if x.kind = .f64 then 16 else 32
  let base := q.itag.toNat / 2048 * 2048
  (List.range m).flatMap fun r =>
    (List.range ((n + len - 1) / len)).map fun j =>
      { act := .normal, fmt := BitVec.ofNat 5 x.kind.fmt, len := len,
        scale := if x.kind = .i32 then BitVec.ofInt 8 (x.scale.getD 0) else 0, ctx := q.ctx,
        itag := BitVec.ofNat 32 (base + 64 * r + len * j), mask := fullMask (min len (n - len * j)),
        data := (List.range (min len (n - len * j))).map fun i => BitVec.ofNat 64 (x.at_ r (len * j + i)) }

/-- An accumulator whose kind ACCWR sets (R175): the 8 KiB it holds are read under the new kind, which keeps 32-bit elements
as they are; what elements read as across a change to or from F64 is left open, so they are free (log entry 70). -/
def Acc.retyped (x : Acc) (kind : AccKindM) (tick : Nat) : Acc :=
  if x.kind = kind then x
  else if x.kind = .f64 || kind = .f64 then
    { kind := kind, elems := (List.range 32).flatMap fun r => (List.range kind.columns).map fun c =>
        (64 * r + c, BitVec.ofNat 64 (low (if kind = .f64 then 64 else 32) (Config.freeWord (tick + 64 * r + c)).toNat)) }
  else { x with kind := kind, scale := none }

/-- ACCWR's effect (R175, R182): the accumulator, whose kind becomes that of the slot's FMT, or its fault. -/
def accWrite (q : ArrayCmd) (x : Acc) (tick : Nat) : Except (Nat × Nat) Acc :=
  let x := x.retyped (kindOf q.fmt) tick
  let l := q.l
  let sc := l.scale.toInt
  let col (i : Nat) : Nat := (q.itag.toNat + i) % 64
  if q.fmt ≠ l.fmt.toNat then .error (0x0B, 0x02)
  else if x.kind = .i32 && x.scale.any (fun z => z ≠ sc) then .error (0x0B, 0x03)
  else if l.present.any fun i => x.kind.columns ≤ col i then .error (0x0F, 0x03)
  else
    .ok (l.present.foldl (fun (z : Acc) i => z.put ((q.itag.toNat + i) / 64 % 32) (col i) (l.elem i))
      { x with scale := if x.kind = .i32 then some sc else x.scale })

/-- Cycles an MMA runs (R185). -/
def mmaCycles (q : ArrayCmd) : Nat :=
  let rate := match mclass q.fmt with
    | some c => c.rate (planesRead (fmtPlanes q.fmt) q.d.apl) (planesRead (fmtPlanes q.d.bfmt) q.d.bpl)
    | none => 0
  12 + (q.d.k * rate + 15) / 16

/-- The meter of a class (R344). -/
def MClass.meter : MClass → Nat
  | .half => 1
  | .f19 => 2
  | .f32 => 3
  | .f64 => 4
  | .byteFloat => 5
  | .byteInt => 6
  | .plane => 7

/-- The MACs of a completed MMA or MMAC charged to its tenant (R344). -/
def State.countMacs (s : State) (q : ArrayCmd) : State :=
  match mclass q.fmt with
  | some c => s.addMeter q.tenant c.meter (q.d.m * q.d.n * q.d.k)
  | none => s

/-- The MMA counters of MMSTAT raised (R182). -/
def State.countMma (s : State) (c : Nat) (q : ArrayCmd) : State :=
  let a := (s.cluster c).array
  s.setArray c { a with done := a.done + 1, busy := a.busy + BitVec.ofNat 32 (mmaCycles q) }

/-- The rows of A in cluster c's commons, as a command reads them (R178, R181). -/
def State.rowsAt (s : State) (c : Nat) (q : ArrayCmd) : (List (List (List Byte)) × Option OperandFault) × State :=
  s.readRows c q.tenant q.fmt (planesRead (fmtPlanes q.fmt) q.d.apl) q.d q.d.m 0

/-- A that an MMAC's first member has read, passed east to the other members of its row: each gets the planes that it reads
itself (R181). -/
def State.passRow (s : State) (c : Nat) (q : ArrayCmd) : State :=
  (List.range (q.d.gw - 1)).foldl (fun (z : State) i =>
    let a := (z.cluster (c + 1 + i)).array
    z.setArray (c + 1 + i) { a with queue := a.queue.map fun m =>
      if m.op = .mmac && m.started && m.ctx = q.ctx then { m with passed := some (s.rowsAt c m).1 } else m }) s

/-- The rows of A for a command that completes (R180, R181): read from the commons, or passed to it. -/
def State.rowsOf (s : State) (c : Nat) (q : ArrayCmd) : (List (List (List Byte)) × Option OperandFault) × State :=
  match q.passed with
  | some z => (z, s)
  | none =>
    let z := s.rowsAt c q
    (z.1, if q.op = .mmac then z.2.passRow c q else z.2)

/-- A command's fault as it completes: poison leaves the accumulator canonical NaNs (R184). -/
def State.endMma (s : State) (c k : Nat) (q : ArrayCmd) (e : OperandFault) : State :=
  let s := if e.1 = 0x08 then s.setAcc c q.d.acch.toNat Acc.poisoned else s
  (s.countMma c q).failArray c k q e.1 e.2.1 e.2.2

/-- An MMA's or a member's completion (R180, R184); a member that A has not reached yet goes on waiting (R181). -/
def State.completeMma (s : State) (c k : Nat) (q : ArrayCmd) : State :=
  if q.op = .mmac && q.d.gx ≠ 0 && q.passed.isNone then s
  else
    let ((rows, bad), s) := s.rowsOf c q
    match bad with
    | some e => s.endMma c k q e
    | none =>
      match s.sum c q.fmt q.ctx q.d rows with
      | .bad e => s.endMma c k q e
      | .ok x fl =>
        let s := (((s.setAcc c q.d.acch.toNat x).addFlags q.ctx fl).countMma c q).countMacs q
        (((s.dropArray c k).arrayResult q [oneN32 q.ctx q.itag q.d.acch.toNat] 0).serveGives c).progressed q.ctx

/-- A command's tokens emitted as it completes. -/
def State.completeAcc (s : State) (c k : Nat) (q : ArrayCmd) (toks : List Token) : State :=
  (((s.dropArray c k).arrayResult q toks 0).serveGives c).progressed q.ctx

/-- ARRAY_COMMAND_COMPLETE (R180, R182): the k-th command of cluster u, started before, takes effect and emits. -/
def execArrayCommandComplete (s : State) : Host.Outcome State Fault Refusal :=
  match s.focus with
  | .event u k =>
    match (s.cluster u).array.queue[k]? with
    | none => .next s
    | some q =>
      let h := q.handle.toNat
      let x := (s.cluster u).array.acc h
      let first := ((s.cluster u).array.queue.take k).all fun z => hSlot z.handle.toNat ≠ hSlot q.handle.toNat || !z.started
      if !q.started || !first then .next s
      else
        match q.op with
        | .mma => .next (s.completeMma u k q)
        | .mmac => .next (s.completeMma u k q)
        | .accz => .next ((s.setAcc u h { kind := kindOf q.fmt }).completeAcc u k q [q.l])
        | .accrd => .next (s.completeAcc u k q (accRuns q x))
        | .accwr =>
          match accWrite q x s.tick with
          | .error (c, f) => .next (s.failArray u k q c f h)
          | .ok y =>
            .next ((({ s with tick := s.tick + 2048 } : State).setAcc u h y).completeAcc u k q
              [{ q.l with act := .normal, fmt := 11, scale := 0,
                          data := (List.range q.l.len).map fun i => if q.l.has i then BitVec.ofNat 64 h else 0 }])
        | .mmstat => .next (s.dropArray u k)
  | _ => .next s

end Sys2Proof.Machine
end

