-- ==== Sys2Proof/Machine/Streamer.lean ====
section
/-! DEFINITION. The streamer (R187 to R203): descriptors, acceptance, the work of an AGN one access at a time, templates
and trigger channels, transforms, completions, CPSTAT, CPSTOP and RESUME. -/

namespace Sys2Proof.Machine

/-! ## Descriptors (R188, R189) -/

/-- A descriptor's fields; `zeroOk` says that its zero fields are zero. -/
def descOf (bs : List Byte) : Desc :=
  let w (i : Nat) : Nat := field bs (8 * i) 8
  { saddr := w 0, daddr := w 1, skind := bits (w 2) 63 60, dkind := bits (w 2) 59 56, sfmt := bits (w 2) 55 51,
    dfmt := bits (w 2) 50 46, sunit := bit (w 2) 45, dunit := bit (w 2) 44, plsel := bits (w 2) 43 40,
    pol := bit (w 2) 39, ivmode := bit (w 2) 38, dret := bit (w 2) 37, gate := bit (w 2) 36,
    citag := BitVec.ofNat 32 (w 2), rlen := bits (w 3) 63 56 + 1, cnt2 := bits (w 3) 47 32 + 1,
    cnt1 := bits (w 3) 31 16 + 1, cnt0 := bits (w 3) 15 0 + 1, ss1 := sval 32 (w 4 / 2 ^ 32), ss0 := sval 32 (w 4),
    ds0 := sval 32 (w 5 / 2 ^ 32), ss2 := sval 32 (w 5), ds2 := sval 32 (w 6 / 2 ^ 32), ds1 := sval 32 (w 6),
    chan := bits (w 7) 27 24, tmpl := bits (w 7) 23 20, ctgt := BitVec.ofNat 18 (w 7), iaddr := w 8,
    iver := BitVec.ofNat 16 (w 9 / 2 ^ 48), nidx := bits (w 9) 40 32 + 1, limit := w 9 % 2 ^ 32, mdesc := w 10,
    mfmt := bits (w 11) 55 51, xin := BitVec.ofNat 18 (w 11 / 2 ^ 14), xret := bits (w 11) 13 10,
    xinr := bits (w 11) 9 6, xoutr := bits (w 11) 5 2, xform := bit (w 11) 1,
    zeroOk := bits (w 2) 35 32 = 0 && bits (w 3) 55 48 = 0 && bits (w 7) 63 28 = 0 && bits (w 7) 19 18 = 0 &&
      bits (w 9) 47 41 = 0 && bits (w 11) 63 56 = 0 && bits (w 11) 50 32 = 0 && !bit (w 11) 0 &&
      w 12 = 0 && w 13 = 0 && w 14 = 0 && w 15 = 0 }

/-- Whether word8 and word9 are zero, as all but GATHER and SCATTER ask (R188). -/
def noIndex (bs : List Byte) : Bool := field bs 64 8 = 0 && field bs 72 8 = 0

/-- Bytes of a source and of a destination unit. -/
def Desc.sbytes (d : Desc) : Nat := if d.sunit then 64 else fmtBytes d.sfmt
def Desc.dbytes (d : Desc) : Nat := if d.dunit then 64 else fmtBytes d.dfmt

/-- Whether positions travel as elements: on the fabric, through a transform, or to the gate scorer. -/
def Desc.asElems (d : Desc) : Bool := d.dkind = 4 || d.xform || d.gate

/-- Whether the destination is made of plane groups (R189). -/
def Desc.planeDst (d : Desc) : Bool := !d.sunit && d.dunit

/-- The rows of a command under GATE (R265, R196), and its positions (R190, R196). -/
def StreamCmd.gateTokens (q : StreamCmd) : Nat := if q.op = .copy then q.d.cnt1 else q.d.nidx
def StreamCmd.positions (q : StreamCmd) : Nat :=
  if q.op = .copy then q.d.cnt0 * q.d.cnt1 * q.d.cnt2 else q.d.nidx * q.d.cnt0

/-- Input runs of a transform (R194). -/
def StreamCmd.inRuns (q : StreamCmd) : Nat := (q.positions + q.d.rlen - 1) / q.d.rlen

/-- R189's agreement of kinds and formats. -/
def Desc.agrees (d : Desc) : Bool :=
  let kinds := (d.skind = 0 || d.skind = 1 || d.skind = 3) && d.dkind ≤ 4
  let handles := (d.skind ≠ 3 || d.saddr < 2 ^ 32) && (d.dkind ≠ 3 || (d.daddr < 2 ^ 32 && !d.dunit))
  let bstore := d.dkind ≠ 2 || (d.sunit && d.dunit && d.daddr < 2 ^ 14)
  let fabric := d.dkind ≠ 4 || bits d.daddr 31 18 = 0
  let formats :=
    match d.sunit, d.dunit with
    | false, false => d.dfmt = d.sfmt && fmtBytes d.sfmt ≠ 0
    | false, true =>
      d.dkind ≠ 4 && ((d.sfmt = 10 && fmtPlanes d.dfmt ≠ 0 && fmtPlaneSigned d.dfmt) ||
        (d.sfmt = 13 && fmtPlanes d.dfmt ≠ 0 && !fmtPlaneSigned d.dfmt))
    | true, true => if d.dkind = 4 then d.dfmt = 0 else d.sfmt = 0 && d.dfmt = 0
    | true, false => d.dkind = 4 && d.dfmt = 0
  kinds && handles && bstore && fabric && formats

/-- R265's requirements on a descriptor with GATE = 1. -/
def StreamCmd.gateOk (q : StreamCmd) : Bool :=
  let d := q.d
  q.op ≠ .scatter && (d.skind = 0 || d.skind = 1) && !d.sunit && (d.sfmt = 4 || d.sfmt = 3 || d.sfmt = 1) &&
  q.gateTokens ≤ 128 && d.cnt2 = 1 && d.dkind = 1 && !d.dunit && d.dfmt = 1 && d.ds0 = 1 &&
  (q.gateTokens : Int) * d.ds1 ≤ d.ds2 && !d.xform && !q.follow && !d.dret

/-- R194's requirements on a transform; its units are elements (log entry 22). -/
def StreamCmd.xformOk (q : StreamCmd) : Bool :=
  let d := q.d
  d.dkind ≠ 4 && !d.sunit && !d.dunit && d.xinr ≠ 0 && d.xoutr ≠ 0 && q.inRuns % d.xinr = 0

/-- The checks of R188, R189, R194, R196 and R265 on a descriptor but the targets': whether it passes. -/
def StreamCmd.descOk (q : StreamCmd) (bs : List Byte) (arm : Bool) : Bool :=
  let d := q.d
  let formats := if d.gate then q.gateOk else d.agrees
  let runs := d.rlen ≤ 32 && !((d.dkind = 4 || d.xform) && fmtBytes d.sfmt = 8 && !d.sunit && 16 < d.rlen)
  let index := if q.op = .copy then noIndex bs else d.cnt1 = 1 && d.cnt2 = 1
  let mma := if q.follow then d.mdesc ≠ 0 else d.mdesc = 0
  d.zeroOk && formats && runs && index && mma && (arm || d.ctgt = 0) && d.plsel ≠ 1 &&
  d.cnt0 * d.cnt1 * d.cnt2 < 2 ^ 32 && !(q.op = .scatter && d.dkind = 4) && (!d.xform || q.xformOk)

/-- The gate set a GATE command needs (R265): the fault it meets without it. -/
def State.gateFault (s : State) (c : Nat) (q : StreamCmd) : Option (Nat × Nat) :=
  match (s.domain (domainOf c)).gate with
  | none => some (0x07, 0x0B)
  | some (tenant, _, h) =>
    if tenant ≠ q.tenant then some (0x07, 0x0B) else if q.d.cnt0 ≠ h then some (0x0B, 0x0C) else none

/-- A command's descriptor read and checked at acceptance (R188, R201): the command with it, or the fault and the CITAG
that the descriptor gave. -/
def State.openDesc (s : State) (c va : Nat) (q : StreamCmd) (arm : Bool) : Except (Nat × Nat × BitVec 32) (StreamCmd × State) :=
  if inOwnCommons c va && va % 128 ≠ 0 then .error (0x0B, 0x0C, 0)
  else
    match s.readCommons c q.tenant va 128 with
    | .error (e, u) => .error (e, u, 0)
    | .ok (bs, s') =>
      let q := { q with d := descOf bs }
      let d := q.d
      let reach (g : BitVec 18) : Bool := (s'.resolveFor q.ctx c g).isSome
      if !q.descOk bs arm then .error (0x0B, 0x0C, d.citag)
      else if (d.dkind = 4 && !reach (BitVec.ofNat 18 d.daddr)) || (d.xform && !reach d.xin) ||
          (arm && d.ctgt ≠ 0 && !reach d.ctgt) then .error (0x09, 0x00, d.citag)
      else
        match if d.gate && !(s'.domain (domainOf c)).loading then s'.gateFault c q else none with
        | some (e, u) => .error (e, u, d.citag)
        | none => .ok (q, s')

/-! ## Ends of commands (R193, R197) -/

/-- A command's fault: one record, and a FAULT token or failure word in place of its completion. -/
def State.streamFault (s : State) (c unit : Nat) (q : StreamCmd) (count cause sub address : Nat) (abort : Bool)
    (scorer : Bool := false) : State :=
  let (s, seq, _) := s.raise { engineRecord (if scorer then 6 else 1) (if scorer then 0 else unit) c q.ctx q.tenant q.d.citag.toNat cause sub address with
    abort := abort, count := count, version := if cause = 5 then q.d.iver.toNat else 0 }
  let tok (itag : BitVec 32) : Token := faultToken 11 q.ctx itag 1 cause sub abort count seq
  match q.src with
  | .slot t slot _ => s.emit t slot q.ctx q.d.citag.toNat (toAll (s.slotTargets t slot) (tok q.d.citag))
  | .template _ itag => if q.d.ctgt = 0 then s else s.injectAt q.ctx c 0 q.d.ctgt (tok itag)
  | src => s.srcResult src (BitVec.ofNat 64 (count * 2 ^ 32 + (if abort then 2 ^ 16 else 0) + cause * 256 + sub))

/-- A command's completion (R193). -/
def State.streamDone (s : State) (c : Nat) (q : StreamCmd) (count : Nat) : State :=
  match q.src with
  | .slot t slot _ => s.emit t slot q.ctx q.d.citag.toNat (toAll (s.slotTargets t slot) (oneN32 q.ctx q.d.citag count))
  | .template _ itag => if q.d.ctgt = 0 then s else s.injectAt q.ctx c 0 q.d.ctgt (oneN32 q.ctx itag count)
  | src => s.srcResult src (BitVec.ofNat 64 (count * 2 ^ 32))

/-- Whether a command is a firing of a template. -/
def StreamCmd.firingOf (q : StreamCmd) (t : Nat) : Bool :=
  match q.src with
  | .template j _ => j = t
  | _ => false

/-- The DISARM of a source is done: L to its targets, or gD := 0 (R195, R200). -/
def State.disarmed (s : State) (ctx : Nat) (src : CmdSource) : State :=
  match src with
  | .slot t slot l => s.emit t slot ctx l.lo (toAll (s.slotTargets t slot) l)
  | src => s.srcResult src 0

/-- Templates with a DISARM waiting are unbound once none of their firings is left (R195). -/
def State.unbindTemplates (s : State) (c : Nat) : State :=
  (s.cluster c).streamer.templates.foldl (fun (z : State) p =>
    let st := (z.cluster c).streamer
    if p.2.unbind.isEmpty || (st.queue.any fun q => q.firingOf p.1) || (st.agns.any fun a => a.2.cmd.firingOf p.1) then z
    else
      let z := z.setStreamer c { st with templates := assocDel st.templates p.1, chans := assocDel st.chans p.2.chan }
      p.2.unbind.foldl (fun (y : State) u => y.disarmed p.2.cmd.ctx u) z) s

/-- An AGN's command is over: the AGN, its return channel and its place at the scorer are free; a store it had sent to
a home stays there (R198). -/
def State.freeAgn (s : State) (c a : Nat) (q : StreamCmd) : State :=
  let st := (s.cluster c).streamer
  let chans := if q.d.xform then assocDel st.chans q.d.xret else st.chans
  let left (w : HomeWait) : HomeWait := if w.who = .agn c a then { w with who := .agn c 8, born := q.born } else w
  let s := s.setStreamer c { st with agns := assocDel st.agns a, chans := chans }
  let d := s.domain (domainOf c)
  let s := if q.d.gate then s.setDomain (domainOf c) { d with gateQ := d.gateQ.filter fun g => g ≠ (c, a) } else s
  { s with waits := (s.waits.filter fun w => !(w.who = .agn c a && w.acc.op.isLoad)).map left,
           misses := s.misses.filter fun w => w.who ≠ .agn c a, walks := s.walks.filter fun w => w.who ≠ .agn c a }

/-- A command that failed on its AGN: its count is the cursor (R197; log entry 79). -/
def State.failAgn (s : State) (c a : Nat) (g : Agn) (cause sub address : Nat) (abort : Bool) : State :=
  let sent := s.waits.any fun w => w.who = .agn c a && !w.acc.op.isLoad
  let count := if sent && g.wleft.length = g.writeHead.length then g.wend else g.cursor
  (((s.freeAgn c a g.cmd).streamFault c a g.cmd count cause sub address abort g.scorer).unbindTemplates c).progressed g.cmd.ctx

/-! ## Acceptance (R187, R199, R200) -/

/-- Whether the streamer's queue has room (R187). -/
def State.streamRoom (s : State) (c : Nat) : Bool := ((s.cluster c).streamer.queue).length < 16

/-- A command accepted with its descriptor's address (R190): queued, or failed. -/
def State.acceptStream (s : State) (c va : Nat) (q : StreamCmd) : State :=
  match s.openDesc c va q false with
  | .error (e, u, citag) => s.streamFault c 0 { q with d := { citag := citag } } 0 e u va false
  | .ok (q, s) =>
    let st := (s.cluster c).streamer
    s.setStreamer c { st with queue := st.queue ++ [{ q with born := s.cycle }] }

/-- A command of a firing. -/
def State.slotCmd (s : State) (t : Nat) (p : Pairing) (w : EWord) (op : StreamOp) (l : Token) : StreamCmd :=
  let c := s.ctx p.ctx
  { op := op, signed := w.fmt = 8, src := .slot t p.slot l, ctx := p.ctx, tenant := s.actingTenant c.tenant c.asid,
    asid := c.asid, priv := c.priv, follow := w.follow = 1 }

/-- A command of a task. -/
def State.taskCmd (s : State) (c k : Nat) (t : Task) (d : BitVec 5) (op : StreamOp) (f : BitVec 1) : StreamCmd :=
  { op := op, src := .task c k d.toNat, ctx := t.ctx, tenant := s.actingTenant t.tenant t.asid, asid := t.asid,
    priv := t.priv, follow := f = 1 }

/-- The firing of COPY, GATHER or SCATTER. -/
def State.streamFire (s : State) (t : Nat) (p : Pairing) (w : EWord) (op : StreamOp) : State :=
  s.engineFire t p w 11 fun s _ l => s.acceptStream (clusterOf t) (s.konst t w.kidx.toNat) (s.slotCmd t p w op l)

def execCopy (w : EWord) (s : State) : Host.Outcome State Fault Refusal := firing s fun t p => s.streamFire t p w .copy
def execGather (w : EWord) (s : State) : Host.Outcome State Fault Refusal := firing s fun t p => s.streamFire t p w .gather
def execScatter (w : EWord) (s : State) : Host.Outcome State Fault Refusal := firing s fun t p => s.streamFire t p w .scatter

/-- COPY of a control core (R200). -/
def execCopyC (d a : BitVec 5) (_q _r : BitVec 1) (sc : BitVec 3) (f : BitVec 1) (s : State) : Host.Outcome State Fault Refusal :=
  tasking s fun c k t =>
    s.scoped c k sc (s.taskIssue c k t d (s.streamRoom c) fun s =>
      s.acceptStream c (t.reg a).toNat (s.taskCmd c k t d .copy f))

/-- GATHER of a control core (R200): gB names the index format. -/
def execGatherC (d a b : BitVec 5) (_q _r : BitVec 1) (sc : BitVec 3) (f : BitVec 1) (s : State) :
    Host.Outcome State Fault Refusal :=
  tasking s fun c k t =>
    s.scoped c k sc
      (if (t.reg b).toNat / 2 ≠ 0 then s.taskFault c k 0x0B 0x08
       else
         s.taskIssue c k t d (s.streamRoom c) fun s =>
           s.acceptStream c (t.reg a).toNat { s.taskCmd c k t d .gather f with signed := t.reg b = 0 })

/-! ## ARM and DISARM (R195) -/

/-- ARM: the template and its channel bound; none on a conflict. -/
def State.bindTemplate (s : State) (c : Nat) (q : StreamCmd) : Option State :=
  let st := (s.cluster c).streamer
  if assocHas st.templates q.d.tmpl || assocGet Chan.none st.chans q.d.chan ≠ .none then none
  else
    some (s.setStreamer c { st with templates := assocSet st.templates q.d.tmpl { cmd := q, chan := q.d.chan },
                                    chans := assocSet st.chans q.d.chan (.template q.d.tmpl) })

/-- ARM's and DISARM's fault: an ARM's stands over L's tags. -/
def State.armFault (s : State) (c : Nat) (q : StreamCmd) (cause sub address : Nat) : State :=
  let (s, seq, _) := s.raise (engineRecord 1 0 c q.ctx q.tenant q.d.citag.toNat cause sub address)
  match q.src with
  | .slot t slot l =>
    s.emit t slot q.ctx l.lo (toAll (s.slotTargets t slot) (faultToken l.fmt q.ctx l.itag l.len cause sub false 0 seq))
  | src => s.srcResult src (BitVec.ofNat 64 (cause * 256 + sub))

/-- ARM at acceptance. -/
def State.acceptArm (s : State) (c va : Nat) (q : StreamCmd) : State :=
  match s.openDesc c va q true with
  | .error (e, u, citag) => s.armFault c { q with d := { citag := citag } } e u va
  | .ok (q, s) =>
    match s.bindTemplate c q with
    | none => s.armFault c q 0x0B 0x0E va
    | some s => s.disarmed q.ctx q.src

/-- DISARM at acceptance: its descriptor is checked as R188 and R189 give (R201), and the template of its TMPL, of the same
context, waits to be unbound; with none bound there is nothing to unbind (log entry 23). -/
def State.acceptDisarm (s : State) (c va : Nat) (q : StreamCmd) : State :=
  if inOwnCommons c va && va % 128 ≠ 0 then s.armFault c q 0x0B 0x0C va
  else
    match s.readCommons c q.tenant va 128 with
    | .error (e, u) => s.armFault c q e u va
    | .ok (bs, s) =>
      let d := descOf bs
      let st := (s.cluster c).streamer
      if !({ q with d := d } : StreamCmd).descOk bs true then s.armFault c { q with d := d } 0x0B 0x0C va
      else
        let t := assocGet {} st.templates d.tmpl
        if !assocHas st.templates d.tmpl || t.cmd.ctx ≠ q.ctx || t.chan ≠ d.chan then s.disarmed q.ctx q.src
        else
          (s.setStreamer c { st with templates := assocSet st.templates d.tmpl { t with unbind := t.unbind ++ [q.src] } }).unbindTemplates c

def execArm (w : EWord) (s : State) : Host.Outcome State Fault Refusal :=
  firing s fun t p => s.engineFire t p w p.left.fmt fun s _ l =>
    s.acceptArm (clusterOf t) (s.konst t w.kidx.toNat) (s.slotCmd t p w .copy l)

def execDisarm (w : EWord) (s : State) : Host.Outcome State Fault Refusal :=
  firing s fun t p => s.engineFire t p w p.left.fmt fun s _ l =>
    s.acceptDisarm (clusterOf t) (s.konst t w.kidx.toNat) (s.slotCmd t p w .copy l)

def execArmC (d a : BitVec 5) (_q _r : BitVec 1) (sc : BitVec 3) (s : State) : Host.Outcome State Fault Refusal :=
  tasking s fun c k t =>
    s.scoped c k sc (s.taskIssue c k t d true fun s => s.acceptArm c (t.reg a).toNat (s.taskCmd c k t d .copy 0))

def execDisarmC (d a : BitVec 5) (s : State) : Host.Outcome State Fault Refusal :=
  tasking s fun c k t =>
    s.taskIssue c k t d true fun s => s.acceptDisarm c (t.reg a).toNat (s.taskCmd c k t d .copy 0)

/-! ## AGN_ASSIGN (R187, R194, R264) -/

/-- The lowest AGN that is free. -/
def Streamer.freeAgn (x : Streamer) : Option Nat := (List.range 8).find? fun a => !assocHas x.agns a

/-- AGN_ASSIGN (R187): the head of cluster u's queue takes a free AGN. A GATE command waits while a load is in progress
(R264), and a transform takes its return channel (R194). -/
def execAgnAssign (s : State) : Host.Outcome State Fault Refusal :=
  match s.focus with
  | .event u _ =>
    let st := (s.cluster u).streamer
    match st.queue, st.freeAgn with
    | q :: rest, some a =>
      if q.d.gate && (s.domain (domainOf u)).loading then .next s
      else
        let s := (s.setStreamer u { st with queue := rest }).wake u .engine
        match if q.d.gate then s.gateFault u q else none with
        | some (e, f) => .next ((s.streamFault u a q 0 e f 0 false).unbindTemplates u)
        | none =>
          if q.d.xform && assocGet Chan.none st.chans q.d.xret ≠ .none then
            .next ((s.streamFault u a q 0 0x0B 0x0E 0 false).unbindTemplates u)
          else
            let st := (s.cluster u).streamer
            .next (s.setStreamer u { st with
              agns := assocSet st.agns a { cmd := q, total := q.positions },
              chans := if q.d.xform then assocSet st.chans q.d.xret (.xform a) else st.chans })
    | _, _ => .next s
  | _ => .next s

/-! ## Positions (R190, R196) -/

/-- Where a position's units lie: nowhere (an absent row), out of range under POL = 1, or steps of both sides. -/
inductive PosAt where
  | absent
  | index (x : Nat)
  | at_ (s d : Int × Int × Int)
  deriving DecidableEq, Repr

/-- Position n of a command (R190, R196). -/
def Agn.posAt (a : Agn) (n : Nat) : PosAt :=
  let d := a.cmd.d
  let i0 : Int := (n % d.cnt0 : Nat)
  if a.cmd.op = .copy then
    let z : Int × Int × Int := (i0, ((n / d.cnt0 % d.cnt1 : Nat) : Int), ((n / d.cnt0 / d.cnt1 : Nat) : Int))
    .at_ z z
  else
    let j := n / d.cnt0
    let x := field a.idxBytes (4 * j) 4
    if x = 0xFFFFFFFF then .absent
    else if d.limit ≤ x then (if d.pol then .index x else .absent)
    else
      let v : Int := if a.cmd.signed then sval 32 x else x
      let row : Int × Int × Int := (i0, (j : Int), 0)
      let pick : Int × Int × Int := (i0, v, 0)
      if a.cmd.op = .gather then .at_ pick row else .at_ row pick

/-- Units from a source's or destination's start. -/
def Desc.sstep (d : Desc) (z : Int × Int × Int) : Int := d.soff + z.1 * d.ss0 + z.2.1 * d.ss1 + z.2.2 * d.ss2
def Desc.dstep (d : Desc) (z : Int × Int × Int) : Int := d.doff + z.1 * d.ds0 + z.2.1 * d.ds1 + z.2.2 * d.ds2

/-- A unit's address in memory or the commons, modulo 2^64. -/
def Desc.saddrOf (d : Desc) (z : Int × Int × Int) : Nat := low 64 (d.saddr + (d.sbytes : Int) * d.sstep z)
def Desc.daddrOf (d : Desc) (z : Int × Int × Int) : Nat := low 64 (d.daddr + (d.dbytes : Int) * d.dstep z)

/-- The bytes of the source unit at a position, once its first block says how many planes follow (R189). -/
def Agn.need (a : Agn) : Nat :=
  let d := a.cmd.d
  if d.planeDst then 496
  else if d.sunit && d.dkind = 4 && 64 ≤ a.half.length then
    let k := fmtPlanes (blockFmt a.half)
    if k = 0 then 64 else 64 * planesRead k d.plsel
  else d.sbytes

/-! ## One access of an AGN (R190, R192, R197, R202) -/

/-- An AGN's access that reached a home, or what the AGN came to instead. -/
inductive AgnHome where
  | home (h key tenant : Nat)
  | stop (s : State)

/-- An address translated through an AGN's entry (R208): a miss joins the walk wait list, any other failure fails the
command. A COMMONS kind takes addresses of the commons window alone (R189). -/
def State.agnHome (s : State) (c a : Nat) (g : Agn) (va kind : Nat) (acc : AccKind) (typed : Bool) : AgnHome :=
  let q := g.cmd
  if kind = 1 && !(va < 2 ^ 56 && inCommons va) then .stop (s.updAgn c a fun x => x.fail 0x0F 0x04 va)
  else
    match translate g.entry q.asid va acc q.priv typed with
    | .miss =>
      .stop ((s.updAgn c a fun x => { x with stall := .walk }).addMiss
        { who := .agn c a, asid := q.asid, tenant := q.tenant, va := va, kind := acc })
    | .bad e u => .stop (s.updAgn c a fun x => x.fail e u va)
    | .home h =>
      match s.keyFor q.tenant h with
      | none => .stop (s.updAgn c a fun x => x.fail 0x07 0x0C va)
      | some key => .home h key q.tenant

/-- The next block of an index list (R196). -/
def State.agnIndex (s : State) (c a : Nat) (g : Agn) : State :=
  let d := g.cmd.d
  let va := d.iaddr + g.idxBytes.length
  match s.agnHome c a g va 0 .read false with
  | .stop s => s
  | .home h key tenant =>
    let left := min (4 * d.nidx - g.idxBytes.length) (64 - h % 64)
    let acc : Access := { block := h / 64, op := .load, mode := if d.ivmode then .eq d.iver else .any, key := key,
                          tenant := tenant, moved := left }
    match s.perform acc (.agn c a) g.cmd.ctx (some g.cmd.asid) with
    | .done s' o => s'.updAgn c a fun x => { x with idxBytes := x.idxBytes ++ x.indexBytes o.bytes }
    | .waits s' => s'.updAgn c a fun x => { x with stall := .version }
    | .busy => s
    | .bad e u => s.updAgn c a fun x => x.fail e u va

/-- The offset of the first plane block of a group that fails R138 or differs from plane 0 in FMT or SCALE (R139). -/
def badPlane (blocks : List (List Byte)) : Nat :=
  let b := blocks.headD []
  64 * ((blocks.findIdx? fun c => !(blockOk c && blockFmt c = blockFmt b && blockScale c = blockScale b)).getD 0)

/-- A position read whole: its pieces, or the fault it raises with the offset of the block at fault (R138, R139, R189). A
typed copy writes pad bytes as zero (R137). A plane group whose scale on the fabric would pass 127 is Illegal, subcode Scale
(log entry 158). -/
def Agn.pieces (g : Agn) (bs : List Byte) : Except (Nat × Nat × Nat) (List StreamPiece) :=
  let d := g.cmd.d
  let n := g.fetched
  let elems (fmt : Nat) (scale : BitVec 8) (vals : List Nat) : List StreamPiece :=
    vals.zipIdx.map fun v =>
      { pos := n, fmt := fmt, scale := scale, val := some (BitVec.ofNat 64 v.1), last := v.2 + 1 = vals.length }
  if d.sunit && !blockOk bs then .error (0x0B, 0x0B, 0)
  else if d.asElems then
    if !d.sunit then .ok (elems d.sfmt 0 [ofBytes bs])
    else
      let fmt := blockFmt bs
      let k := fmtPlanes fmt
      if k = 0 then .ok (elems fmt (blockScale bs) ((List.range (blockCount fmt)).map fun i => blockElem bs fmt i))
      else
        let p := planesRead k d.plsel
        let blocks := (List.range p).map fun i => slice bs (64 * i) 64
        let sc := (blockScale bs).toInt + ((k : Int) - p)
        if k < p then .error (0x0B, 0x0C, 0)
        else if !planesOk blocks then .error (0x0B, 0x0B, badPlane blocks)
        else if 127 < sc then .error (0x0B, 0x03, 0)
        else
          .ok (elems (if fmtPlaneSigned fmt then 10 else 13) (BitVec.ofInt 8 sc)
            ((List.range 496).map fun i => planeElem fmt p blocks i))
  else if d.planeDst then
    let vals := bs.map fun b => if d.sfmt = 10 then b.toInt else (b.toNat : Int)
    .ok [{ pos := n, bytes := (makePlanes d.dfmt 0 vals).flatten }]
  else .ok [{ pos := n, bytes := if d.sunit && d.dunit then padBlock bs else bs }]

/-- A position taken in: the pieces join those not delivered, and on the fabric the cursor moves past it (R191, R197). -/
def Agn.landed (g : Agn) (ps : List StreamPiece) : Agn :=
  let d := g.cmd.d
  { g with buf := g.buf ++ ps, half := [], fetched := g.fetched + 1,
           cursor := if d.dkind = 4 && !d.gate then g.fetched + 1 else g.cursor }

/-- A source unit's bytes taken in: the position lands once they are all there, or fails at the block that does not pass its
check. `unit`: the unit's address. -/
def State.agnTake (s : State) (c a : Nat) (g : Agn) (bs : List Byte) (unit : Nat) : State :=
  let g := { g with half := g.half ++ bs }
  let s := s.updAgn c a fun _ => g
  if g.half.length < g.need && !(g.cmd.d.sunit && !blockOk g.half) then s
  else
    match g.pieces g.half with
    | .error (e, u, off) => s.updAgn c a fun x => x.fail e u ((unit + off) % 2 ^ 64)
    | .ok ps => s.updAgn c a fun x => x.landed ps

/-- The tile store's bytes at a step of a handle's slot, checked as TLD and TST check (R122, R201). -/
def State.handleAt (s : State) (c ctx h off w : Nat) (given : Bool) : Except (Nat × Nat) (Nat × Nat) :=
  match s.poolTile (tileIn c 0) h with
  | none => .error (0x04, 0x01)
  | some t =>
    match s.checkHandle t h ctx with
    | some e => .error e
    | none =>
      match s.pool t (hPool h) with
      | none => .error (0x04, 0x01)
      | some x =>
        let z := x.slots.getD (hSlot h) {}
        if hPool h = 7 then .error (0x04, 0x03)
        else if given && z.st ≠ .given then .error (0x02, 0x03)
        else if !given && z.st ≠ .held then .error (0x02, 0x02)
        else if x.size < off + w then .error (0x0F, 0x01)
        else .ok (t, s.slotBase t (hPool h) (hSlot h) + off)

/-- Absent pieces of a row that is not delivered (R196); a typed source's count is that of SFMT's blocks (log entry 24). -/
def Agn.absent (g : Agn) : List StreamPiece :=
  let d := g.cmd.d
  let n := if d.sunit && d.dkind = 4 then blockCount d.sfmt else 1
  (List.range n).map fun i => { pos := g.fetched, fmt := d.sfmt, last := i + 1 = n }

/-- A gate status mask's bytes (R266). -/
def Agn.maskWrite (g : Agn) : List (Nat × Byte) :=
  let d := g.cmd.d
  let va := low 64 ((d.daddr : Int) + 4 * d.doff + 8 * d.ds2)
  (toBytes 16 g.gmask).zipIdx.map fun b => (va + b.2, b.1)

/-- An invalid row of a GATE command (R196): no vector, its mask bit 1; the last token's mask is written. -/
def Agn.skipToken (g : Agn) : Agn :=
  let t := g.fetched / g.cmd.d.cnt0
  let g := { g with gmask := g.gmask ||| 2 ^ t, fetched := g.fetched + g.cmd.d.cnt0 }
  if t + 1 = g.cmd.gateTokens then { g with wleft := g.maskWrite, wend := t + 1 } else { g with cursor := t + 1 }

/-- The next access of a source (R190). A vector of a GATE command is read in typed blocks where it lies in memory, which the
scorer checks as every reader does (R138; log entry 169). -/
def State.agnFetch (s : State) (c a : Nat) (g : Agn) : State :=
  let d := g.cmd.d
  match g.posAt g.fetched with
  | .absent => s.updAgn c a fun x => if d.gate then x.skipToken else x.landed x.absent
  | .index x => s.updAgn c a fun g => g.fail 0x0F 0x05 x
  | .at_ z _ =>
    if d.skind = 3 then
      let off := d.sstep z * d.sbytes
      let w := g.need
      if off < 0 then s.updAgn c a fun x => x.fail 0x0F 0x01 d.saddr
      else
        match s.handleAt c g.cmd.ctx d.saddr (off.toNat + g.half.length) (w - g.half.length) true with
        | .error (e, u) => s.updAgn c a fun x => x.fail e u d.saddr
        | .ok (t, base) => s.agnTake c a g (cellsGet (s.tile t).store base (w - g.half.length)) d.saddr
    else
      let va := (d.saddrOf z + g.half.length) % 2 ^ 64
      if d.sunit && d.saddrOf z % 64 ≠ 0 then s.updAgn c a fun x => x.fail 0x0B 0x0C va
      else
        match s.agnHome c a g va d.skind .read (d.sunit || d.gate) with
        | .stop s => s
        | .home h key tenant =>
          let n := min (g.need - g.half.length) (64 - h % 64)
          if s.inputBlocked (h / 64) (s.homeInput c (h / 64)) then s
          else match s.homeAct { block := h / 64, op := .load, key := key, tenant := tenant, moved := n } with
          | .done s' o =>
            if d.gate && d.skind = 0 && !blockOk o.bytes then s'.updAgn c a fun x => x.fail 0x0B 0x0B (va / 64 * 64)
            else s'.agnTake c a g (slice o.bytes (h % 64) n) (d.saddrOf z)
          | .bad e u => s.updAgn c a fun x => x.fail e u va
          | _ => s

/-- The store of the block at the head of what an AGN has to write, at NEXT, with RET under DRET (R192). -/
def State.agnStore (s : State) (c a : Nat) (g : Agn) : State :=
  let d := g.cmd.d
  let part := g.writeHead
  let va := (part.headD (0, 0)).1
  match s.agnHome c a g va d.dkind .write d.dunit with
  | .stop s => s
  | .home h key tenant =>
    let acc : Access :=
      { block := h / 64, op := .store (part.map fun p => (p.1 % 64, p.2)), mode := .next, ret := d.dret, key := key,
        tenant := tenant, moved := part.length }
    match s.perform acc (.agn c a) g.cmd.ctx (some g.cmd.asid) with
    | .done s' _ => s'.updAgn c a fun x => x.wrote fun p => p / 64 = va / 64
    | .waits s' => s'.updAgn c a fun x => { x with stall := .version }
    | .busy => s
    | .bad e u => s.updAgn c a fun x => x.fail e u va

/-- A unit written to a handle's slot or to the B store (R189, R190), and what `done` makes of the AGN then. -/
def State.agnPut (s : State) (c a : Nat) (g : Agn) (z : Int × Int × Int) (bs : List Byte) (done : Agn → Agn) : State :=
  let d := g.cmd.d
  if d.dkind = 3 then
    let off := d.dstep z * d.dbytes
    if off < 0 then s.updAgn c a fun x => { x.fail 0x0F 0x01 d.daddr with buf := [] }
    else
      match s.handleAt c g.cmd.ctx d.daddr off.toNat bs.length false with
      | .error (e, u) => s.updAgn c a fun x => { x.fail e u d.daddr with buf := [] }
      | .ok (t, base) =>
        (s.updTile t fun x => { x with store := cellsSet x.store base bs }).updAgn c a done
  else
    let at_ := d.daddr + d.doff
    let slice_ := at_ / 256 + z.2.1 * d.ds1
    let block := at_ % 256 + z.1 * d.ds0 + z.2.2 * d.ds2
    if slice_ < 0 || 63 < slice_ || block < 0 || 255 < block then
      s.updAgn c a fun x => { x.fail 0x0F 0x02 d.daddr with buf := [] }
    else
      let k := s.cluster c
      let b := slice_.toNat * 256 + block.toNat
      (s.setCluster c { k with bstore := cellsSet k.bstore (b * 64) bs, bpoison := k.bpoison.filter fun x => x ≠ b }).updAgn c a done

/-- The address of a piece's destination; none for a piece that is not written. -/
def Agn.destOf (g : Agn) (p : StreamPiece) : Option Nat :=
  if p.bytes.isEmpty then none
  else
    match g.posAt p.pos with
    | .at_ _ z => some (g.cmd.d.daddrOf z)
    | _ => none

/-- The longest run of pieces at the head whose destinations start in one block (R192). -/
def Agn.group (g : Agn) : List StreamPiece :=
  match g.buf with
  | [] => []
  | p :: _ =>
    match g.destOf p with
    | none => []
    | some v => g.buf.takeWhile fun q => (g.destOf q).any fun u => u / 64 = v / 64

/-- Pieces made into one run (R191): every present one of one FMT and SCALE, of a length the format allows. -/
def Agn.makeRun (g : Agn) (ps : List StreamPiece) (base : Nat) : Except (Nat × Nat) Token :=
  let d := g.cmd.d
  let n := d.rlen
  let live := ps.filter fun p => p.val.isSome
  let first := live.headD (ps.headD {})
  let vals := (List.range n).map fun i => (ps.getD i {}).val
  if live.any fun p => p.fmt ≠ first.fmt || p.scale ≠ first.scale then .error (0x0B, 0x03)
  else if fmtMaxLen first.fmt < n then .error (0x0B, 0x0C)
  else if 2 ^ 32 < base + n then .error (0x0B, 0x05)
  else
    let tok : Token := { act := .empty, fmt := BitVec.ofNat 5 first.fmt, len := n, scale := first.scale, ctx := g.cmd.ctx,
                         itag := BitVec.ofNat 32 base }
    if live.isEmpty then .ok tok
    else
      .ok { tok with act := .normal, mask := BitVec.ofNat 32 (vals.zipIdx.foldl (fun m v => if v.1.isSome then m + 2 ^ v.2 else m) 0),
                     data := vals.map fun v => v.getD 0 }

/-- The next run sent to the fabric or into the transform (R191, R194). -/
def State.agnRun (s : State) (c a : Nat) (g : Agn) : State :=
  let d := g.cmd.d
  let base := (if d.xform then 0 else d.daddr / 2 ^ 32) + g.runs * d.rlen
  match g.makeRun (g.buf.take d.rlen) base with
  | .error (e, u) => s.updAgn c a fun x => x.fail e u d.saddr
  | .ok tok =>
    let g' := { g with buf := g.buf.drop d.rlen, runs := g.runs + 1 }
    (s.updAgn c a fun _ => g').injectAt g.cmd.ctx c 0 (if d.xform then d.xin else BitVec.ofNat 18 d.daddr) tok

/-- Whether an AGN delivers before it reads on: a run is full, a group is whole, or nothing is left to read. -/
def Agn.delivers (g : Agn) : Bool :=
  let d := g.cmd.d
  if g.buf.isEmpty || d.gate then false
  else if d.asElems then (d.rlen ≤ g.buf.length || g.fetched = g.total) && g.failed.isNone
  else d.dkind = 2 || d.dkind = 3 || g.fetched = g.total || g.group.length < g.buf.length

/-- The delivery of the pieces at the head. -/
def State.agnDeliver (s : State) (c a : Nat) (g : Agn) : State :=
  let d := g.cmd.d
  if d.asElems then s.agnRun c a g
  else
    match g.buf with
    | [] => s
    | p :: _ =>
      match g.destOf p with
      | none => s.updAgn c a fun x => { x with buf := x.buf.drop 1, cursor := p.pos + 1 }
      | some _ =>
        if d.dkind = 2 || d.dkind = 3 then
          match g.posAt p.pos with
          | .at_ _ z => s.agnPut c a g z p.bytes fun x => { x with buf := x.buf.drop 1, cursor := p.pos + 1 }
          | _ => s
        else
          let ps := g.group
          let left := ps.flatMap fun q => q.bytes.zipIdx.map fun b => (((g.destOf q).getD 0 + b.2) % 2 ^ 64, b.1)
          if d.dunit && (g.destOf p).any (fun v => v % 64 ≠ 0) then s.updAgn c a fun x => { x.fail 0x0B 0x0C ((g.destOf p).getD 0) with buf := [] }
          else
            s.updAgn c a fun x =>
              { x with buf := x.buf.drop ps.length, wleft := left, wend := (ps.getLastD {}).pos + 1 }

/-- A whole vector has reached the scorer (R268). -/
def Agn.vectorReady (g : Agn) : Bool := g.cmd.d.gate && g.buf.length = g.cmd.d.cnt0

/-- One access of an AGN at work: what HOME_ACCESS does for it. -/
def State.agnMove (s : State) (c a : Nat) : State :=
  let st := (s.cluster c).streamer
  if !assocHas st.agns a then s
  else
    let g := assocGet {} st.agns a
    if g.stall ≠ .none then s
    else if !g.wleft.isEmpty then s.agnStore c a g
    else if g.delivers then s.agnDeliver c a g
    else if g.failed.isSome then s
    else if g.cmd.op ≠ .copy && g.idxBytes.length < 4 * g.cmd.d.nidx then s.agnIndex c a g
    else if g.vectorReady then
      let d := s.domain (domainOf c)
      if d.gateQ.contains (c, a) then s else s.setDomain (domainOf c) { d with gateQ := d.gateQ ++ [(c, a)] }
    else if g.fetched < g.total then s.agnFetch c a g
    else s

/-! ## STREAM_COMPLETE (R193) -/

/-- Whether an AGN's command has done all its work. -/
def Agn.finished (g : Agn) : Bool :=
  let d := g.cmd.d
  g.wleft.isEmpty &&
  (if g.failed.isSome then g.buf.isEmpty || d.asElems
   else if d.gate then g.cursor = g.cmd.gateTokens
   else g.buf.isEmpty && g.fetched = g.total && (!d.xform || g.gotOut = g.cmd.inRuns * d.xoutr / d.xinr))

/-- The follow-on MMA of a command (R193). -/
def StreamCmd.mma (q : StreamCmd) (h : BitVec 32) : ArrayCmd :=
  { op := .mma, fmt := q.d.mfmt, desc := q.d.mdesc, handle := h, src := q.src, ctx := q.ctx, tenant := q.tenant,
    itag := q.d.citag }

/-- STREAM_COMPLETE (R193, R197): the command on AGN k of cluster u completes or fails; a FOLLOW waits for room in the
array's queue. -/
def execStreamComplete (s : State) : Host.Outcome State Fault Refusal :=
  match s.focus with
  | .event u k =>
    let st := (s.cluster u).streamer
    let g := assocGet {} st.agns k
    if !assocHas st.agns k || g.stall ≠ .none || !g.finished then .next s
    else
      match g.failed with
      | some (c, f, at_, abort) => .next (s.failAgn u k g c f at_ abort)
      | none =>
        if g.cmd.follow then
          if !s.arrayRoom u then .next s
          else
            let s := (s.freeAgn u k g.cmd).queueArray u (g.cmd.mma (s.peekHandle u g.cmd.d.mdesc))
            .next ((s.unbindTemplates u).progressed g.cmd.ctx)
        else
          let count := if g.cmd.d.gate then g.cmd.gateTokens else g.total
          .next ((((s.freeAgn u k g.cmd).streamDone u g.cmd count).unbindTemplates u).progressed g.cmd.ctx)
  | _ => .next s

/-! ## Trigger channels (R194, R195) -/

/-- Whether a unit takes a token of a context: all but a core's VCs leave a FROZEN context's in its link (R234, R278). -/
def State.unitTakes (s : State) (p : Packet) : Bool :=
  match p.dest with
  | .vc _ _ => true
  | _ => p.tok.act = .bell || (s.ctx p.tok.ctx).st ≠ .frozen

/-- The first packet for a unit that has come to where the unit takes it, nothing before it, with its position. -/
def State.unitHead (s : State) (d : Dest) : Option (Packet × Nat) :=
  s.net.zipIdx.find? fun p =>
    p.1.dest = d && p.1.since ≤ s.cycle && p.1.leaves && s.unitTakes p.1 && !s.behind p.2 p.1

/-- A token on a channel that nothing takes (R195): consumed, with a record. -/
def State.noTemplate (s : State) (u : Nat) (a : Token) : State :=
  (s.raise (engineRecord 1 0 u a.ctx (s.ctx a.ctx).tenant a.itag.toNat 0x09 0x01 0)).1

/-- Whether a trigger token asks for a firing (R195). -/
def Token.fires (a : Token) : Bool := (a.fmt = 11 || a.fmt = 8) && a.len = 4 && a.mask = 15

/-- The command of a template firing (R195). On the fabric element 3 moves TBASE, and element 1 nothing (log entry 25). -/
def Template.fire (t : Template) (ix : Nat) (a : Token) : StreamCmd :=
  let e (i : Nat) : Int := sval 32 (a.elem i)
  let d := t.cmd.d
  let base := (d.daddr / 2 ^ 32 + a.elem 3) % 2 ^ 32
  let itag := BitVec.ofNat 32 (a.elem 2)
  let d := { d with soff := e 0, citag := itag }
  let d := if d.dkind = 4 then { d with daddr := base * 2 ^ 32 + d.daddr % 2 ^ 32 } else { d with doff := e 1 }
  { t.cmd with src := .template ix itag, d := d }

/-- TRIGGER_TOKEN (R195): the token at the head of channel k of cluster u's streamer; a FROZEN context's stays in its link
(R234). -/
def execTriggerToken (s : State) : Host.Outcome State Fault Refusal :=
  match s.focus with
  | .event u k =>
    match s.unitHead (.trig u k) with
    | none => .next s
    | some (p, i) =>
      let a := p.tok
      let s' := { s with net := s.net.eraseIdx i }
      let st := (s.cluster u).streamer
      if a.act = .bell then .next s'
      else
        match assocGet Chan.none st.chans k with
        | .xform _ => .next s
        | .none => .next (s'.noTemplate u a)
        | .template j =>
          let t := assocGet {} st.templates j
          let out (s : State) (tok : Token) : State :=
            if t.cmd.d.ctgt = 0 then s else s.injectAt a.ctx u 0 t.cmd.d.ctgt tok
          if t.cmd.ctx ≠ a.ctx || !t.unbind.isEmpty then .next (s'.noTemplate u a)
          else
            match a.act with
            | .normal =>
              if a.fires then
                if !s.streamRoom u then .next s
                else
                  let st := (s'.cluster u).streamer
                  .next (s'.setStreamer u { st with queue := st.queue ++ [{ t.fire j a with born := s.cycle }] })
              else
                let (s', seq, _) := s'.raise (engineRecord 1 0 u a.ctx t.cmd.tenant a.itag.toNat 0x0B 0x02 0)
                .next (out s' (faultToken 11 a.ctx a.itag 1 0x0B 0x02 false 0 seq))
            | .fault => .next (out s' a)
            | _ => .next s'
  | _ => .next s

/-- Elements of a returned run written at their positions (R194): bytes and addresses of the present ones. -/
def Agn.returned (g : Agn) (a : Token) : List (Nat × Byte) :=
  a.present.flatMap fun i =>
    if g.total ≤ a.lo + i then []
    else
      match g.posAt (a.lo + i) with
      | .at_ _ z => (toBytes g.cmd.d.dbytes (a.elem i)).zipIdx.map fun b => ((g.cmd.d.daddrOf z + b.2) % 2 ^ 64, b.1)
      | _ => []

/-- A returned run written into a handle's slot, element by element. -/
def State.returnHandle (s : State) (c a : Nat) (g : Agn) (tok : Token) : List Nat → State
  | [] => s
  | i :: is =>
    if g.total ≤ tok.lo + i then s
    else
      match g.posAt (tok.lo + i) with
      | .at_ _ z =>
        (s.agnPut c a g z (toBytes g.cmd.d.dbytes (tok.elem i)) fun x => x).returnHandle c a g tok is
      | _ => s.returnHandle c a g tok is

/-- The cursor after a returned run: past it where it continues what has been delivered. -/
def Agn.pastRun (g : Agn) (a : Token) : Nat := if a.lo ≤ g.cursor then max g.cursor (min a.hi g.total) else g.cursor

/-- TRANSFORM_RETURN (R194): a run back from a transform on channel k of cluster u. A FAULT run fails the command with
its cause (log entry 26). -/
def execTransformReturn (s : State) : Host.Outcome State Fault Refusal :=
  match s.focus with
  | .event u k =>
    match s.unitHead (.trig u k) with
    | none => .next s
    | some (p, i) =>
      let tok := p.tok
      let s' := { s with net := s.net.eraseIdx i }
      match assocGet Chan.none (s.cluster u).streamer.chans k with
      | .xform a =>
        let g := assocGet {} (s.cluster u).streamer.agns a
        let count (s : State) : State := s.updAgn u a fun x => { x with gotOut := x.gotOut + 1, cursor := x.pastRun tok }
        if tok.act = .bell then .next s'
        else if tok.ctx ≠ g.cmd.ctx then .next (s'.noTemplate u tok)
        else if g.failed.isSome then .next s'
        else if !g.wleft.isEmpty then .next s
        else
          match tok.act with
          | .normal =>
            if tok.fmt.toNat ≠ g.cmd.d.dfmt then .next (s'.updAgn u a fun x => x.fail 0x0B 0x0C g.cmd.d.saddr)
            else if g.cmd.d.dkind = 3 then .next (count (s'.returnHandle u a g tok tok.present))
            else
              .next ((s'.updAgn u a fun x =>
                { x with wleft := x.returned tok, wend := x.pastRun tok, gotOut := x.gotOut + 1,
                         cursor := if (x.returned tok).isEmpty then x.pastRun tok else x.cursor }))
          | .empty => .next (count s')
          | .cancel => .next (count s')
          | .fault => .next (s'.updAgn u a fun x => x.fail (bits (tok.elem 0) 7 0) (bits (tok.elem 0) 15 8) g.cmd.d.saddr)
          | _ => .next s'
      | _ => .next s
  | _ => .next s

/-! ## CPSTAT, CPSTOP and RESUME (R198, R200) -/

/-- CPSTAT's elements. -/
def State.agnStat (s : State) (c a : Nat) : List Nat :=
  let st := (s.cluster c).streamer
  let g := assocGet {} st.agns a
  let state :=
    if !assocHas st.agns a then 0
    else if g.stall = .resume then 2
    else if s.misses.any fun w => w.who = .agn c a then 3
    else 1
  [state, g.cursor, g.cmd.d.citag.toNat, st.queue.length]

def execCpstat (w : EWord) (s : State) : Host.Outcome State Fault Refusal :=
  firing s fun t p => s.engineFire t p w 11 fun s ts l =>
    s.emitRun t p ts (fourN32 p (s.agnStat (clusterOf t) (l.lowest % 8)))

/-- An AGN's command aborted as CPSTOP does, if it is a context's (R198). -/
def State.stopAgn (s : State) (c a ctx : Nat) : State :=
  let st := (s.cluster c).streamer
  let g := assocGet {} st.agns a
  if !assocHas st.agns a || g.cmd.ctx ≠ ctx then s else s.failAgn c a g 0x10 0x00 0 true

def execCpstop (w : EWord) (s : State) : Host.Outcome State Fault Refusal :=
  firing s fun t p => s.engineFire t p w p.left.fmt fun s ts l =>
    (s.stopAgn (clusterOf t) (l.lowest % 8) p.ctx).emit t p.slot p.ctx p.itag.toNat (toAll ts l)

/-- An AGN stalled on a translation fault retries (R196, R197): an index list is read again whole. -/
def Agn.resume (g : Agn) : Agn :=
  { g with stall := .none, idxBytes := if g.idxBytes.length < 4 * g.cmd.d.nidx then [] else g.idxBytes }

/-- RESUME (R200). -/
def execResume (d a : BitVec 5) (s : State) : Host.Outcome State Fault Refusal :=
  tasking s fun c k t =>
    let v := (t.reg a).toNat
    if v % 2 ^ 19 ≠ v || bits v 15 9 ≠ 0 then s.taskFault c k 0x0B 0x08
    else
      let u := bits v 8 0
      let n := bits v 18 16
      let g := assocGet {} (s.cluster u).streamer.agns n
      let stalled := assocHas (s.cluster u).streamer.agns n && g.stall = .resume
      let r : Nat := if !stalled then 1 else if g.cmd.tenant ≠ s.actingTenant t.tenant t.asid then 2 else 0
      s.writing c k t d
        ((if r = 0 then s.updAgn u n Agn.resume else s).updTask c k fun x => (x.setReg d (BitVec.ofNat 64 r)).retire)

end Sys2Proof.Machine
end

