-- ==== Sys2Proof/Machine/Gate.lean ====
section
/-! DEFINITION. The gate scorers (R264 to R268): logits, combine weights and the status mask of a token vector. -/

namespace Sys2Proof.Machine

/-- A logit's elements: the source values of a vector and an expert's B16 weights, as pairs (R266). -/
def gatePairs (sfmt mode : Nat) (vec : List Nat) (row : List Nat) : List (Val × Val) :=
  (vec.zip row).map fun p => (floatVal (floatFmt sfmt) p.1 0 mode, floatVal (floatFmt 4) p.2 0 mode)

/-- A logit under the matrix rule: groups of 8 into an F32 total that starts at +0, with the flags (R266). -/
def gateLogit (sfmt mode : Nat) (vec row : List Nat) : Nat × Nat :=
  groupSteps f32 mode 8 (vec.length + 1) 0 (gatePairs sfmt mode vec row)

/-- Whether an F32 word is finite, and whether it is +inf. -/
def f32Finite (b : Nat) : Bool :=
  match f32Val b with
  | .fin _ _ _ => true
  | _ => false
def f32PosInf (b : Nat) : Bool := f32Val b = .inf false

/-- p(e) of a finite logit over the greatest (R267). -/
def gateP (m b : Nat) : Nat :=
  (specExp2 0 (f32Val (f32Mul (f32Sub b m) 0x3FB8AA3B))).1

/-- The weights of a token's logits and its mask bit (R267). -/
def gateWeights (logits : List Nat) : List Nat × Bool :=
  let infs := (logits.filter f32PosInf).length
  if infs ≠ 0 then
    let q := f32Div 0x3F800000 (roundVal f32 0 0 (.fin false infs 0)).1
    (logits.map fun b => if f32PosInf b then q else 0, false)
  else
    match logits.filter f32Finite with
    | [] => (logits.map fun _ => 0, true)
    | b :: bs =>
      let m := bs.foldl (fun m b => if valCmp (f32Val m) (f32Val b) < 0 then b else m) b
      let ps : List (Option Nat) := logits.map fun b => if f32Finite b then some (gateP m b) else none
      let leaves := ps ++ List.replicate (128 - ps.length) none
      let s := (treeRoot f32Add (treeLevel f32Add (treeLevel f32Add leaves))).getD 0
      (ps.map fun p => match p with
        | some v => f32Div v s
        | none => 0, false)

/-- The writes of one token at its rows, and after the last token the status mask (R266). -/
def Agn.gateWrites (g : Agn) (t : Nat) (logits weights : List Nat) : List (Nat × Byte) :=
  let d := g.cmd.d
  let row (off : Int) (vs : List Nat) : List (Nat × Byte) :=
    let va := low 64 ((d.daddr : Int) + 4 * (d.doff + off + t * d.ds1))
    (vs.flatMap (toBytes 4)).zipIdx.map fun b => (va + b.2, b.1)
  row 0 logits ++ row d.ds2 weights ++ (if t + 1 = g.cmd.gateTokens then g.maskWrite else [])

/-- GATE_TOKEN (R266 to R268): the scorer of domain u serves the vector that the first of its commands holds. A command
whose gate set is not there, or is another tenant's, fails (R265): one that was restored finds what set it may. -/
def execGateToken (s : State) : Host.Outcome State Fault Refusal :=
  match s.focus with
  | .event u _ =>
    let d := s.domain u
    match d.gateQ with
    | [] => .next s
    | (c, a) :: _ =>
      let g := assocGet {} (s.cluster c).streamer.agns a
      if !g.vectorReady || !g.wleft.isEmpty || g.failed.isSome then .next s
      else
        match s.gateFault c g.cmd with
        | some (f, v) => .next (s.updAgn c a fun x => { x.fail f v 0 with buf := [], scorer := true })
        | none =>
          let (e, h) := (d.gate.map fun z => z.2).getD (0, 1)
          let vec := g.buf.map fun p => (p.val.getD 0).toNat
          let mode := (s.ctx g.cmd.ctx).mode.toNat
          let t := (g.fetched - 1) / h
          let rows := (List.range e).map fun i => (List.range h).map fun j => (assocGet 0 d.sram (i * h + j)).toNat
          let ls := rows.map fun r => gateLogit g.cmd.d.sfmt mode vec r
          let logits := ls.map fun l => l.1
          let (ws, none?) := gateWeights logits
          let s := s.addFlags g.cmd.ctx (ls.foldl (fun n l => n ||| l.2) 0)
          .next (s.updAgn c a fun x =>
            let x := { x with gmask := if none? then x.gmask ||| 2 ^ t else x.gmask }
            { x with buf := [], wleft := x.gateWrites t logits ws, wend := t + 1 })
  | _ => .next s

end Sys2Proof.Machine
end

