-- ==== Sys2Proof/Machine/Registrar.lean ====
section
/-! DEFINITION. The Registrar (R249 to R262): commands and their service, the start of a problem, rounds, stops and the
result area. -/

namespace Sys2Proof.Machine

/-! ## States and registers (R249, R253) -/

/-- The code of a state in STATUS. -/
def RegState.code : RegState → Nat
  | .idle => 0
  | .running => 1
  | .paused => 2
  | .done => 3
  | .limit => 4
  | .ceiling => 5
  | .stopped => 6
  | .failed => 7

/-- Whether a state is terminal. -/
def RegState.terminal (x : RegState) : Bool := 3 ≤ x.code

/-- An F32 that is finite and above zero. -/
def posFinite (b : Nat) : Bool :=
  match f32Val b with
  | .fin neg m _ => !neg && m ≠ 0
  | _ => false

def finiteF32 (b : Nat) : Bool :=
  match f32Val b with
  | .fin _ _ _ => true
  | _ => false

/-- Whether a value is a power of two from 1 to 65,536. -/
def powerOf2 (v : Nat) : Bool := (List.range 17).any fun k => v = 2 ^ k

/-- A register written (R253): none where the value breaks its limits. -/
def Registrar.write (x : Registrar) (code v : Nat) : Option Registrar :=
  match code with
  | 0 => if posFinite v then some { x with eps := BitVec.ofNat 32 v } else none
  | 1 => if posFinite v then some { x with epsMin := BitVec.ofNat 32 v } else none
  | 2 => if powerOf2 v then some { x with epsDiv := BitVec.ofNat 32 v } else none
  | 3 => if 1 ≤ v && v ≤ 16777215 then some { x with roundMax := BitVec.ofNat 32 v } else none
  | 4 => if (f32Val v).isNan then none else some { x with priceMax := BitVec.ofNat 32 v }
  | 5 => if v = 0 && x.owner = none then some { x with state := .idle } else none
  | _ => none

/-! ## Acceptance (R249, R259, R261) -/

/-- A command put into the Registrar's queue, and whether there is room. -/
def State.queueReg (s : State) (c : Nat) (q : RegCmd) : State :=
  let r := (s.cluster c).registrar
  s.setRegistrar c { r with queue := r.queue ++ [{ q with born := s.cycle }] }
def State.regRoom (s : State) (c : Nat) : Bool := ((s.cluster c).registrar.queue).length < 4

/-- A command of a firing. -/
def State.regFire (s : State) (t : Nat) (p : Pairing) (w : EWord) (op : RegOp) (out : Fmt) : State :=
  s.engineFire t p w out fun s _ l =>
    let k := s.konst t w.kidx.toNat
    s.queueReg (clusterOf t)
      { op := op, desc := k, code := k % 8, value := l.lowest, src := .slot t p.slot l, ctx := p.ctx,
        tenant := (s.ctx p.ctx).tenant, itag := p.itag }

/-- A record of the Registrar (R262). -/
def State.regRaise (s : State) (c : Nat) (q : RegCmd) (cause sub address : Nat) : State × Nat :=
  let itag := if q.src.byTask then 0 else q.itag.toNat
  let (s, seq, _) := s.raise (engineRecord 5 0 c q.ctx q.tenant itag cause sub address)
  (s, seq)

def execAucgo (w : EWord) (s : State) : Host.Outcome State Fault Refusal :=
  firing s fun t p => s.regFire t p w .aucgo 11

/-- AUCSTEP (R260): the pairing's own fault is a run that is not N32, or n out of range. -/
def execAucstep (w : EWord) (s : State) : Host.Outcome State Fault Refusal :=
  firing s fun t p =>
    let l := p.left
    let n := l.lowest
    if l.act ≠ .fault && !l.present.isEmpty && (l.fmt ≠ 11 || n = 0 || 65536 < n) then
      (s.hold t 1).slotFault t p.slot p.ctx (s.targets t w.nt w.t1 w.t0) 11 p.itag 1 p.itag.toNat 0x0B 0x02 0 0 0
    else s.regFire t p w .aucstep 11

/-- The format of a register (R253). -/
def regFmt (code : Nat) : Fmt := if code = 0 || code = 1 || code = 4 then 1 else 11

/-- AUCSET (R260): the pairing's own faults are a value outside R253 and a write of STATUS while owned (R262). -/
def execAucset (w : EWord) (s : State) : Host.Outcome State Fault Refusal :=
  firing s fun t p =>
    let l := p.left
    let code := s.konst t w.kidx.toNat % 8
    let r := (s.cluster (clusterOf t)).registrar
    if l.act ≠ .fault && !l.present.isEmpty && (l.fmt ≠ regFmt code || (r.write code l.lowest).isNone) then
      (s.hold t 1).slotFault t p.slot p.ctx (s.targets t w.nt w.t1 w.t0) l.fmt p.itag p.len p.itag.toNat 0x0B 0x11 0 0 0
    else s.regFire t p w .aucset l.fmt

def execAucget (w : EWord) (s : State) : Host.Outcome State Fault Refusal :=
  firing s fun t p => s.regFire t p w .aucget 11

def execAucstop (w : EWord) (s : State) : Host.Outcome State Fault Refusal :=
  firing s fun t p => s.regFire t p w .aucstop p.left.fmt

/-- AUCGO and AUCGET of a control core (R261). -/
def State.regTask (s : State) (c k : Nat) (t : Task) (d : BitVec 5) (op : RegOp) (desc : Nat) : State :=
  s.taskIssue c k t d (s.regRoom c) fun s =>
    s.queueReg c { op := op, desc := desc, src := .task c k d.toNat, ctx := t.ctx, tenant := s.actingTenant t.tenant t.asid }

def execAucgoC (d a : BitVec 5) (_q : BitVec 1) (sc : BitVec 3) (s : State) : Host.Outcome State Fault Refusal :=
  tasking s fun c k t => s.scoped c k sc (s.regTask c k t d .aucgo (t.reg a).toNat)

def execAucgetC (d : BitVec 5) (s : State) : Host.Outcome State Fault Refusal :=
  tasking s fun c k t => s.regTask c k t d .aucget 0

/-! ## The start of a problem (R251, R254, R258) -/

/-- A score as the auction takes it (R254). -/
def score (b : Nat) : Nat := if (f32Val b).isNan then 0xFF800000 else if b = 0x7F800000 then 0x7F7FFFFF else b

/-- The registers that LOADR loads (R251): none where a value breaks R253. -/
def Registrar.load (x : Registrar) (w6 w7 : Nat) : Option Registrar :=
  match x.write 0 (w6 / 2 ^ 32) with
  | none => none
  | some x =>
    match x.write 1 (w6 % 2 ^ 32) with
    | none => none
    | some x =>
      match x.write 2 (2 ^ bits w7 28 24) with
      | none => none
      | some x =>
        match x.write 3 (bits w7 23 0) with
        | none => none
        | some x => x.write 4 (w7 / 2 ^ 32)

/-- The N16 or F32 words of a byte list. -/
def wordsOf (w : Nat) (bs : List Byte) : List Nat := (List.range (bs.length / w)).map fun i => field bs (w * i) w

/-- Rows of scores read through the commons. -/
def State.readScores (s : State) (c tenant addr stride n : Nat) : Nat → Nat → Except (Nat × Nat × Nat) (List (List Nat) × State)
  | 0, _ => .ok ([], s)
  | fuel + 1, i =>
    match s.readCommons c tenant (addr + 64 * i * stride) (4 * n) with
    | .error (e, u) => .error (e, u, addr + 64 * i * stride)
    | .ok (bs, s') =>
      match s'.readScores c tenant addr stride n fuel (i + 1) with
      | .error e => .error e
      | .ok (rest, s'') => .ok ((wordsOf 4 bs).map score :: rest, s'')

/-- A read of the commons, with its address in the fault. -/
def State.readNamed (s : State) (c tenant va n : Nat) : Except (Nat × Nat × Nat) (List Byte × State) :=
  match s.readCommons c tenant va n with
  | .error (e, u) => .error (e, u, va)
  | .ok r => .ok r

/-- The descriptor's own checks (R251). -/
def auctionDescOk (bs : List Byte) : Bool :=
  let w (i : Nat) : Nat := field bs (8 * i) 8
  let w5 := w 5
  let pzero := bit w5 32
  bits w5 63 34 = 0 && !bit w5 23 && bits w5 15 7 = 0 && bits (w 7) 31 29 = 0 &&
  (bit w5 33 || (w 6 = 0 && w 7 = 0)) && w 0 % 64 = 0 && w 1 % 2 = 0 && w 3 % 2 = 0 && (pzero || w 2 % 4 = 0) &&
  w 4 % 64 = 0 && 1 ≤ bits w5 31 24 && 4 * (bits w5 6 0 + 1) ≤ 64 * bits w5 31 24

/-- The problem that a descriptor names, read whole (R251, R258), with the registers after LOADR; or a fault. -/
def State.openAuction (s : State) (c : Nat) (q : RegCmd) : Except (Nat × Nat × Nat) (Auction × Registrar × State) :=
  if inOwnCommons c q.desc && q.desc % 64 ≠ 0 then .error (0x0B, 0x0C, q.desc)
  else
    match s.readNamed c q.tenant q.desc 64 with
    | .error e => .error e
    | .ok (bs, s) =>
      let w (i : Nat) : Nat := field bs (8 * i) 8
      let nrow := bits (w 5) 22 16 + 1
      let ncol := bits (w 5) 6 0 + 1
      let pzero := bit (w 5) 32
      let regs := if bit (w 5) 33 then (s.cluster c).registrar.load (w 6) (w 7) else some (s.cluster c).registrar
      if !auctionDescOk bs then .error (0x0B, 0x0C, q.desc)
      else if !(inOwnCommons c (w 4) && inOwnCommons c (w 4 + 1343)) then .error (0x0F, 0x04, w 4)
      else
        match regs with
        | none => .error (0x0B, 0x0C, q.desc)
        | some regs =>
          match s.readScores c q.tenant (w 0) (bits (w 5) 31 24) ncol nrow 0 with
          | .error e => .error e
          | .ok (scores, s) =>
            match s.readNamed c q.tenant (w 1) (2 * ncol) with
            | .error e => .error e
            | .ok (caps, s) =>
              match if pzero then .ok (List.replicate (4 * ncol) 0, s) else s.readNamed c q.tenant (w 2) (4 * ncol) with
              | .error e => .error e
              | .ok (prices, s) =>
                match s.readNamed c q.tenant (w 3) 16 with
                | .error e => .error e
                | .ok (mask, s) =>
                  if (wordsOf 4 prices).any fun p => !finiteF32 p then .error (0x0B, 0x0C, w 2)
                  else
                    .ok ({ oaddr := w 4, nrow := nrow, ncol := ncol, scores := scores, caps := wordsOf 2 caps,
                           mask := ofBytes mask, prices := wordsOf 4 prices, assign := List.replicate nrow none,
                           bids := List.replicate nrow 0xFF800000, cmd := q, opened := q }, regs, s)

/-! ## Rounds (R255) -/

/-- Whether a column is open, a row's score on it, and whether a row can ever bid (R254). -/
def Auction.isOpen (a : Auction) (j : Nat) : Bool := a.caps.getD j 0 ≠ 0
def Auction.scoreAt (a : Auction) (i j : Nat) : Nat := (a.scores.getD i []).getD j 0xFF800000
def Auction.price (a : Auction) (j : Nat) : Nat := a.prices.getD j 0
def Auction.assigned (a : Auction) (i : Nat) : Option Nat := a.assign.getD i none
def Auction.choices (a : Auction) (i : Nat) : List Nat :=
  (List.range a.ncol).filter fun j => a.isOpen j && a.scoreAt i j ≠ 0xFF800000
def Auction.unassignable (a : Auction) (i : Nat) : Bool := i < a.nrow && bit a.mask i && (a.choices i).isEmpty

/-- U: the bidders. -/
def Auction.bidders (a : Auction) : List Nat :=
  (List.range a.nrow).filter fun i => bit a.mask i && !(a.choices i).isEmpty && a.assigned i = none

/-- The greatest of F32 words under a function of a list, the first of equals. -/
def greatestBy (f : Nat → Nat) : List Nat → Option Nat
  | [] => none
  | j :: js =>
    match greatestBy f js with
    | none => some j
    | some k => if f32Lt (f j) (f k) then some k else some j

/-- A row's bid: its column and amount. -/
def Auction.bid (a : Auction) (eps i : Nat) : Option (Nat × Nat) :=
  let w (j : Nat) : Nat := f32Sub (a.scoreAt i j) (a.price j)
  match greatestBy w (a.choices i) with
  | none => none
  | some j1 =>
    let w2 := match greatestBy w ((a.choices i).filter fun j => j ≠ j1) with
      | some j => w j
      | none => 0xFF800000
    some (j1, if w2 = 0xFF800000 then f32Add (a.price j1) eps else f32Add (f32Sub (a.scoreAt i j1) w2) eps)

/-- The bids a column keeps: by bid descending, then row ascending (R255). -/
def Auction.keeps (a : Auction) (offers : List (Nat × Nat × Nat)) (j : Nat) : List (Nat × Nat) :=
  let held := ((List.range a.nrow).filter fun i => a.assigned i = some j).map fun i => (i, a.bids.getD i 0xFF800000)
  let new := (offers.filter fun o => o.2.1 = j).map fun o => (o.1, o.2.2)
  ((held ++ new).insertionSort fun x y => f32Lt y.2 x.2 || (!f32Lt x.2 y.2 && x.1 ≤ y.1)).take (a.caps.getD j 0)

/-- One round (R255). -/
def Auction.round (a : Auction) (eps : Nat) : Auction :=
  let offers := a.bidders.filterMap fun i => (a.bid eps i).map fun b => (i, b.1, b.2)
  let kept := (List.range a.ncol).map fun j => (j, a.keeps offers j)
  let place (i : Nat) : Option (Nat × Nat) :=
    kept.findSome? fun k => (k.2.find? fun r => r.1 = i).map fun r => (k.1, r.2)
  let price (j : Nat) : Nat :=
    let ks := a.keeps offers j
    if ks.length = a.caps.getD j 0 && a.isOpen j then (ks.getLastD (0, 0)).2 else a.price j
  { a with assign := (List.range a.nrow).map fun i => (place i).map fun p => p.1,
           bids := (List.range a.nrow).map fun i => match place i with
             | some p => p.2
             | none => 0xFF800000,
           prices := (List.range a.ncol).map price, rounds := a.rounds + 1, cmdRounds := a.cmdRounds + 1 }

/-- What the end checks of a round say: the next state of the registers and the auction, or the state it stops in. -/
def Registrar.endChecks (x : Registrar) (a : Auction) : Registrar × Auction × Option RegState :=
  let more (x : Registrar) (a : Auction) : Registrar × Auction × Option RegState :=
    if (List.range a.ncol).any fun j => f32Lt x.priceMax.toNat (a.price j) then (x, a, some .ceiling)
    else if a.cmdRounds = x.roundMax.toNat then (x, a, some .limit)
    else (x, a, none)
  if a.bidders.isEmpty then
    if 1 < x.epsDiv.toNat && f32Lt x.epsMin.toNat x.eps.toNat then
      let div := (roundVal f32 0 0 (.fin false x.epsDiv.toNat 0)).1
      let e := f32Div x.eps.toNat div
      let e := if f32Lt e x.epsMin.toNat then x.epsMin.toNat else e
      more { x with eps := BitVec.ofNat 32 e }
        { a with assign := a.assign.map fun _ => none, bids := a.bids.map fun _ => 0xFF800000, phase := a.phase + 1 }
    else (x, a, some .done)
  else more x a

/-! ## Stops (R252, R258, R260) -/

/-- The result area (R252). -/
def Registrar.results (x : Registrar) (a : Auction) : List Byte :=
  ((List.range 128).flatMap fun i => toBytes 2 (match a.assigned i with
    | some j => j
    | none => 0xFFFF)) ++
  ((List.range 128).flatMap fun j => toBytes 4 (if j < a.ncol then a.price j else 0)) ++
  ((List.range 128).flatMap fun i => toBytes 4 (a.bids.getD i 0xFF800000)) ++
  toBytes 4 a.rounds ++ toBytes 4 x.state.code ++ toBytes 4 x.eps.toNat ++ toBytes 4 a.phase ++
  toBytes 16 ((List.range 128).foldl (fun n i => if a.unassignable i then n + 2 ^ i else n) 0) ++ toBytes 32 0

/-- The completion word (R260). -/
def regWord (st rounds : Nat) : Nat := st + 256 * (rounds % 2 ^ 24)

/-- A command's completion: an N32 run at L's ITAG, or gD. -/
def State.regResult (s : State) (q : RegCmd) (tok : Token) (v : Nat) : State :=
  match q.src with
  | .slot t slot _ => s.emit t slot q.ctx q.itag.toNat (toAll (s.slotTargets t slot) tok)
  | src => s.srcResult src (BitVec.ofNat 64 v)

/-- A completion of a run of several elements, or TagWrap in its place where it would pass the last tag (R17). -/
def State.regRun (s : State) (c : Nat) (q : RegCmd) (tok : Token) (v : Nat) : State :=
  match q.src with
  | .slot _ _ _ =>
    if tok.wraps then
      let (s, seq) := s.regRaise c q 0x0B 0x05 0
      s.regResult q (faultToken 11 q.ctx q.itag 1 0x0B 0x05 false 0 seq) v
    else s.regResult q tok v
  | _ => s.regResult q tok v

/-- L passed on by a command that a slot issued. -/
def State.regPass (s : State) (q : RegCmd) : State :=
  match q.src with
  | .slot t slot l => s.emit t slot q.ctx q.itag.toNat (toAll (s.slotTargets t slot) l)
  | _ => s

/-- A command that passes L on complete: a completion of an engine command (R316). -/
def State.regOver (s : State) (q : RegCmd) : State := (s.regPass q).progressed q.ctx

/-- A command's fault (R261, R262): a record, and a FAULT token or failure word. L's shape is replaced where L passes. -/
def State.regFault (s : State) (c : Nat) (q : RegCmd) (cause sub address : Nat) : State :=
  let (s, seq) := s.regRaise c q cause sub address
  let tok := match q.op, q.src with
    | .aucset, .slot _ _ l => faultToken l.fmt q.ctx l.itag l.len cause sub false 0 seq
    | _, _ => faultToken 11 q.ctx q.itag 1 cause sub false 0 seq
  (s.regResult q tok (7 + sub * 256 + cause * 65536)).progressed q.ctx

/-- A served command's fault: FAILED, no results, no owner (R262). -/
def State.failAuction (s : State) (c : Nat) (q : RegCmd) (cause sub address : Nat) : State :=
  let r := (s.cluster c).registrar
  (s.setRegistrar c { r with state := .failed, owner := none }).regFault c q cause sub address

/-- A stop in a state: the results are written and the running command completes; served AUCSTOPs pass L on (R258,
R260). -/
def State.stopAuction (s : State) (c : Nat) (st : RegState) (complete : Bool) : State :=
  let r := (s.cluster c).registrar
  match r.auction with
  | none => s
  | some a =>
    let r := { r with state := st, owner := if st = .paused then r.owner else none, stops := [] }
    let stops := (s.cluster c).registrar.stops
    let s := s.setRegistrar c r
    match s.storeBytes a.cmd.tenant (commonsBase c + bits a.oaddr 18 0) 23 (r.results a) with
    | none => stops.foldl (fun (z : State) q => z.regOver q) (s.failAuction c a.cmd 0x07 0x06 a.oaddr)
    | some s =>
      let word := regWord st.code a.rounds
      let s := if complete then (s.regResult a.cmd (oneN32 a.cmd.ctx a.cmd.itag word) word).progressed a.cmd.ctx else s
      stops.foldl (fun (z : State) q => z.regOver q) s

/-- AUCTION_ROUND (R255): one round of cluster u's auction with the end checks; then an AUCSTOP of the owner, and the
pause of an AUCSTEP. -/
def execAuctionRound (s : State) : Host.Outcome State Fault Refusal :=
  match s.focus with
  | .event u _ =>
    let r := (s.cluster u).registrar
    match r.state, r.auction with
    | .running, some a =>
      let (r', a', end_) := r.endChecks (a.round r.eps.toNat)
      let s := s.setRegistrar u { r' with auction := some a' }
      match end_ with
      | some st => .next (s.stopAuction u st true)
      | none =>
        if !r.stops.isEmpty then .next (s.stopAuction u .stopped true)
        else if a'.steps = some a'.cmdRounds then .next (s.stopAuction u .paused true)
        else .next s
    | _, _ => .next s
  | _ => .next s

/-! ## Service (R250, R260) -/

/-- Whether a Registrar is PAUSED for its owner to go on: not by a bell, after which the owner's commands are saved in the
queue (R263). -/
def Registrar.resumable (x : Registrar) : Bool := x.state = .paused && !(x.auction.any fun a => a.belled)

/-- Whether a command can be served now (R250). -/
def Registrar.servable (x : Registrar) (q : RegCmd) : Bool :=
  let mine := x.owner = some q.ctx
  match q.op with
  | .aucget => true
  | .aucstop => !mine || x.state = .running || x.resumable
  | _ => x.owner = none || (mine && x.resumable)

/-- AUCGET's elements. -/
def Registrar.snapshot (x : Registrar) : List Nat :=
  let a := x.auction.getD { nrow := 0 }
  [x.state.code, a.rounds, x.eps.toNat, (a.assign.filter fun z => z.isSome).length, a.bidders.length,
   if x.auction.isNone then 0 else a.phase, x.owner.getD 0xFFFFFFFF, x.queue.length]

/-- AUCGET's word for a control core (R261). -/
def Registrar.getWord (x : Registrar) : Nat :=
  let a := x.auction.getD { nrow := 0 }
  regWord x.state.code a.rounds + 2 ^ 32 * (a.assign.filter fun z => z.isSome).length +
  2 ^ 48 * (match x.owner with
    | some c => c
    | none => 0xFFFF)

/-- A problem's start (R255, R258): RUNNING under its owner, or DONE at once with no bidder. -/
def State.startAuction (s : State) (c : Nat) (q : RegCmd) (steps : Option Nat) : State :=
  match s.openAuction c q with
  | .error (e, u, at_) => s.failAuction c q e u at_
  | .ok (a, regs, s) =>
    let s := s.setRegistrar c { regs with state := .running, owner := some q.ctx, auction := some { a with steps := steps },
                                          queue := (s.cluster c).registrar.queue }
    if a.bidders.isEmpty then s.stopAuction c .done true else s

/-- A command served. -/
def State.serveReg (s : State) (c : Nat) (q : RegCmd) : State :=
  let r := (s.cluster c).registrar
  match q.op with
  | .aucgo => s.startAuction c q none
  | .aucstep =>
    match r.owner, r.auction with
    | some _, some a =>
      s.setRegistrar c { r with state := .running, auction := some { a with cmd := q, cmdRounds := 0, steps := some q.value } }
    | _, _ => s.startAuction c q (some q.value)
  | .aucset =>
    match q.src with
    | .slot _ _ l =>
      match if l.fmt = regFmt q.code then r.write q.code q.value else none with
      | some r' => (s.setRegistrar c r').regOver q
      | none => s.regFault c q 0x0B 0x11 0
    | _ => s
  | .aucget =>
    let tok : Token :=
      { act := .normal, fmt := 11, len := 8, ctx := q.ctx, itag := q.itag, mask := 255,
        data := r.snapshot.map fun v => BitVec.ofNat 64 (v % 2 ^ 32) }
    (s.regRun c q tok r.getWord).progressed q.ctx
  | .aucstop =>
    if r.owner ≠ some q.ctx then s.regOver q
    else if r.state = .running then s.setRegistrar c { r with stops := r.stops ++ [q] }
    else (s.setRegistrar c { r with stops := [q] }).stopAuction c .stopped false

/-- REGISTRAR_SERVE (R250): cluster u's Registrar serves the oldest command that it can. -/
def execRegistrarServe (s : State) : Host.Outcome State Fault Refusal :=
  match s.focus with
  | .event u _ =>
    let r := (s.cluster u).registrar
    match r.queue.findIdx? r.servable with
    | none => .next s
    | some i =>
      let q := r.queue.getD i {}
      .next (((s.setRegistrar u { r with queue := r.queue.eraseIdx i }).wake u .engine).serveReg u q)
  | _ => .next s

end Sys2Proof.Machine
end

