-- ==== Sys2Proof/Machine/Bells.lean ====
section
/-! DEFINITION. Bells (R319 to R322): ringing, the save of a tile, the save of a context with its engines and tasks, and
its restore onto a placement. -/

namespace Sys2Proof.Machine

/-! ## Ringing (R319) -/

/-- A BELL token of a context. -/
def bellToken (c : Nat) : Token := { act := .bell, ctx := c }

/-- A token put in by the Dean at a tile's router. -/
def State.deanInject (s : State) (tok : Token) (e : Edge) : State :=
  s.inject (clusterOf tok.destTile) tok e (.tile tok.destTile)

/-- BELLOUT: a bell to every entry point of the context's region, and to every tile whose INDEG is 0. -/
def State.ringBells (s : State) (c : Nat) (fromBellin : Bool) : State :=
  match s.ctxRegion c with
  | none => s
  | some r =>
    let s := s.updCtx c fun x => { x with bell := some s.cycle, fromBellin := fromBellin }
    let s := s.setDean { s.dean with saves := assocSet s.dean.saves c [] }
    let s := r.entries.zipIdx.foldl (fun (z : State) p =>
      match r.relTile p.1.1 p.1.2.1 with
      | some d => z.deanInject ((bellToken c).sendTo d p.1.2.2.1 p.1.2.2.2) { tile := d, slot := 32, ix := p.2 }
      | none => z) s
    (s.regionTiles r).foldl (fun (z : State) d =>
      if (z.blockOf d).indeg = 0 then z.deanInject ((bellToken c).sendTo d 0 0) { tile := d, slot := 35 } else z) s

/-! ## The save of a tile (R319 step 2) -/

/-- Whether a group of a tile's port has been issued and can be performed at its home without waiting for another. -/
def State.groupGoes (s : State) (t : Nat) (p : MemPairing) (g : Group) : Bool :=
  g.st = .issued && s.mayPerform t p g && !s.inputBlocked g.block (s.homeInput (clusterOf t) g.block)

/-- Whether a tile still has a started firing of a context at work: a group that goes on to be performed, a pairing to emit,
an operation that no full wait list holds, a RECALL whose replay goes on, or an instruction the Dean has not answered. An
issued group behind a version wait goes with that wait (R230). -/
def State.firingsOpen (s : State) (t c : Nat) : Bool :=
  let x := s.tile t
  (x.port.any fun p => p.ctx = c && (p.over && p.kind ≠ .fence || p.groups.any fun g => s.groupGoes t p g)) ||
  ((x.recalls.any fun r => r.1.ctx = c) && (x.rstall = .none || x.rstall = .walk)) ||
  (s.net.any fun p => match p.cargo with
    | .op o => o.src = t && o.ctx = c && !s.heldRequest p
    | _ => false) ||
  (s.dean.newWaits.any fun w => match w with
    | .firing d p => d = t && p.ctx = c
    | _ => false) || (s.dean.afters.any fun w => w.1 = t && w.2.2.ctx = c) || (s.dean.bellWaits.any fun w => w.2.1 = t && w.2.2.ctx = c) ||
  s.dean.scrubs.any fun z => match z.src with
    | some (d, p, _) => d = t && p.ctx = c
    | none => false

/-- A group as it is saved: one that was not performed is issued again after a restore (R230). -/
def Group.saved (g : Group) : Group := if g.open_ then { g with st := .todo } else g

/-- A firing's pairing as it is saved: its values are operand runs again. -/
def Pairing.unfired (p : Pairing) : Pairing :=
  let run (o : Operand) : Operand := match o with
    | .held t => .run t
    | o => o
  { p with l := run p.l, r := run p.r }

/-- The match state of a context in a tile as save records (R162, R245, R319). -/
def Tile.matchRecs (x : Tile) (c px py : Nat) : List SaveRec :=
  let mine := x.entries.filter fun e => e.tok.ctx = c
  let gone (e : Entry) : Bool := e.use = .sticky && e.tok.drp
  (mine.filter fun e => !gone e).map (SaveRec.entry px py) ++
  ((x.pairings.filter fun p => p.ctx = c).map (SaveRec.pairing px py)) ++
  ((x.recalls.filter fun r => r.1.ctx = c).map fun r => SaveRec.pairing px py r.1.unfired) ++
  ((mine.filter gone).map fun e => SaveRec.crib px py { id := e.id, tok := { e.tok with data := [] }, purged := e.dead }) ++
  ((x.drops.filter fun d => d.tok.ctx = c).map fun d => SaveRec.crib px py d) ++
  ((x.accs.filter fun a => a.ctx = c).map (SaveRec.accreg px py)) ++
  ((x.ords.filter fun o => o.ctx = c).map (SaveRec.order px py)) ++
  ((x.port.filter fun p => p.ctx = c).map fun p => SaveRec.mem px py { p with groups := p.groups.map Group.saved }) ++
  (let q := x.convQ.filter fun y => y.ctx = c
   let b := x.rebufs.filter fun y => y.ctx = c
   if q.isEmpty && b.isEmpty then [] else [SaveRec.conv px py q b])

/-- The memory and converter work of a context withdrawn from a tile, with its waits at the homes, the port's miss and the
replay of its records (R171, R230, R320). -/
def State.withdrawWork (s : State) (t c : Nat) : State :=
  let s := s.stopReplayOf t c
  let x := s.tile t
  let seqs := (x.port.filter fun p => p.ctx = c).map fun p => p.seq
  let mine (w : Waiter) : Bool := match w with
    | .group d q _ => d = t && seqs.contains q
    | _ => false
  let stopped := x.stoppedAt.any fun p => p.ctx = c
  let y : Tile := { x with port := x.port.filter fun p => p.ctx ≠ c, recalls := x.recalls.filter fun r => r.1.ctx ≠ c, convQ := x.convQ.filter fun q => q.ctx ≠ c,
                           rebufs := x.rebufs.filter fun b => b.ctx ≠ c }
  let s : State := { s.setTile t y with waits := s.waits.filter fun w => !mine w.who }
  if stopped then s.restartPort t else s

/-- The records added to a context's save area. -/
def State.saveRecs (s : State) (c : Nat) (rs : List SaveRec) : State := rs.foldl (fun z r => z.saveRec c r) s

/-- A tile's bells to every target of each of its slots (R319 step 3). -/
def State.sendBells (s : State) (t c : Nat) : State :=
  (List.range (s.blockOf t).slots.length).foldl (fun (z : State) k =>
    z.postAll t k (toAll (z.slotTargets t k) (bellToken c))) s

/-- The save of a tile for a context. -/
def State.saveTile (s : State) (t c : Nat) : State :=
  let (px, py) := s.relPos t
  let s := (s.saveRecs c ((s.tile t).matchRecs c px py)).withdrawWork t c
  (s.updTile t fun x => x.setBell { x.bellOf c with saved := true }).sendBells t c

/-- TILE_SAVE (R319): tile u saves context k once bells have come on INDEG edges and its started firings are done. -/
def execTileSave (s : State) : Host.Outcome State Fault Refusal :=
  match s.focus with
  | .event u k =>
    let b := (s.tile u).bellOf k
    if !b.due || b.saved || (s.ctx k).bell = none || s.firingsOpen u k then .next s else .next (s.saveTile u k)
  | _ => .next s

/-! ## The save of a context (R320) -/

/-- A task of a context as it is saved (R291): parked, or waiting in a BELL on its own context, which returns 0; none for
any other. -/
def Task.savedAs (t : Task) (c : Nat) : Option Task :=
  if t.ctx ≠ c then none
  else
    match t.st with
    | .blocked .parked => some t
    | .blocked (.bell x reg) => if x = c then some ((t.setReg (BitVec.ofNat 5 reg) 0).retire) else none
    | _ => none

/-- Whether a task is between instructions, or waits in one: an access on its way to its home is performed first. -/
def Task.atRest (t : Task) : Bool :=
  match t.st with
  | .blocked .access => false
  | .running => t.ranged.isEmpty
  | .runnable => t.ranged.isEmpty
  | _ => true

/-- A context's tasks in its region's clusters are parked, their waits withdrawn (R291). -/
def State.parkTasks (s : State) (r : Region) (c : Nat) : State :=
  (s.regionClusters r).foldl (fun (z : State) d => (z.cluster d).core.tasks.foldl (fun (y : State) q =>
    if q.2.ctx ≠ c || q.2.st = .free || (q.2.savedAs c).isSome || !q.2.atRest then y
    else
      let y : State := { y with waits := y.waits.filter fun w => w.who ≠ .task d q.1,
                                misses := y.misses.filter fun w => w.who ≠ .taskData d q.1 && w.who ≠ .taskFetch d q.1,
                                walks := y.walks.filter fun w => w.who ≠ .taskData d q.1 && w.who ≠ .taskFetch d q.1 }
      let core := (y.cluster d).core
      let y := (y.setCore d { core with spawnWait := core.spawnWait.filter fun w => w.task ≠ q.1 }).block d q.1 .parked
      y.updTask d q.1 fun t => { t with ranged := [] }) z) s

/-- Whether every task of a context is parked or ends with its bell. -/
def State.tasksStill (s : State) (r : Region) (c : Nat) : Bool :=
  (s.regionClusters r).all fun d => (s.cluster d).core.tasks.all fun q =>
    q.2.ctx ≠ c || q.2.st = .free || (q.2.savedAs c).isSome

/-- A context's running auctions stop at the end of a round: as STOPPED where the owner's AUCSTOP has been served, else with
STATUS PAUSED (R260, R263). -/
def State.pauseAuctions (s : State) (r : Region) (c : Nat) : State :=
  (s.regionClusters r).foldl (fun (z : State) d =>
    let g := (z.cluster d).registrar
    if g.owner = some c && g.state = .running then
      if g.stops.isEmpty then
        (z.setRegistrar d { g with auction := g.auction.map fun a => { a with belled := true } }).stopAuction d .paused false
      else z.stopAuction d .stopped true
    else z) s

/-- Whether an AGN can go no further while its context's tiles are saved (R203): stalled, waiting at a home, or a transform
that waits for runs to come back (log entry 149). -/
def Agn.still (g : Agn) : Bool :=
  g.stall = .resume || g.stall = .version ||
  (g.cmd.d.xform && g.stall = .none && g.wleft.isEmpty && g.buf.isEmpty && g.fetched = g.total && g.failed.isNone && !g.finished)

/-- Whether the engines of a context have come to rest: no started array command, every AGN still (R186, R203). -/
def State.enginesStill (s : State) (r : Region) (c : Nat) : Bool :=
  (s.regionClusters r).all fun d =>
    let x := s.cluster d
    (x.array.queue.all fun q => q.ctx ≠ c || !q.started) && (x.array.gives.all fun o => o.ctx ≠ c) &&
    (x.streamer.agns.all fun a => a.2.cmd.ctx ≠ c || a.2.still)

/-- Whether no token, operation or grant of a context is on its way, but what waits for a VC (R320). -/
def State.flushed (s : State) (c : Nat) : Bool :=
  s.net.all fun p => p.tok.ctx ≠ c || s.heldRequest p || (match p.dest with
    | .vc _ _ => true
    | _ => false)

/-- The held requests of a context at a tile's ports, in their order there, as records after those of its wait lists
(R113, R120). -/
def State.heldRecs (s : State) (t c : Nat) : List SaveRec :=
  let (px, py) := s.relPos t
  s.net.filterMap fun p =>
    match p.cargo with
    | .op o =>
      if p.dest = .tile t && o.ctx = c && s.heldRequest p then
        let (rx, ry) := s.relPos o.src
        some (.request px py (o.act = .ticket) (hPool o.handle.toNat) rx ry o.req)
      else none
    | _ => none

/-- The slots, tickets and requests of a context at a tile (R120). -/
def State.poolRecs (s : State) (t c : Nat) : List SaveRec :=
  let x := s.tile t
  let (px, py) := s.relPos t
  let req (tk : Bool) (i : Nat) (q : Req) : SaveRec :=
    let (rx, ry) := s.relPos q.tile
    .request px py tk i rx ry q
  let mine (z : PSlot) : Bool := z.st ≠ .free && z.ownerCtx = c
  let a := (s.cluster (clusterOf t)).array
  let accs := if localOf t = 15 then
      ((a.pool.slots.zipIdx.filter fun z => mine z.1).map fun z => SaveRec.acc px py z.2 z.1 (assocGet {} a.accs z.2)) ++
      ((a.pool.wait.filter fun q => q.ctx = c).map (req false 7))
    else []
  (x.pools.zipIdx.flatMap fun p =>
    ((p.1.slots.zipIdx.filter fun z => mine z.1).map fun z =>
      SaveRec.slot px py p.2 z.2 z.1 (cellsGet x.store (s.slotBase t p.2 z.2) p.1.size)) ++
    ((p.1.wait.filter fun q => q.ctx = c).map (req false p.2))) ++ accs ++
  (let held := x.tickets.map fun k => assocGet 0 k.held c
   if held.all fun n => n = 0 then [] else [SaveRec.tickets px py held]) ++
  x.tickets.zipIdx.flatMap fun k => (k.1.wait.filter fun q => q.ctx = c).map (req true k.2)

/-- What a tile holds of a context freed: no GEN changes (R320). -/
def State.freeTile (s : State) (t c : Nat) : State :=
  let open_ (z : PSlot) : PSlot := if z.st ≠ .free && z.ownerCtx = c then { z with st := .free, n := 0 } else z
  let pool (p : Pool) : Pool := { p with slots := p.slots.map open_, wait := p.wait.filter fun q => q.ctx ≠ c }
  let tick (k : TicketPool) : TicketPool :=
    { k with free := k.free + assocGet 0 k.held c, held := assocDel k.held c, wait := k.wait.filter fun q => q.ctx ≠ c }
  let ids (x : Tile) : List Nat := (x.drops.filter fun d => d.tok.ctx = c).map fun d => d.id
  let s := s.updTile t fun x =>
    { x with entries := x.entries.filter fun e => e.tok.ctx ≠ c, pairings := x.pairings.filter fun p => p.ctx ≠ c,
             replayQ := x.replayQ.filter fun i => !(ids x).contains i, drops := x.drops.filter fun d => d.tok.ctx ≠ c,
             accs := x.accs.filter fun a => a.ctx ≠ c, ords := x.ords.filter fun o => o.ctx ≠ c,
             bells := x.bells.filter fun b => b.ctx ≠ c, pools := x.pools.map pool, tickets := x.tickets.map tick }
  let a := (s.cluster (clusterOf t)).array
  let s := if localOf t = 15 then s.setArray (clusterOf t) { a with pool := pool a.pool } else s
  let s := (List.range 8).foldl (fun (z : State) p => z.grantPool t p 64) s
  (List.range 4).foldl (fun (z : State) k => z.grantTickets t k 64) s

/-- The place of a cluster in a region, as save records give it. -/
def Region.clusterPos (r : Region) (d : Nat) : Nat × Nat := (4 * (d % 32) + 128 - r.x0, 4 * (d / 32) + 64 - r.y0)

/-- The engines of a context in a cluster as save records, at the cluster's place in the region (R186, R203, R263). -/
def State.engineRecs (s : State) (r : Region) (d c : Nat) : List SaveRec :=
  let x := s.cluster d
  let (px, py) := r.clusterPos d
  let arr := (x.array.queue.filter fun q => q.ctx = c).map fun q => { q with behind := false, passed := none }
  let q := x.streamer.queue.filter fun q => q.ctx = c
  let ag := x.streamer.agns.filter fun a => a.2.cmd.ctx = c
  let tm := x.streamer.templates.filter fun t => t.2.cmd.ctx = c
  let ch := x.streamer.chans.filter fun h => match h.2 with
    | .template t => tm.any fun y => y.1 = t
    | .xform a => ag.any fun y => y.1 = a
    | .none => false
  let rq := x.registrar.queue.filter fun q => q.ctx = c
  let own := x.registrar.owner = some c
  (if arr.isEmpty then [] else [SaveRec.array px py arr]) ++
  (if q.isEmpty && ag.isEmpty && tm.isEmpty then [] else [SaveRec.stream px py q ag tm ch]) ++
  (if rq.isEmpty && !own then []
   else [SaveRec.registrar px py (if own then x.registrar.state else .idle) x.registrar.eps rq (if own then x.registrar.auction else none)])

/-- The engines of a cluster without a context's commands: their waits, misses and places at the gate scorer go with them, and
tasks that waited for room go on (R275). A Registrar that the context owns stays PAUSED under it (R249; log entry 148). -/
def State.freeEngines (s : State) (d c : Nat) : State :=
  let x := s.cluster d
  let st := x.streamer
  let keepT := st.templates.filter fun t => t.2.cmd.ctx ≠ c
  let keepA := st.agns.filter fun a => a.2.cmd.ctx ≠ c
  let gone (w : Waiter) : Bool := st.agns.any fun a => a.2.cmd.ctx = c && w = .agn d a.1
  let lost (w : Walk) : Bool := st.agns.any fun a => a.2.cmd.ctx = c && w.who = .agn d a.1
  let chans := st.chans.filter fun h => match h.2 with
    | .template t => keepT.any fun y => y.1 = t
    | .xform a => keepA.any fun y => y.1 = a
    | .none => true
  let g := x.registrar
  let s := s.setCluster d { x with
    array := { x.array with queue := x.array.queue.filter fun q => q.ctx ≠ c },
    streamer := { st with queue := st.queue.filter fun q => q.ctx ≠ c, agns := keepA, templates := keepT, chans := chans },
    registrar := { g with queue := g.queue.filter fun q => q.ctx ≠ c } }
  let s := s.wake d .engine
  let s : State := { s with waits := s.waits.filter fun w => !gone w.who
                            misses := s.misses.filter fun w => !lost w
                            walks := s.walks.filter fun w => !lost w }
  let m := s.domain (domainOf d)
  s.setDomain (domainOf d) { m with gateQ := m.gateQ.filter fun g => !(g.1 = d && !(keepA.any fun a => a.1 = g.2)) }

/-- The parked tasks of a context in a cluster as save records, with the tokens queued at its VCs, or on their way there, but
bells (R291). -/
def State.taskRecs (s : State) (r : Region) (d c : Nat) : List SaveRec :=
  let (px, py) := r.clusterPos d
  let core := (s.cluster d).core
  let tasks := core.tasks.filterMap fun t => (t.2.savedAs c).map fun z => (t.1, z)
  (tasks.map fun t => SaveRec.task px py t.1 t.2 ((core.vcs.filter fun v => v.2.bound = some t.1).map fun v => v.1)) ++
  (List.range 16).flatMap fun n =>
    let q := ((assocGet {} core.vcs n).queue.filter fun t => t.ctx = c) ++
      ((s.net.filter fun p => p.dest = .vc d n && p.tok.ctx = c && p.tok.act ≠ .bell).map fun p => p.tok)
    if q.isEmpty then [] else [SaveRec.vcq px py n q]

/-- A core without a context's saved tasks and queued tokens: the freed task contexts go to who waits for one (R276), the
tasks' sessions stay with them (R74), and what commands still complete for them goes to where they are saved, those of the
context's own saved commands too (R291). -/
def State.freeTasks (s : State) (r : Region) (d c : Nat) : State :=
  let (px, py) := r.clusterPos d
  let core := (s.cluster d).core
  let gone := (core.tasks.filter fun t => (t.2.savedAs c).isSome).map fun t => t.1
  let vcs := core.vcs.map fun v =>
    (v.1, { v.2 with queue := v.2.queue.filter fun t => t.ctx ≠ c,
                     bound := if v.2.bound.any fun k => gone.contains k then none else v.2.bound })
  let keep (x : Session) : Session := if gone.any fun k => x.ofTask d k then { x with saved := some c } else x
  let to_ (x : CmdSource) : CmdSource := match x with
    | .task e k reg => if e = d && gone.contains k then .saved c px py k reg else x
    | x => x
  let s := s.setCore d { core with vcs := vcs, tasks := core.tasks.filter fun t => !gone.contains t.1 }
  let s := s.mapSrc to_
  let s := (s.setDean { s.dean with sessions := s.dean.sessions.map keep }).wake d .send
  gone.foldl (fun (z : State) _ => z.grantContext d) s

/-- BELLOUTs that wait for a context emit L (R305). -/
def State.bellEmits (s : State) (c : Nat) : State :=
  let (mine, rest) := s.dean.bellWaits.partition fun w => w.1 = c
  mine.foldl (fun (z : State) w =>
    z.emit w.2.1 w.2.2.slot w.2.2.ctx w.2.2.itag.toNat (toAll (z.slotTargets w.2.1 w.2.2.slot) w.2.2.left))
    (s.setDean { s.dean with bellWaits := rest })

/-- The CONTEXT record (R321): the mode word, the Timetable bindings, the census, and the Registrars and task indices used. -/
def State.contextRec (s : State) (r : Region) (c : Nat) (recs : List SaveRec) : SaveRec :=
  let x := s.ctx c
  .context x.mode x.binds (s.census c) (tileOf r.x0 r.y0)
    (recs.filterMap fun z => match z with
      | .registrar px py _ _ _ _ => some (px, py)
      | _ => none)
    (recs.filterMap fun z => match z with
      | .task px py k _ _ => some (px, py, k)
      | _ => none)

/-- A context becomes SAVED (R320): what its units still hold joins the save area, and all of it is freed. -/
def State.contextSaved (s : State) (r : Region) (c : Nat) : State :=
  let tiles := s.regionTiles r
  let cls := s.regionClusters r
  let x := s.ctx c
  let recs := tiles.flatMap (fun t => s.poolRecs t c ++ s.heldRecs t c) ++ cls.flatMap (fun d => s.engineRecs r d c) ++
    cls.flatMap fun d => s.taskRecs r d c
  let s := s.setDean { s.dean with
    saves := assocSet s.dean.saves c (s.contextRec r c recs :: assocGet [] s.dean.saves c ++ recs) }
  let s : State := { s with net := s.net.filter fun p => p.tok.ctx ≠ c }
  let s := cls.foldl (fun (z : State) d => (z.freeEngines d c).freeTasks r d c) s
  let s := tiles.foldl (fun (z : State) t => z.freeTile t c) s
  let s := (s.updCtx c fun y => { y with st := .saved, bell := none, fromBellin := false, binds := [] }).addMeter x.tenant 12 1
  let s := if x.fromBellin then
      (s.updQueue x.queue fun q => { q with restore := q.restore ++ [c] }).queueGain x.queue (s.queue x.queue)
    else s
  (s.bellEmits c).bellResult c 0

/-- Whether a bell's context can be saved now, and its save (R320). -/
def State.bellCheck (s : State) (c : Nat) : State :=
  let x := s.ctx c
  match x.bell, s.ctxRegion c with
  | some _, some r =>
    if x.st = .live && (s.regionTiles r).all fun t => (s.tile t).savedFor c then
      let s := (s.parkTasks r c).pauseAuctions r c
      if s.enginesStill r c && s.tasksStill r c && s.flushed c then s.contextSaved r c else s
    else s
  | _, _ => s

/-- Every bell in progress checked. -/
def State.bellChecks (s : State) : State :=
  s.dean.ctxs.foldl (fun (z : State) p => if p.2.bell.isSome then z.bellCheck p.1 else z) s

/-! ## Restore (R322) -/

/-- What a restore maps: the shift of tiles, the offset of entry ids, and the new place of each task. -/
structure Moved where
  c     : Nat
  from_ : Nat
  to_   : Nat
  off   : Nat
  tasks : List (Nat × Nat × Nat × Nat) := []
  deriving DecidableEq, Repr

/-- The origin of a saved region, from its CONTEXT record. -/
def savedOrigin (rs : List SaveRec) : Nat :=
  (rs.findSome? fun r => match r with
    | .context _ _ _ o _ _ => some o
    | _ => none).getD 0

/-- A tile, or a cluster, of the saved placement on the new one. -/
def Moved.tile (m : Moved) (t : Nat) : Nat := t + m.to_ - m.from_
def Moved.cluster (m : Moved) (d : Nat) : Nat := clusterOf (m.tile (tileIn d 0))

/-- The cluster of an engine or task record. -/
def Region.recCluster (r : Region) (px py : Nat) : Nat := clusterOf (tileOf (px + r.x0 - 128) (py + r.y0 - 64))

/-- The tile of a record. -/
def Region.recTile (r : Region) (px py : Nat) : Nat := tileOf (r.x0 + px) (r.y0 + py)

/-- A token addressed to the same place of the new placement. -/
def Moved.tok (m : Moved) (t : Token) : Token := t.sendTo (m.tile t.destTile) t.slot t.port

/-- A command's source on the new placement. -/
def Moved.src (m : Moved) (x : CmdSource) : CmdSource :=
  match x with
  | .slot t slot l => .slot (m.tile t) slot l
  | x => x

/-- The task that a command's completion goes to, once the context's saved tasks are back (R291). -/
def Moved.back (m : Moved) (r : Region) (x : CmdSource) : CmdSource :=
  match x with
  | .saved c px py k reg =>
    match m.tasks.find? fun z => c = m.c && z.2.2.1 = r.recCluster px py && z.2.1 = k with
    | some z => .task z.2.2.1 z.2.2.2 reg
    | none => x
  | x => x

/-- An operand with its sticky's new id. -/
def Moved.operand (m : Moved) (o : Operand) : Operand :=
  match o with
  | .stick id => .stick (id + m.off)
  | .run t => .run (m.tok t)
  | o => o

/-- Whether everything that a record needs at its new place is free (R322 step 1, R203, R263). -/
def State.restorable (s : State) (r : Region) (c : Nat) (rc : SaveRec) : Bool :=
  match rc with
  | .slot x y p j _ _ => match s.pool (r.recTile x y) p with
    | some q => (q.slots[j]?).any fun z => z.st = .free
    | none => false
  | .acc x y j _ _ => ((s.cluster (clusterOf (r.recTile x y))).array.pool.slots[j]?).any fun z => z.st = .free
  | .tickets x y held =>
    held.zipIdx.all fun h => h.1 = 0 || (((s.tile (r.recTile x y)).tickets[h.2]?).any fun k => h.1 ≤ k.free)
  | .stream x y _ a t ch =>
    let st := (s.cluster (r.recCluster x y)).streamer
    (a.all fun g => !assocHas st.agns g.1) && (t.all fun g => !assocHas st.templates g.1) &&
      ch.all fun g => assocGet Chan.none st.chans g.1 = .none
  | .registrar x y _ _ _ a =>
    let g := (s.cluster (r.recCluster x y)).registrar
    a.isNone || g.owner = none || g.owner = some c
  | _ => true

/-- The bounded room of a tile or a cluster that save records fill again. -/
inductive Need where
  | entries (t : Nat)
  | accs (t : Nat)
  | drops (t : Nat)
  | conv (t : Nat)
  | buffers (t : Nat)
  | port (t : Nat)
  | tasks (d : Nat)
  | array (d : Nat)
  | streamer (d : Nat)
  | registrar (d : Nat)
  deriving DecidableEq, Repr

/-- What a record fills at its new place. -/
def State.needs (s : State) (r : Region) (rc : SaveRec) : List (Need × Nat) :=
  let t (x y : Nat) : Nat := r.recTile x y
  let d (x y : Nat) : Nat := r.recCluster x y
  match rc with
  | .entry x y _ => [(.entries (t x y), 1)]
  | .pairing x y p => [(.entries (t x y), p.l.counts + p.r.counts)]
  | .crib x y _ => [(.drops (t x y), 1)]
  | .accreg x y _ => [(.accs (t x y), 1)]
  | .conv x y q b =>
    [(.conv (t x y), q.length),
     (.buffers (t x y), (({ convQ := q, rebufs := b } : Tile).buffersUsed (s.blockLen (t x y))).length)]
  | .mem x y p => [(.port (t x y), (p.groups.filter Group.open_).length)]
  | .task x y _ _ _ => [(.tasks (d x y), 1)]
  | .array x y q => [(.array (d x y), q.length)]
  | .stream x y q _ _ _ => [(.streamer (d x y), q.length)]
  | .registrar x y _ _ q _ => [(.registrar (d x y), q.length)]
  | _ => []

/-- The room left of each kind (R24, R87, R163, R168, R176, R187, R220, R240, R249, R272). -/
def State.spare (s : State) (n : Need) : Nat :=
  match n with
  | .entries t => Config.matchEntries - (s.tile t).used
  | .accs t => Config.accRegs - (s.tile t).accs.length
  | .drops t => Config.dropRecords - (s.tile t).drops.length
  | .conv t => 4 - (s.tile t).convQ.length
  | .buffers t => 16 - ((s.tile t).buffersUsed (s.blockLen t)).length
  | .port t => 32 - (s.tile t).port.foldl (fun n p => n + (p.groups.filter Group.open_).length) 0
  | .tasks d => ((List.range 8).filter fun k => (s.task d k).st = .free).length
  | .array d => 8 - (s.cluster d).array.queue.length
  | .streamer d => 16 - (s.cluster d).streamer.queue.length
  | .registrar d => 4 - (s.cluster d).registrar.queue.length

/-- Whether all that a save area fills has room (log entry 89). -/
def State.roomFor (s : State) (r : Region) (rs : List SaveRec) : Bool :=
  let all := rs.flatMap (s.needs r)
  all.all fun n => (all.foldl (fun k z => if z.1 = n.1 then k + z.2 else k) 0) ≤ s.spare n.1

/-- The highest id that a record uses. -/
def recId : SaveRec → Nat
  | .entry _ _ e => e.id
  | .crib _ _ d => d.id
  | .conv _ _ q b => (q.map fun y => y.id).foldl max ((b.flatMap fun y => y.inputs).foldl max 0)
  | _ => 0

/-- A saved request for which its wait list has no room: it waits again in an input buffer of its pool's tile (R113, R120). Its
trigger stands in the tile that asked. -/
def State.requestPacket (s : State) (t x y : Nat) (tk : Bool) (p : Nat) (q : Req) : Packet :=
  let l := (((s.tile q.tile).entries.find? fun e => e.use = .trigger && e.id = q.trig).map fun e => e.tok).getD {}
  { tok := ({ act := .purge, ctx := q.ctx } : Token).sendTo t 0 0, edge := { tile := q.tile, slot := q.slot }, dest := .tile t,
    place := .door t, vc := 0, sent := s.cycle, since := s.cycle,
    cargo := .op { act := if tk then .ticket else .alloc, src := q.tile, slot := q.slot, ctx := q.ctx, itag := q.itag, trig := q.trig,
                   handle := BitVec.ofNat 32 (mkHandle 0 p x y 0), fmt := l.fmt, l := l } }

/-- The match and pool records loaded (R322 step 1). -/
def State.loadRec (s : State) (r : Region) (m : Moved) (rc : SaveRec) : State :=
  match rc with
  | .context mode binds _ _ _ _ => s.updCtx m.c fun x => { x with mode := mode, binds := binds }
  | .entry x y e =>
    s.updTile (r.recTile x y) fun z => { z with entries := z.entries ++ [{ e with id := e.id + m.off, tok := m.tok e.tok }] }
  | .pairing x y p =>
    s.updTile (r.recTile x y) fun z =>
      { z with pairings := z.pairings ++ [{ p with l := m.operand p.l, r := m.operand p.r, born := s.cycle }] }
  | .crib x y d =>
    s.updTile (r.recTile x y) fun z => { z with drops := z.drops ++ [{ d with id := d.id + m.off, tok := m.tok d.tok }] }
  | .accreg x y a => s.updTile (r.recTile x y) fun z => { z with accs := z.accs ++ [a] }
  | .order x y o => s.updTile (r.recTile x y) fun z => { z with ords := z.ords ++ [o] }
  | .slot x y p j z bs =>
    let t := r.recTile x y
    match s.pool t p with
    | none => s
    | some q =>
      (s.setPool t p { q with slots := q.slots.set j z }).updTile t fun w => { w with store := cellsSet w.store (s.slotBase t p j) bs }
  | .acc x y j z a =>
    let d := clusterOf (r.recTile x y)
    let q := (s.cluster d).array
    s.setArray d { q with pool := { q.pool with slots := q.pool.slots.set j z }, accs := assocSet q.accs j a }
  | .tickets x y held =>
    s.updTile (r.recTile x y) fun z => { z with tickets := z.tickets.zipIdx.map fun k =>
      let n := held.getD k.2 0
      if n = 0 then k.1 else { k.1 with free := k.1.free - n, held := assocSet k.1.held m.c n } }
  | .request x y tk p rx ry q =>
    let q : Req := { q with tile := r.recTile rx ry, trig := q.trig + m.off }
    let t := r.recTile x y
    let full : State := { s with net := s.net ++ [s.requestPacket t x y tk p q] }
    if tk then
      match (s.tile t).tickets[p]? with
      | none => s
      | some w =>
        if 64 ≤ w.wait.length then full
        else s.updTile t fun z => { z with tickets := z.tickets.set p { w with wait := w.wait ++ [q] } }
    else
      match s.pool t p with
      | none => s
      | some w => if 64 ≤ w.wait.length then full else s.setPool t p { w with wait := w.wait ++ [q] }
  | _ => s

/-- The auction of a context goes on from its descriptor's inputs and its result area (R263). -/
def State.loadAuction (s : State) (d : Nat) (st : RegState) (eps : BitVec 32) (a : Auction) (q : RegCmd) : State :=
  match s.openAuction d a.opened with
  | .error (e, u, at_) => s.failAuction d q e u at_
  | .ok (b, regs, s) =>
    match s.readNamed d q.tenant b.oaddr 1344 with
    | .error (e, u, at_) => s.failAuction d q e u at_
    | .ok (bs, s) =>
      let assign := (List.range b.nrow).map fun i => let v := field bs (2 * i) 2; if v = 0xFFFF then none else some v
      let b : Auction :=
        { b with assign := assign, prices := (List.range b.ncol).map fun j => field bs (256 + 4 * j) 4,
                 bids := (List.range b.nrow).map fun i => field bs (768 + 4 * i) 4, rounds := a.rounds,
                 cmdRounds := a.cmdRounds, phase := a.phase, steps := a.steps, cmd := q, opened := a.opened }
      s.setRegistrar d { regs with state := if a.belled then .running else st, owner := some q.ctx, auction := some b,
                                   eps := eps, queue := (s.cluster d).registrar.queue }

/-- A command's descriptor or shape constant, read again at its slot. -/
def State.srcConst (s : State) (x : CmdSource) (old : Nat) : Nat :=
  match x with
  | .slot t slot _ =>
    let w := (s.blockOf t).slots.getD slot 0
    match unpackSlot (opcodeOf w) w with
    | .e e => s.konst t e.kidx.toNat
    | _ => old
  | _ => old

/-- A streamer command that had no AGN issued again from its operand run (R203). -/
def State.reissue (s : State) (d : Nat) (q : StreamCmd) : State :=
  match q.src with
  | .slot _ _ _ => s.acceptStream d (s.srcConst q.src 0) q
  | _ =>
    let st := (s.cluster d).streamer
    s.setStreamer d { st with queue := st.queue ++ [q] }

/-- The engine, memory and task records restored (R322 step 2). -/
def State.loadEngine (s : State) (r : Region) (m : Moved) (rc : SaveRec) : State :=
  match rc with
  | .conv x y q b =>
    s.updTile (r.recTile x y) fun z =>
      { z with convQ := z.convQ ++ q.map fun y => { y with id := y.id + m.off, born := s.cycle },
               rebufs := z.rebufs ++ b.map fun y => { y with inputs := y.inputs.map (· + m.off) } }
  | .mem x y p => s.addPairing (r.recTile x y) p
  | .array x y qs =>
    let d := r.recCluster x y
    qs.foldl (fun (z : State) q =>
      let src := m.src q.src
      let k := z.srcConst src q.desc
      let k := if q.op = .accz || q.op = .accwr then q.desc else k
      z.queueArray d { q with src := src, desc := k, shape := if q.op = .accrd then k else q.shape }) s
  | .stream x y qs ag tm ch =>
    let d := r.recCluster x y
    let st := (s.cluster d).streamer
    let s := s.setStreamer d { st with
      agns := ag.foldl (fun z g => assocSet z g.1
        ({ g.2 with cmd := { g.2.cmd with src := m.src g.2.cmd.src }, entry := none } : Agn).resume) st.agns,
      templates := tm.foldl (fun z g => assocSet z g.1
        { g.2 with cmd := { g.2.cmd with src := m.src g.2.cmd.src }, unbind := g.2.unbind.map m.src }) st.templates,
      chans := ch.foldl (fun z g => assocSet z g.1 g.2) st.chans }
    qs.foldl (fun (z : State) q => z.reissue d { q with src := m.src q.src }) s
  | .registrar x y st eps qs a =>
    let d := r.recCluster x y
    let moved (z : State) (q : RegCmd) : RegCmd := { q with src := m.src q.src, desc := z.srcConst (m.src q.src) q.desc }
    let s := match a with
      | some b => s.loadAuction d st eps { b with opened := moved s b.opened } (moved s b.cmd)
      | none => s
    qs.foldl (fun (z : State) q => z.queueReg d (moved z q)) s
  | .task x y k t vcs =>
    let d := r.recCluster x y
    match m.tasks.find? fun z => m.cluster z.1 = d && z.2.1 = k with
    | none => s
    | some z =>
      let j := z.2.2.2
      let s := s.setTask d j { t with st := .runnable, dirty := t.tags.map fun g => g.1, dentry := none, fentry := none, line := none, ranged := [] }
      let core := (s.cluster d).core
      let s := s.setCore d { core with vcs := vcs.foldl (fun v n => assocSet v n { assocGet {} v n with bound := some j }) core.vcs }
      let back (w : Session) : Session :=
        if w.saved = some m.c && w.cluster = z.1 && w.task = k then { w with cluster := d, task := j, saved := none } else w
      s.setDean { s.dean with sessions := s.dean.sessions.map back }
  | .vcq x y n q =>
    let d := r.recCluster x y
    let core := (s.cluster d).core
    let v := assocGet {} core.vcs n
    s.setCore d { core with vcs := assocSet core.vcs n { v with queue := v.queue ++ q } }
  | _ => s

/-- The CHANNEL tokens and grants put in again (R322 step 3): they wait at their tiles in saved order, before anything that is
still to come there for the context. -/
def State.loadChannel (s : State) (r : Region) (m : Moved) (rc : SaveRec) : State :=
  let put (t : Nat) (p : Packet) : State :=
    { s with net := s.net ++ [{ p with dest := .tile t, place := .door t, sent := s.cycle, since := s.cycle }] }
  match rc with
  | .channel x y e tok =>
    let t := r.recTile x y
    put t { tok := tok.sendTo t tok.slot tok.port, edge := { e with tile := m.tile e.tile } }
  | .grant x y px py g =>
    let t := r.recTile x y
    let g : Grant := { g with trig := g.trig + m.off, tile := r.recTile px py }
    put t { tok := ({ act := .purge, ctx := m.c } : Token).sendTo t 0 0, edge := { tile := g.tile, slot := 0 }, vc := 1, cargo := .grant g }
  | _ => s

/-- The new place of each saved task: the free task contexts of its cluster, in order. -/
def State.placeTasks (s : State) (r : Region) (from_ : Nat) (rs : List SaveRec) : List (Nat × Nat × Nat × Nat) :=
  rs.foldl (fun (z : List (Nat × Nat × Nat × Nat)) rc => match rc with
    | .task x y k _ _ =>
      let d := r.recCluster x y
      let old := clusterOf (tileOf (x + tileX from_ - 128) (y + tileY from_ - 64))
      match (List.range 8).find? fun i => (s.task d i).st = .free && !(z.any fun w => w.2.2.1 = d && w.2.2.2 = i) with
      | some i => z ++ [(old, k, d, i)]
      | none => z
    | _ => z) []

/-- Whether a save record is a task's. -/
def SaveRec.isTask : SaveRec → Bool
  | .task _ _ _ _ _ => true
  | _ => false

/-- A saved context restored onto a region (R322): none while something that it needs there is not free. -/
def State.restoreInto (s : State) (c : Nat) (r : Region) : Option State :=
  let rs := assocGet [] s.dean.saves c
  if !(rs.all fun z => s.restorable r c z) || !s.roomFor r rs then none
  else
    let tiles := s.regionTiles r
    let off := tiles.foldl (fun n t => max n (s.tile t).nextId) 0
    let top := off + rs.foldl (fun n z => max n (recId z)) 0 + 1
    let m : Moved := { c := c, from_ := savedOrigin rs, to_ := tileOf r.x0 r.y0, off := off,
                       tasks := s.placeTasks r (savedOrigin rs) rs }
    let own := rs.map (SaveRec.mapSrc (m.back r))
    let (tasks, rest) := own.partition SaveRec.isTask
    let s := own.foldl (fun (z : State) rc => z.loadRec r m rc) s
    let s := tiles.foldl (fun (z : State) t => z.updTile t fun x => ({ x with nextId := top } : Tile).peaked) s
    let s := ((tasks ++ rest).foldl (fun (z : State) rc => z.loadEngine r m rc) s).mapSrc (m.back r)
    let s := rs.foldl (fun (z : State) rc => z.loadChannel r m rc) s
    let s := s.updCtx c fun x => { x with st := .live }
    let s := tiles.foldl (fun (z : State) t => z.wantReplays t) s
    let s := tiles.foldl (fun (z : State) t =>
      let z := (List.range 8).foldl (fun (y : State) p => y.grantPool t p 64) z
      (List.range 4).foldl (fun (y : State) k => y.grantTickets t k 64) z) s
    some (s.setDean { s.dean with saves := assocDel s.dean.saves c, buckets := s.dean.buckets.map fun b =>
            if b.ctx = c then { b with tile := m.tile b.tile } else b })

/-! ## The Proctor over a bell -/

/-- BELL_STUCK (R320): context k is not SAVED within its region's Proctor interval after BELLOUT. -/
def execBellStuck (s : State) : Host.Outcome State Fault Refusal :=
  match s.focus with
  | .event _ k =>
    match (s.ctx k).bell, s.ctxRegion k with
    | some since, some r =>
      if since + 2 ^ r.pexp ≤ s.cycle then .next (s.bellProtocol (tileOf r.x0 r.y0) k 0x02) else .next s
    | _, _ => .next s
  | _ => .next s

end Sys2Proof.Machine
end

