-- ==== Sys2Proof/Machine/Erase.lean ====
section
/-! DEFINITION. The Eraser (R306, R340) and the state of tiles between owners (R70, R72, R80). -/

namespace Sys2Proof.Machine

/-- The pools and ticket pools of a block, all slots free at GEN 0 and every ticket there (R80, R107). -/
def Block.freshPools (b : Block) : List Pool := b.pools.map fun d => { size := d.size, slots := List.replicate d.count {} }
def Block.freshTickets (b : Block) : List TicketPool := b.tickets.map fun n => { declared := n, free := n }

/-- A tile whose tile store and match store the Eraser has cleared (R340), with its block's pools free. -/
def Tile.erased (x : Tile) (owner : Nat) : Tile :=
  let b := x.block.getD {}
  { status := x.status, owner := some owner, block := x.block, pools := b.freshPools, tickets := b.freshTickets,
    nextId := x.nextId, portSeq := x.portSeq, entry := x.entry, rentry := x.rentry, lastRound := x.lastRound,
    counters := x.counters, stall := x.stall, rstall := x.rstall }

/-- A cluster whose accumulators and B store, or Registrar, the Eraser has cleared, each with the tile that carries its
port (R11, R340). -/
def Cluster.erased (x : Cluster) (l : Nat) : Cluster :=
  if l = 15 then { x with array := { done := x.array.done, busy := x.array.busy }, bstore := [], bpoison := [] }
  else if l = 12 then { x with registrar := {} }
  else x

/-- The tasks of a cluster's core that a condition picks ended. -/
def State.endTasks (s : State) (c : Nat) (p : Task → Bool) : State :=
  (List.range 8).foldl (fun (z : State) k => if (z.task c k).st ≠ .free && p (z.task c k) then z.endTask c k else z) s

/-- A tile, and the units that its capability port serves but the control core, erased for a tenant. -/
def State.eraseUnits (s : State) (owner t : Nat) : State :=
  let c := clusterOf t
  let s := (s.stopReplay t).updTile t fun x => x.erased owner
  if localOf t = 12 || localOf t = 15 then s.setCluster c ((s.cluster c).erased (localOf t)) else s

/-- A tile, and all that its capability port serves, erased for a tenant: t0's control-core contexts with their tasks. -/
def State.eraseTile (s : State) (owner t : Nat) : State :=
  let s := s.eraseUnits owner t
  if localOf t = 0 then (s.endTasks (clusterOf t) fun _ => true).setCore (clusterOf t) {} else s

/-- A commons bank erased and given to a tenant (R306, R340). -/
def State.eraseBank (s : State) (owner c bank : Nat) : State :=
  let a := commonsBase c + bank * 2 ^ 15
  let s : State := { s with mem := cellsBlank s.mem a (2 ^ 15), blocks := s.blocks.filter fun p => p.1 < a / 64 || a / 64 + 512 ≤ p.1 }
  s.setCluster c { s.cluster c with banks := (s.cluster c).banks.set bank owner }

/-- The tiles of a die rectangle that are not fused. -/
def State.rectTiles (s : State) (x0 y0 w h : Nat) : List Nat :=
  ((List.range h).flatMap fun j => (List.range w).filterMap fun i =>
    if x0 + i < 128 && y0 + j < 64 then some (tileOf (x0 + i) (y0 + j)) else none).filter fun t => !s.fused t

/-- The Eraser's effect over a rectangle, and over the banks of a mask in every cluster of it (R306, R340). -/
def State.erase (s : State) (x0 y0 w h banks owner : Nat) : State :=
  let ts := s.rectTiles x0 y0 w h
  let cs := (List.range Config.clusters).filter (rectTouches x0 y0 w h)
  let s := ts.foldl (fun z t => z.eraseTile owner t) s
  let s := cs.foldl (fun z c => ((List.range 16).filter (bit banks)).foldl (fun y b => y.eraseBank owner c b) z) s
  -- the gate SRAM of a stack domain whose 32 clusters the rectangle holds whole
  (List.range 16).foldl (fun z d =>
    if (List.range Config.clusters).all fun c => domainOf c ≠ d || rectWhole x0 y0 w h c then
      z.setDomain d { z.domain d with gate := (z.domain d).gate.map fun g => (owner, g.2), sram := [] } else z) s

/-- A tile taken over by a tenant: the Eraser has run where the last owner was another (R72, R301), and at t0 the last
owner's tasks have ended. The Dean's loader and the new owner's tasks run on. The model erases here, where the next owner
takes the tile, and not at the unload (log entry 150). -/
def State.takeTile (s : State) (owner t : Nat) : State :=
  match (s.tile t).owner with
  | none => s.updTile t fun x => { x with owner := some owner }
  | some o =>
    if o = owner then s
    else
      let s := s.eraseUnits owner t
      if localOf t = 0 then s.endTasks (clusterOf t) fun x => x.tenant = o && o ≠ 0 else s

end Sys2Proof.Machine
end

