-- ==== Sys2Proof/Machine/Alu.lean ====
section
/-! DEFINITION. The integer instructions, branches and jumps, and CRC32C of a control core (R280 to R282, R285, R288),
and the write of a task's register with its pin and tag (R247). -/

namespace Sys2Proof.Machine

/-! ## Instructions that compute -/

/-- An instruction that only computes gD. -/
def computing (s : State) (d : BitVec 5) (f : Task → Word) : Host.Outcome State Fault Refusal :=
  tasking s fun c k t => s.writing c k t d (s.setTask c k (t.setReg d (f t)).retire)

/-- A task's instruction completed with a result after n cycles, for which it is BLOCKED (R275, R371; log entry 171). -/
def State.answer (s : State) (c k : Nat) (d : BitVec 5) (v : Word) (n : Nat) : State :=
  (s.updTask c k fun t => (t.setReg d v).retire).block c k (.config (s.cycle + n))

/-! ## Values (R280 to R282) -/

/-- 1 where a condition holds, else 0. -/
def flagWord (b : Bool) : Word := if b then 1 else 0

def aluSll (x y : Word) : Word := x <<< (y.toNat % 64)
def aluSrl (x y : Word) : Word := x >>> (y.toNat % 64)
def aluSra (x y : Word) : Word := x.sshiftRight (y.toNat % 64)
def aluSlt (x y : Word) : Word := flagWord (x.slt y)
def aluSltu (x y : Word) : Word := flagWord (x.ult y)
def aluMulh (x y : Word) : Word := BitVec.ofInt 64 (x.toInt * y.toInt / 2 ^ 64)
def aluMulhu (x y : Word) : Word := BitVec.ofNat 64 (x.toNat * y.toNat / 2 ^ 64)

/-- Quotients truncated toward zero; all ones by zero (R280, R282). -/
def aluDiv (x y : Word) : Word := if y = 0 then BitVec.allOnes 64 else BitVec.ofInt 64 (x.toInt.tdiv y.toInt)
def aluDivu (x y : Word) : Word := if y = 0 then BitVec.allOnes 64 else BitVec.ofNat 64 (x.toNat / y.toNat)

/-- Remainders; the dividend by zero (R280, R282). -/
def aluRem (x y : Word) : Word := if y = 0 then x else BitVec.ofInt 64 (x.toInt.tmod y.toInt)
def aluRemu (x y : Word) : Word := if y = 0 then x else BitVec.ofNat 64 (x.toNat % y.toNat)
def aluMin (x y : Word) : Word := if x.slt y then x else y
def aluMax (x y : Word) : Word := if x.slt y then y else x
def aluClz (x : Word) : Word := BitVec.ofNat 64 (clz 64 x.toNat)
def aluPopc (x : Word) : Word := BitVec.ofNat 64 (popcount 64 x.toNat)

/-- IMM15 and IMM20 as R281 takes them. -/
def imm15 (i : BitVec 15) : Word := i.signExtend 64
def imm20 (i : BitVec 20) : Word := i.signExtend 64 <<< 12

/-! ## Integer instructions (R280, R281) -/

def execAddC (d a b : BitVec 5) (s : State) : Host.Outcome State Fault Refusal :=
  computing s d fun t => t.reg a + t.reg b

def execSubC (d a b : BitVec 5) (s : State) : Host.Outcome State Fault Refusal :=
  computing s d fun t => t.reg a - t.reg b

def execAndC (d a b : BitVec 5) (s : State) : Host.Outcome State Fault Refusal :=
  computing s d fun t => t.reg a &&& t.reg b

def execOrC (d a b : BitVec 5) (s : State) : Host.Outcome State Fault Refusal :=
  computing s d fun t => t.reg a ||| t.reg b

def execXorC (d a b : BitVec 5) (s : State) : Host.Outcome State Fault Refusal :=
  computing s d fun t => t.reg a ^^^ t.reg b

def execSll (d a b : BitVec 5) (s : State) : Host.Outcome State Fault Refusal :=
  computing s d fun t => aluSll (t.reg a) (t.reg b)

def execSrl (d a b : BitVec 5) (s : State) : Host.Outcome State Fault Refusal :=
  computing s d fun t => aluSrl (t.reg a) (t.reg b)

def execSra (d a b : BitVec 5) (s : State) : Host.Outcome State Fault Refusal :=
  computing s d fun t => aluSra (t.reg a) (t.reg b)

def execSlt (d a b : BitVec 5) (s : State) : Host.Outcome State Fault Refusal :=
  computing s d fun t => aluSlt (t.reg a) (t.reg b)

def execSltu (d a b : BitVec 5) (s : State) : Host.Outcome State Fault Refusal :=
  computing s d fun t => aluSltu (t.reg a) (t.reg b)

def execMulC (d a b : BitVec 5) (s : State) : Host.Outcome State Fault Refusal :=
  computing s d fun t => t.reg a * t.reg b

def execMulhC (d a b : BitVec 5) (s : State) : Host.Outcome State Fault Refusal :=
  computing s d fun t => aluMulh (t.reg a) (t.reg b)

def execMulhu (d a b : BitVec 5) (s : State) : Host.Outcome State Fault Refusal :=
  computing s d fun t => aluMulhu (t.reg a) (t.reg b)

def execDivC (d a b : BitVec 5) (s : State) : Host.Outcome State Fault Refusal :=
  computing s d fun t => aluDiv (t.reg a) (t.reg b)

def execDivu (d a b : BitVec 5) (s : State) : Host.Outcome State Fault Refusal :=
  computing s d fun t => aluDivu (t.reg a) (t.reg b)

def execRemC (d a b : BitVec 5) (s : State) : Host.Outcome State Fault Refusal :=
  computing s d fun t => aluRem (t.reg a) (t.reg b)

def execRemu (d a b : BitVec 5) (s : State) : Host.Outcome State Fault Refusal :=
  computing s d fun t => aluRemu (t.reg a) (t.reg b)

def execMinC (d a b : BitVec 5) (s : State) : Host.Outcome State Fault Refusal :=
  computing s d fun t => aluMin (t.reg a) (t.reg b)

def execMaxC (d a b : BitVec 5) (s : State) : Host.Outcome State Fault Refusal :=
  computing s d fun t => aluMax (t.reg a) (t.reg b)

def execClzC (d a : BitVec 5) (s : State) : Host.Outcome State Fault Refusal :=
  computing s d fun t => aluClz (t.reg a)

def execPopcC (d a : BitVec 5) (s : State) : Host.Outcome State Fault Refusal :=
  computing s d fun t => aluPopc (t.reg a)

def execAddi (d a : BitVec 5) (i : BitVec 15) (s : State) : Host.Outcome State Fault Refusal :=
  computing s d fun t => t.reg a + imm15 i

def execAndi (d a : BitVec 5) (i : BitVec 15) (s : State) : Host.Outcome State Fault Refusal :=
  computing s d fun t => t.reg a &&& imm15 i

def execOri (d a : BitVec 5) (i : BitVec 15) (s : State) : Host.Outcome State Fault Refusal :=
  computing s d fun t => t.reg a ||| imm15 i

def execXori (d a : BitVec 5) (i : BitVec 15) (s : State) : Host.Outcome State Fault Refusal :=
  computing s d fun t => t.reg a ^^^ imm15 i

def execSlli (d a : BitVec 5) (i : BitVec 6) (s : State) : Host.Outcome State Fault Refusal :=
  computing s d fun t => aluSll (t.reg a) (i.setWidth 64)

def execSrli (d a : BitVec 5) (i : BitVec 6) (s : State) : Host.Outcome State Fault Refusal :=
  computing s d fun t => aluSrl (t.reg a) (i.setWidth 64)

def execSrai (d a : BitVec 5) (i : BitVec 6) (s : State) : Host.Outcome State Fault Refusal :=
  computing s d fun t => aluSra (t.reg a) (i.setWidth 64)

def execSlti (d a : BitVec 5) (i : BitVec 15) (s : State) : Host.Outcome State Fault Refusal :=
  computing s d fun t => aluSlt (t.reg a) (imm15 i)

def execLui (d : BitVec 5) (i : BitVec 20) (s : State) : Host.Outcome State Fault Refusal :=
  computing s d fun _ => imm20 i

/-- The CRC-32C state gA[31:0] advanced over the 8 bytes of gB (R288). -/
def execCrc32c (d a b : BitVec 5) (s : State) : Host.Outcome State Fault Refusal :=
  computing s d fun t => BitVec.ofNat 64 (crcBytes ((t.reg a).toNat % 2 ^ 32) (toBytes 8 (t.reg b).toNat))

/-- The value of a recipe's word that is no load, with its registers (R246); none for a word that is not allowed. -/
def recipeValue (reg : BitVec 5 → Word) : Instr → Option Word
  | .addC _ a b => some (reg a + reg b)
  | .subC _ a b => some (reg a - reg b)
  | .andC _ a b => some (reg a &&& reg b)
  | .orC _ a b => some (reg a ||| reg b)
  | .xorC _ a b => some (reg a ^^^ reg b)
  | .sll _ a b => some (aluSll (reg a) (reg b))
  | .srl _ a b => some (aluSrl (reg a) (reg b))
  | .sra _ a b => some (aluSra (reg a) (reg b))
  | .slt _ a b => some (aluSlt (reg a) (reg b))
  | .sltu _ a b => some (aluSltu (reg a) (reg b))
  | .mulC _ a b => some (reg a * reg b)
  | .mulhC _ a b => some (aluMulh (reg a) (reg b))
  | .mulhu _ a b => some (aluMulhu (reg a) (reg b))
  | .divC _ a b => some (aluDiv (reg a) (reg b))
  | .divu _ a b => some (aluDivu (reg a) (reg b))
  | .remC _ a b => some (aluRem (reg a) (reg b))
  | .remu _ a b => some (aluRemu (reg a) (reg b))
  | .minC _ a b => some (aluMin (reg a) (reg b))
  | .maxC _ a b => some (aluMax (reg a) (reg b))
  | .clzC _ a => some (aluClz (reg a))
  | .popcC _ a => some (aluPopc (reg a))
  | .addi _ a i => some (reg a + imm15 i)
  | .andi _ a i => some (reg a &&& imm15 i)
  | .ori _ a i => some (reg a ||| imm15 i)
  | .xori _ a i => some (reg a ^^^ imm15 i)
  | .slli _ a i => some (aluSll (reg a) (i.setWidth 64))
  | .srli _ a i => some (aluSrl (reg a) (i.setWidth 64))
  | .srai _ a i => some (aluSra (reg a) (i.setWidth 64))
  | .slti _ a i => some (aluSlt (reg a) (imm15 i))
  | .lui _ i => some (imm20 i)
  | _ => none

/-! ## Branches and jumps (R285) -/

/-- A taken branch or jump: INSTRET counts, and the fetch line is discarded (R290). -/
def Task.jump (t : Task) (pc : Word) : Task := { t with pc := pc, instret := t.instret + 1, line := none }

/-- A branch (R285): the offset counts in words from the branch itself (R41). -/
def branching (s : State) (f : BitVec 15) (holds : Task → Bool) : Host.Outcome State Fault Refusal :=
  tasking s fun c k t => s.setTask c k (if holds t then t.jump (t.pc + (f.signExtend 64 <<< 2)) else t.retire)

def execBeq (a b : BitVec 5) (f : BitVec 15) (s : State) : Host.Outcome State Fault Refusal :=
  branching s f fun t => t.reg a == t.reg b

def execBne (a b : BitVec 5) (f : BitVec 15) (s : State) : Host.Outcome State Fault Refusal :=
  branching s f fun t => t.reg a != t.reg b

def execBlt (a b : BitVec 5) (f : BitVec 15) (s : State) : Host.Outcome State Fault Refusal :=
  branching s f fun t => (t.reg a).slt (t.reg b)

def execBge (a b : BitVec 5) (f : BitVec 15) (s : State) : Host.Outcome State Fault Refusal :=
  branching s f fun t => !(t.reg a).slt (t.reg b)

def execBltu (a b : BitVec 5) (f : BitVec 15) (s : State) : Host.Outcome State Fault Refusal :=
  branching s f fun t => (t.reg a).ult (t.reg b)

def execBgeu (a b : BitVec 5) (f : BitVec 15) (s : State) : Host.Outcome State Fault Refusal :=
  branching s f fun t => !(t.reg a).ult (t.reg b)

def execJal (d : BitVec 5) (f : BitVec 20) (s : State) : Host.Outcome State Fault Refusal :=
  tasking s fun c k t => s.writing c k t d
    (s.setTask c k ((t.setReg d (t.pc + 4)).jump (t.pc + (f.signExtend 64 <<< 2))))

/-- JALR: gA is read before gD is written, and the target's bits [1:0] are cleared. -/
def execJalr (d a : BitVec 5) (i : BitVec 15) (s : State) : Host.Outcome State Fault Refusal :=
  tasking s fun c k t => s.writing c k t d
    (s.setTask c k ((t.setReg d (t.pc + 4)).jump ((t.reg a + imm15 i) &&& ~~~3#64)))

end Sys2Proof.Machine
end

