-- ==== Sys2Proof/Machine/TaskMem.lean ====
section
/-! DEFINITION. The memory instructions of a control core (R283, R284), the translation of a task's accesses (R208,
R211), and the reads and writes of whole byte ranges that other instructions make. -/

namespace Sys2Proof.Machine

/-! ## Translation -/

/-- What a step of an instruction answers: a value, or the state in which the task waits or has faulted. -/
inductive TaskIO (α : Type) where
  | ok (v : α)
  | stop (s : State)

/-- A task's miss joins the walk list, and the task waits (R208, R209, R275). -/
def State.taskMiss (s : State) (c k : Nat) (t : Task) (va : Nat) (kind : AccKind) : State :=
  (s.addMiss { who := .taskData c k, asid := t.asid, tenant := t.tenant, va := va, kind := kind }).block c k (.walk false)

/-- A precise memory fault of a task (R229): the record and BADADDR give the data address. -/
def State.taskMemFault (s : State) (c k cause sub va version : Nat) : State :=
  s.trap c k cause sub va va (s.task c k).pc version

/-- The home and the key of a task's access (R204 to R208, R308, R342). -/
def State.taskHome (s : State) (c k : Nat) (t : Task) (va : Nat) (kind : AccKind) : TaskIO (Nat × Nat) :=
  match translate t.dentry t.asid va kind t.priv false with
  | .miss => .stop (s.taskMiss c k t va kind)
  | .bad e u => .stop (s.taskMemFault c k e u va 0)
  | .home h =>
    match s.keyFor (s.actingTenant t.tenant t.asid) h with
    | none => .stop (s.taskMemFault c k 0x07 0x0C va 0)
    | some key => .ok (h, key)

/-! ## One access -/

/-- A task's access goes to its home, and the task is BLOCKED for the access time (R275, R290). -/
def State.taskAccess (s : State) (c k : Nat) (va : Nat) (a : Access) (x : TaskAccess) : State :=
  (s.updTask c k fun t => { t with access := { x with acc := a, va := va, bad := none } }).block c k .access

/-- A task's access performed at its home, put on its wait list, or met by a fault (R217 to R221, R275). A version that is
gone is of cause Recipe in a replay (R248). -/
def State.taskPerform (s : State) (c k : Nat) : State :=
  let t := s.task c k
  let a := t.access.acc
  let fail (e u : Nat) : State :=
    if e = 0x05 && t.access.replay then s.taskMemFault c k 0x0C 0x03 t.access.va a.mode.version
    else s.taskMemFault c k e u t.access.va (if e = 0x05 then a.mode.version else 0)
  if t.st ≠ .blocked .access then s
  else
    match t.access.bad with
    | some (e, u) => fail e u
    | none =>
      match s.perform a (.task c k) t.ctx (some t.asid) with
      | .done s' o => s'.updTask c k fun t => (t.complete o).ready
      | .waits s' => s'.updTask c k fun t => { t with st := .blocked .memory }
      | .busy => s
      | .bad e u => fail e u

/-- The version mode of an M-format instruction (R41); none for a reserved code, or a version register named where none
is used. -/
def loadMode (t : Task) (v : BitVec 5) (m : BitVec 2) : Option VMode :=
  match m.toNat with
  | 0 => if v = 0 then some .any else none
  | 1 => some (.eq ((t.reg v).setWidth 16))
  | 2 => some (.ge ((t.reg v).setWidth 16))
  | _ => none
def storeMode (t : Task) (v : BitVec 5) (m : BitVec 2) : Option VMode :=
  if m.toNat % 2 = 0 then (if v = 0 then some .next else none) else some (.exp ((t.reg v).setWidth 16))

/-- An M-format access of `n` bytes at gA that writes `d` (R283): a scope above 4 or no mode is BadField (R43), then a
pinned gD Recipe, subcode Pin (R247), and a misaligned address Bounds, subcode Align: the order of the last two is the model's
(log entry 166). -/
def State.taskMem (s : State) (c k : Nat) (t : Task) (d a : BitVec 5) (sc : BitVec 3) (mode : Option VMode) (n : Nat)
    (kind : AccKind) (op : Nat → AccessOp) (ret : Bool) (x : TaskAccess) : State :=
  let va := (t.reg a).toNat
  match mode with
  | none => s.taskFault c k 0x0B 0x08
  | some m =>
    if 4 < sc.toNat then s.taskFault c k 0x0B 0x08
    else
      s.writing c k t d
        (if va % n ≠ 0 then s.taskMemFault c k 0x0F 0x06 va 0
         else
           match s.taskHome c k t va kind with
           | .stop s' => s'
           | .ok (h, key) =>
             s.taskAccess c k va
               { block := h / 64, op := op (h % 64), mode := m, ret := ret, width := n, key := key,
                 tenant := s.actingTenant t.tenant t.asid, moved := n } { x with off := h % 64, size := n })

/-! ## M-format instructions (R283) -/

def execLdC (d a v : BitVec 5) (m : BitVec 2) (sc : BitVec 3) (z : BitVec 2) (_q : BitVec 1) (s : State) :
    Host.Outcome State Fault Refusal :=
  tasking s fun c k t => s.taskMem c k t d a sc (loadMode t v m) (2 ^ z.toNat) .read (fun _ => .load) false { reg := d.toNat }

def execLds (d a v : BitVec 5) (m : BitVec 2) (sc : BitVec 3) (z : BitVec 2) (_q : BitVec 1) (s : State) :
    Host.Outcome State Fault Refusal :=
  tasking s fun c k t =>
    s.taskMem c k t d a sc (loadMode t v m) (2 ^ z.toNat) .read (fun _ => .load) false { reg := d.toNat, signed := true }

/-- The bytes of a store at an offset within its block. -/
def storeOp (n : Nat) (v : Word) (off : Nat) : AccessOp := .store ((toBytes n v.toNat).zipIdx.map fun p => (off + p.2, p.1))

def execStC (d a v : BitVec 5) (m : BitVec 2) (sc : BitVec 3) (z : BitVec 2) (_q : BitVec 1) (s : State) :
    Host.Outcome State Fault Refusal :=
  tasking s fun c k t =>
    s.taskMem c k t 0 a sc (storeMode t v m) (2 ^ z.toNat) .write (storeOp (2 ^ z.toNat) (t.reg d)) (2 ≤ m.toNat) { kind := .st }

/-- The mode of an atomic: always NEXT, of 4 or 8 bytes (R283). -/
def atomMode (m z : BitVec 2) : Option VMode := if m.toNat % 2 = 0 && 2 ≤ z.toNat then some .next else none

/-- An atomic of a task (R283): `x` is the operand, `y` the word that CAS stores. -/
def State.taskAtom (s : State) (d a : BitVec 5) (m : BitVec 2) (sc : BitVec 3) (z : BitVec 2) (op : AtomOp) (x y : Task → Word) :
    Host.Outcome State Fault Refusal :=
  tasking s fun c k t =>
    s.taskMem c k t d a sc (atomMode m z) (2 ^ z.toNat) .readWrite (fun off => .atom op true [(off, x t, y t)]) (2 ≤ m.toNat)
      { reg := d.toNat, kind := .atom }

def execAadd (d a v : BitVec 5) (m : BitVec 2) (sc : BitVec 3) (z : BitVec 2) (_q : BitVec 1) (s : State) :
    Host.Outcome State Fault Refusal :=
  s.taskAtom d a m sc z .add (fun t => t.reg v) fun _ => 0

def execAmin (d a v : BitVec 5) (m : BitVec 2) (sc : BitVec 3) (z : BitVec 2) (_q : BitVec 1) (s : State) :
    Host.Outcome State Fault Refusal :=
  s.taskAtom d a m sc z .min (fun t => t.reg v) fun _ => 0

def execAmax (d a v : BitVec 5) (m : BitVec 2) (sc : BitVec 3) (z : BitVec 2) (_q : BitVec 1) (s : State) :
    Host.Outcome State Fault Refusal :=
  s.taskAtom d a m sc z .max (fun t => t.reg v) fun _ => 0

def execAxchg (d a v : BitVec 5) (m : BitVec 2) (sc : BitVec 3) (z : BitVec 2) (_q : BitVec 1) (s : State) :
    Host.Outcome State Fault Refusal :=
  s.taskAtom d a m sc z .xchg (fun t => t.reg v) fun _ => 0

/-- CAS compares with gD and stores gV. -/
def execCasC (d a v : BitVec 5) (m : BitVec 2) (sc : BitVec 3) (z : BitVec 2) (_q : BitVec 1) (s : State) :
    Host.Outcome State Fault Refusal :=
  s.taskAtom d a m sc z .cas (fun t => t.reg d) fun t => t.reg v

/-! ## RECLAIM, VWAIT, FENCE (R284) -/

/-- An instruction on the whole block of gA at scope dev. -/
def State.taskBlock (s : State) (c k : Nat) (t : Task) (a : BitVec 5) (kind : AccKind) (op : AccessOp) (mode : VMode) (x : TaskAccess) :
    State :=
  let va := (t.reg a).toNat
  match s.taskHome c k t va kind with
  | .stop s' => s'
  | .ok (h, key) =>
    s.taskAccess c k va { block := h / 64, op := op, mode := mode, key := key, tenant := s.actingTenant t.tenant t.asid, moved := 0 } x

def execReclaimC (d a b : BitVec 5) (s : State) : Host.Outcome State Fault Refusal :=
  tasking s fun c k t => s.writing c k t d
    (s.taskBlock c k t a .write (.reclaim ((t.reg b).setWidth 16)) .any { reg := d.toNat, kind := .reclaim })

def execVwaitC (d a b : BitVec 5) (s : State) : Host.Outcome State Fault Refusal :=
  tasking s fun c k t => s.writing c k t d
    (s.taskBlock c k t a .read .probe (.ge ((t.reg b).setWidth 16)) { reg := d.toNat, kind := .vwait })

/-- FENCE: a task's accesses are performed one after another (R221), so that nothing is left to order (R222). -/
def execFenceC (sc : BitVec 3) (s : State) : Host.Outcome State Fault Refusal :=
  tasking s fun c k t => if 4 < sc.toNat then s.taskFault c k 0x0B 0x08 else s.setTask c k t.retire

/-! ## Byte ranges (R286, R287, R76, R247)

An instruction that reads or stores a range does it piece by piece, each piece one access at its home (R220): `ranged`
holds the pieces reached, and the instruction runs again after each until all are there (log entry 20). -/

/-- The piece of a range at an address, if the instruction has reached it. -/
def Task.piece (t : Task) (va size : Nat) (ver : Option (BitVec 16)) : Option RangePiece :=
  t.ranged.find? fun p => p.va = va && p.size = size && p.ver = ver

/-- A piece read at ANY, or at exactly a version (R246): its bytes once performed, else the access goes to its home. -/
def State.pieceRead (s : State) (c k : Nat) (t : Task) (va size : Nat) (ver : Option (BitVec 16)) (replay : Bool) : TaskIO (List Byte) :=
  match t.piece va size ver with
  | some p => if p.done then .ok p.bytes else .stop s
  | none =>
    match s.taskHome c k t va .read with
    | .stop s' => .stop s'
    | .ok (h, key) =>
      let s := s.updTask c k fun t => { t with ranged := t.ranged ++ [{ va := va, size := size, ver := ver, home := h, key := key }] }
      .stop (s.taskAccess c k va
        { block := h / 64, op := .load, mode := match ver with
            | some n => .eq n
            | none => .any
          key := key, tenant := s.actingTenant t.tenant t.asid, moved := size }
        { kind := .range, off := h % 64, size := size, replay := replay })

/-- The pieces of n bytes from an address: one for each block. -/
def pieces : Nat → Nat → Nat → List (Nat × Nat)
  | 0, _, _ => []
  | fuel + 1, va, n =>
    if n = 0 then []
    else
      let k := min n (64 - va % 64)
      (va, k) :: pieces fuel (va + k) (n - k)

/-- The bytes of pieces, in order. -/
def State.readPieces (s : State) (c k : Nat) (t : Task) : List (Nat × Nat) → TaskIO (List Byte)
  | [] => .ok []
  | (va, n) :: rest =>
    match s.pieceRead c k t va n none false with
    | .stop s' => .stop s'
    | .ok bs =>
      match s.readPieces c k t rest with
      | .stop s' => .stop s'
      | .ok r => .ok (bs ++ r)

/-- `n` bytes at a virtual address. -/
def State.taskRead (s : State) (c k : Nat) (t : Task) (va n : Nat) : TaskIO (List Byte) :=
  s.readPieces c k t (pieces (blocksFor n) va n)

/-- The access of a piece to be stored, at NEXT. -/
def State.storeAccess (s : State) (t : Task) (p : RangePiece) (bs : List Byte) : Access :=
  { block := p.home / 64, op := .store (bs.zipIdx.map fun b => (p.home % 64 + b.2, b.1)), mode := .next, key := p.key,
    tenant := s.actingTenant t.tenant t.asid, moved := p.size }

/-- Pieces to be stored translated, before any is stored: the instruction is precise (R43). -/
def State.homePieces (s : State) (c k : Nat) : List (Nat × Nat) → TaskIO State
  | [] => .ok s
  | (va, n) :: rest =>
    let t := s.task c k
    if (t.piece va n none).isSome then s.homePieces c k rest
    else
      match s.taskHome c k t va .write with
      | .stop s' => .stop s'
      | .ok (h, key) =>
        (s.updTask c k fun t => { t with ranged := t.ranged ++ [{ va := va, size := n, home := h, key := key }] }).homePieces c k rest

/-- Bytes stored at a virtual address: every piece translated, every home asked whether it would take its piece, then one
piece after another stored. -/
def State.taskWrite (s : State) (c k : Nat) (va : Nat) (bs : List Byte) : TaskIO State :=
  match s.homePieces c k (pieces (blocksFor bs.length) va bs.length) with
  | .stop s' => .stop s'
  | .ok s =>
    let t := s.task c k
    let mine := t.ranged.filter fun p => va ≤ p.va && p.va < va + bs.length
    let acc (p : RangePiece) : Access := s.storeAccess t p (slice bs (p.va - va) p.size)
    let refused (p : RangePiece) : Option (Nat × Nat × Nat) :=
      match s.homeAct (acc p) with
      | .bad e u => some (p.va, e, u)
      | _ => none
    match mine.find? fun p => !p.done with
    | none => .ok s
    | some p =>
      match if mine.any fun q => q.done then none else (mine.filterMap refused).head? with
      | some (at_, e, u) => .stop (s.taskMemFault c k e u at_ 0)
      | none => .stop (s.taskAccess c k p.va (acc p) { kind := .range, off := p.home % 64, size := p.size })

end Sys2Proof.Machine
end

