-- ==== Sys2Proof/Machine/Recipe.lean ====
section
/-! DEFINITION. A task's recipes (R246 to R248): RTAG and RUNTAG, the replay of tagged registers after a switch, and a
core's turn (R275, R277, R290), which replays what its instruction reads. -/

namespace Sys2Proof.Machine

/-! ## Evaluation -/

/-- Whether a word may stand in a recipe that tags gD (R246). -/
def recipeWordOk (d : BitVec 5) (w : BitVec 32) : Bool :=
  match coreStep w with
  | .badOp _ => false
  | .ldC e _ _ m sc _ _ => e = d && m = 1 && sc.toNat ≤ 4
  | .lds e _ _ m sc _ _ => e = d && m = 1 && sc.toNat ≤ 4
  | i => ((recipeValue (fun _ => 0) i).isSome) && w.extractLsb' 20 5 = d

/-- Whether a recipe record obeys R246 for gD. -/
def recipeOk (d : BitVec 5) (ws : List (BitVec 32)) : Bool :=
  ((ws.take 4).takeWhile fun w => w ≠ 0).all (recipeWordOk d) && (ws.drop 4).all fun w => w = 0

/-- A recipe's LD under EQ (R246): read once, as a piece of that version, which is awaited where it is not yet there. -/
def State.recipeLoad (s : State) (c k : Nat) (t : Task) (replay signed : Bool) (va ver n : Nat) : TaskIO Word :=
  if va % n ≠ 0 then .stop (s.taskMemFault c k 0x0F 0x06 va 0)
  else
    match s.pieceRead c k t va n (some (BitVec.ofNat 16 ver)) replay with
    | .stop s' => .stop s'
    | .ok bs => .ok (({ off := 0, size := n, signed := signed } : TaskAccess).value { bytes := bs })

/-- A recipe evaluated from the registers, `prev` being the previous word's result (R246). -/
def State.evalRecipe (s : State) (c k : Nat) (t : Task) (d : BitVec 5) (replay : Bool) (prev : Word) : List Instr → TaskIO Word
  | [] => .ok prev
  | i :: is =>
    let reg (r : BitVec 5) : Word := if r = d then prev else t.reg r
    let load (signed : Bool) (a v : BitVec 5) (z : BitVec 2) : TaskIO Word :=
      s.recipeLoad c k t replay signed (reg a).toNat ((reg v).toNat % 2 ^ 16) (2 ^ z.toNat)
    let r : TaskIO Word :=
      match i with
      | .ldC _ a v _ _ z _ => load false a v z
      | .lds _ a v _ _ z _ => load true a v z
      | i => .ok ((recipeValue reg i).getD 0)
    match r with
    | .ok v => s.evalRecipe c k t d replay v is
    | .stop s' => .stop s'

/-! ## Replay (R248) -/

/-- Registers of a list that lost their values in a task switch are replayed, their own sources first. -/
def State.freshen (s : State) (c k : Nat) : Nat → List Nat → TaskIO State
  | 0, _ => .ok s
  | _, [] => .ok s
  | fuel + 1, r :: rs =>
    let t := s.task c k
    if !t.dirty.contains r then s.freshen c k fuel rs
    else
      match t.tags.find? fun g => g.1 = r with
      | none => s.freshen c k fuel rs
      | some (_, ix) =>
        let ws := t.recipes.getD ix []
        let lost := (recipeSources r ws).filter t.dirty.contains
        if !lost.isEmpty then s.freshen c k fuel (lost ++ r :: rs)
        else
          match s.evalRecipe c k t (BitVec.ofNat 5 r) true 0 (recipeInstrs ws) with
          | .stop s' => .stop s'
          | .ok v =>
            (s.updTask c k fun t => { t with regs := t.regs.set r v, dirty := t.dirty.filter fun q => q ≠ r }).freshen c k fuel rs

/-- Fuel for a replay: at most 31 registers, each met once before and once after its sources. -/
def freshenFuel : Nat := 256

/-! ## RTAG, RUNTAG (R247) -/

/-- The recipe evaluated, gD written and tagged; its sources are pinned by the tag (R247 steps 2 to 4). -/
def State.tagWith (s : State) (c k : Nat) (d : BitVec 5) (ix : Nat) (ws : List (BitVec 32)) : State :=
  if !recipeOk d ws then s.taskFault c k 0x0C 0x04
  else
    let src := recipeSources d.toNat ws
    if src.any fun r => (s.task c k).pending (BitVec.ofNat 5 r) then s.block c k .pending
    else
      match s.freshen c k freshenFuel src with
      | .stop s' => s'
      | .ok s' =>
        match s'.evalRecipe c k (s'.task c k) d false 0 (recipeInstrs (ws.take 4)) with
        | .stop s'' => s''
        | .ok v => s'.updTask c k fun t =>
          let t := t.setReg d v
          ({ t with recipes := t.recipes.set ix (ws.take 4), tags := t.tags ++ [(d.toNat, ix)] } : Task).retire

def execRtag (d a b : BitVec 5) (s : State) : Host.Outcome State Fault Refusal :=
  tasking s fun c k t =>
    let ix := (t.reg b).toNat
    if d = 0 || 8 ≤ ix then s.taskFault c k 0x0B 0x08
    else if t.pinned d.toNat then s.taskFault c k 0x0C 0x05
    else if a = 0 then s.tagWith c k d ix (t.recipes.getD ix [])
    else if t.tags.any fun g => g.2 = ix && g.1 ≠ d.toNat then s.taskFault c k 0x0C 0x05
    else
      match s.taskRead c k t (t.reg a).toNat 32 with
      | .stop s' => s'
      | .ok bs => s.tagWith c k d ix ((List.range 8).map fun i => BitVec.ofNat 32 (field bs (4 * i) 4))

/-- RUNTAG: gD keeps its value, untagged. -/
def execRuntag (d : BitVec 5) (s : State) : Host.Outcome State Fault Refusal :=
  tasking s fun c k t =>
    if d = 0 then s.taskFault c k 0x0B 0x08
    else if t.pinned d.toNat then s.taskFault c k 0x0C 0x05
    else
    match s.freshen c k freshenFuel [d.toNat] with
    | .stop s' => s'
    | .ok s' => s'.updTask c k fun _ =>
      let t := s'.task c k
      ({ t with tags := t.tags.filter fun g => g.1 ≠ d.toNat } : Task).retire

/-! ## A core's turn -/

/-- What a core's turn comes to. -/
inductive CoreTurn where
  | idle (s : State)
  | run (s : State) (i : Instr)

/-- Whether an instruction's own fields let it execute (R41, R43): a word that fails here raises BadField before any register
that it names is replayed. -/
def coreFieldsOk : Instr → Bool
  | .ldC _ _ v m sc _ _ => (loadMode {} v m).isSome && sc.toNat ≤ 4
  | .lds _ _ v m sc _ _ => (loadMode {} v m).isSome && sc.toNat ≤ 4
  | .stC _ _ v m sc _ _ => (storeMode {} v m).isSome && sc.toNat ≤ 4
  | .aadd _ _ _ m sc z _ => (atomMode m z).isSome && sc.toNat ≤ 4
  | .amin _ _ _ m sc z _ => (atomMode m z).isSome && sc.toNat ≤ 4
  | .amax _ _ _ m sc z _ => (atomMode m z).isSome && sc.toNat ≤ 4
  | .axchg _ _ _ m sc z _ => (atomMode m z).isSome && sc.toNat ≤ 4
  | .casC _ _ _ m sc z _ => (atomMode m z).isSome && sc.toNat ≤ 4
  | .fenceC sc => sc.toNat ≤ 4
  | .copyC _ _ _ _ sc _ => sc.toNat ≤ 4
  | .gatherC _ _ _ _ _ sc _ => sc.toNat ≤ 4
  | .armC _ _ _ _ sc => sc.toNat ≤ 4
  | .mmaC _ _ _ sc => sc.toNat ≤ 4
  | .aucgoC _ _ _ sc => sc.toNat ≤ 4
  | .rtag d _ _ => d ≠ 0
  | .runtag d => d ≠ 0
  | _ => true

/-- A core's turn (R275, R277, R290, R248): a new task when none runs or its quantum is over, a BLOCKED task when the
fetch line does not hold the pc or a register is pending, the replay of the tagged registers that the instruction reads,
else the instruction at the pc. -/
def State.coreTurn (s : State) (c : Nat) : CoreTurn :=
  let s := if s.quantumOver c then
      match (s.cluster c).core.running with
      | some k => (s.yieldTask c k).switchTask c
      | none => s
    else if (s.cluster c).core.running = none then s.switchTask c else s
  match (s.cluster c).core.running with
  | none => .idle s
  | some k =>
    let t := s.task c k
    match t.fetched with
    | none =>
      if t.pc.toNat % 4 ≠ 0 then .idle (s.taskFault c k 0x0F 0x06) else .idle (s.block c k .fetch)
    | some w =>
      let i := coreStep w
      if (instrRegs i).any t.pending then .idle (s.block c k .pending)
      else
        match s.freshen c k freshenFuel (if coreFieldsOk i then (instrReads i).map BitVec.toNat else []) with
        | .stop s' => .idle s'
        | .ok s' => .run { s' with focus := .task c k } i

end Sys2Proof.Machine
end

