-- ==== Sys2Proof/Machine/Loader.lean ====
section
/-! DEFINITION. Tile blocks and their checks (R44, R45, R48, R235 to R237), configuration sessions and the eight
configuration instructions (R70 to R84). -/

namespace Sys2Proof.Machine

/-! ## Tile blocks (R44, R45) -/

/-- A tile block's header (R44), as its bits stand. -/
structure BlockHead where
  nslot : Nat := 0
  npool : Nat := 0
  ntk   : Nat := 0
  ncrib : Nat := 0
  nfan  : Nat := 0
  caps  : Nat := 0
  crc   : Nat := 0
  patid : Nat := 0
  indeg : Nat := 0
  flags : Nat := 0
  deriving DecidableEq, Repr, Inhabited

/-- The header of 16 bytes. -/
def blockHead (bs : List Byte) : BlockHead :=
  let lo := field bs 0 8
  let hi := field bs 8 8
  { nslot := bits hi 63 56, npool := bits hi 55 53, ntk := bits hi 52 50, ncrib := bits hi 49 45, nfan := bits hi 44 40,
    caps := bits hi 39 32, crc := bits hi 31 0, patid := bits lo 63 32, indeg := bits lo 31 24, flags := bits lo 23 0 }

/-- Where the parts of a body start, and where the last ends (R45). -/
def BlockHead.fanAt (h : BlockHead) : Nat := 8 * h.nslot + 128
def BlockHead.maskAt (h : BlockHead) : Nat := h.fanAt + 32 * h.nfan
def BlockHead.poolAt (h : BlockHead) : Nat := h.maskAt + 4 * h.nslot
def BlockHead.tkAt (h : BlockHead) : Nat := h.poolAt + 4 * h.npool
def BlockHead.cribAt (h : BlockHead) : Nat := h.tkAt + 4 * h.ntk
def BlockHead.stop (h : BlockHead) : Nat := h.cribAt + 32 * h.ncrib
/-- Bytes of the body with its pad. -/
def BlockHead.size (h : BlockHead) : Nat := (h.stop + 15) / 16 * 16

/-- Words of n bytes of a body. -/
def wordsAt (bs : List Byte) (off n count : Nat) : List Nat := (List.range count).map fun i => field bs (off + n * i) n

/-- The eight words of each fanout list. -/
def fanWords (h : BlockHead) (bs : List Byte) : List (List Nat) :=
  (List.range h.nfan).map fun i => wordsAt bs (h.fanAt + 32 * i) 4 8

/-- The COUNT of a fanout list. -/
def fanCount (ws : List Nat) : Nat := ws.headD 0 / 2 ^ 28

/-- A block read from its header and body. -/
def blockOfBytes (h : BlockHead) (bs : List Byte) : Block :=
  { slots := (wordsAt bs 0 8 h.nslot).map fun w => BitVec.ofNat 64 w
    consts := (wordsAt bs (8 * h.nslot) 8 16).map fun w => BitVec.ofNat 64 w
    fans := (fanWords h bs).map fun ws => (ws.take (fanCount ws)).map fun w => BitVec.ofNat 18 w
    masks := (wordsAt bs h.maskAt 4 h.nslot).map fun w => BitVec.ofNat 32 w
    pools := (wordsAt bs h.poolAt 4 h.npool).map fun w => { size := 64 * (w / 2 ^ 25 + 1), count := w % 2 ^ 10 }
    tickets := (wordsAt bs h.tkAt 4 h.ntk).map fun w => w % 256
    recipes := (List.range h.ncrib).map fun i => (wordsAt bs (h.cribAt + 32 * i) 8 4).map fun w => BitVec.ofNat 64 w
    caps := h.caps, crc := h.crc, patid := h.patid, indeg := h.indeg, flags := h.flags }

/-! ## Block checks (R33, R34, R39, R44, R45) -/

/-- Whether a target may stand in a tile of local index l (R34): a class 0 or 1 target in t0 only, Dean channels 8–15 in
firmware images only. -/
def targetIn (l : Nat) (priv : Bool) (g : BitVec 18) : Bool :=
  let n := g.toNat
  targetOk g && (n / 4096 ≠ 32 ||
    (let cls := bits n 11 9
     (2 ≤ cls || l = 0) && (cls ≠ 3 || priv || bits n 5 1 < 8)))

/-- What an instruction's description asks of its constant K, given the format and NCRIB (R103, R149, R165, R182, R243,
R259, R326). -/
def constantOk (op fmt kr k ncrib : Nat) : Bool :=
  if op = 0x08 then kr = 0 || k % 16 < ncrib
  else if op = 0x18 then k < 64
  else if op = 0x3A then
    let lsb := k % 64
    let width := bits k 14 8
    k &&& 0x17F3F = k && 1 ≤ width && width ≤ 64 && lsb + width ≤ fmtBits fmt
  else if op = 0xA3 then
    let m := k % 64
    let n := bits k 14 8
    k &&& 0x7F3F = k && 1 ≤ m && m ≤ 32 && 1 ≤ n && n ≤ 64
  else if op = 0xB0 then k < 0x300
  else if op = 0xB1 || op = 0xB3 then 1 ≤ k && k ≤ fmtMaxLen fmt
  else if op = 0xBA then k ≤ 5 && (if k = 0 || k = 1 || k = 4 then fmt = 1 else fmt = 11)
  else if op = 0xC0 then k < 256
  else if op = 0xC2 then k < 12
  else true

/-- The CAPS bit an opcode needs (R11, R163, R176, R249). -/
def opCaps (op : Nat) : Nat :=
  if 0xA0 ≤ op && op ≤ 0xA5 then 8 else if 0xB0 ≤ op && op ≤ 0xB4 then 2 else if 0xB8 ≤ op && op ≤ 0xBC then 4 else 0

/-- The target fields of a slot word, and its NT, KR and KIDX. -/
def slotShape (f : SlotWord) : BitVec 2 × BitVec 18 × BitVec 18 × Nat × Nat × Nat :=
  match f with
  | .d w => (w.nt, w.t1, w.t0, w.fmt.toNat, w.kr.toNat, w.kidx.toNat)
  | .m w => (w.nt, w.t1, w.t0, w.fmt.toNat, 0, w.kidx.toNat)
  | .e w => (w.nt, w.t1, w.t0, w.fmt.toNat, 0, w.kidx.toNat)

/-- Whether a slot word may stand in a block for local tile l. -/
def slotLegal (b : Block) (l : Nat) (priv : Bool) (w : Word) : Bool :=
  let op := opcodeOf w
  let (nt, t1, t0, fmt, kr, kidx) := slotShape (unpackSlot op w)
  let egress (g : BitVec 18) : Bool := g.toNat / 4096 = 32 && bits g.toNat 11 9 = 2
  (match decodeFabric w with
   | .ok _ => true
   | .error _ => false) &&
  (priv || !(0xE0 ≤ op && op ≤ 0xE7)) &&
  (let c := opCaps op
   c = 0 || b.caps &&& c = c) &&
  (match nt.toNat with
   | 0 => true
   | 1 => targetIn l priv t0
   | 2 => targetIn l priv t0 && targetIn l priv t1
   | _ => t1.toNat < b.fans.length && (op ≠ 0x0F || (b.fans.getD t1.toNat []).all egress)) &&
  constantOk op fmt kr ((b.consts.getD kidx 0).toNat) b.recipes.length

/-- Whether a fanout list's words have only legal targets and zeros (R45). -/
def fanLegal (l : Nat) (priv : Bool) (ws : List Nat) : Bool :=
  ws.zipIdx.all fun p =>
    (if p.2 = 0 then bits p.1 27 18 = 0 else bits p.1 31 18 = 0) &&
    (if p.2 < fanCount ws then targetIn l priv (BitVec.ofNat 18 p.1) else bits p.1 17 0 = 0)

/-- Whether a recipe's word j obeys R235 to R237. -/
def recipeWordLegal (j : Nat) (w : Word) : Bool :=
  let n := w.toNat
  let op := opcodeOf w
  let fmt := bits n 55 51
  let mod := bits n 50 48
  let allowed := op = 0x01 || (0x20 ≤ op && op ≤ 0x3B) || (0x40 ≤ op && op ≤ 0x4F) || (0x60 ≤ op && op ≤ 0x68)
  let source (need : Bool) (b : Nat) : Bool :=
    let x := b % 64
    match b / 64 with
    | 0 => !need && x = 0
    | 1 => need && x < 16
    | 2 => need && x < j
    | _ => need
  let sources (n' : Nat) : Bool := source (1 ≤ n') (bits n 47 40) && source (2 ≤ n') (bits n 39 32) && source (3 ≤ n') (bits n 31 24)
  if op = 0x80 then FieldSet.isAll fmt && mod = 1 && sources 1 && bits n 7 5 ≤ 4 && bits n 4 0 = 0
  else
    match dRule op with
    | none => false
    | some r =>
      allowed && r.fmt fmt && r.mod fmt mod && mod ≠ 5 && bits n 23 0 = 0 &&
      sources (if r.kz then 3 else if r.er || r.kr = .yes then 2 else 1)

/-- Whether a recipe obeys R235 to R237: word 0 is there, and zero words follow the last. -/
def recipeLegal (ws : List Word) : Bool :=
  let used := ws.takeWhile fun w => opcodeOf w ≠ 0
  !used.isEmpty && (used.zipIdx.all fun p => recipeWordLegal p.2 p.1) && (ws.drop used.length).all fun w => w = 0

/-- The places (slot, port) that a recipe's sources of kind 11 name (R236). -/
def recipePlaces (ws : List Word) : List (Nat × Nat) :=
  ((ws.takeWhile fun w => opcodeOf w ≠ 0).flatMap fun w =>
    [bits w.toNat 47 40, bits w.toNat 39 32, bits w.toNat 31 24]).filterMap fun b =>
      if b / 64 = 3 then some (b % 64 / 2, b % 2) else none

/-- The targets of a block's STICK slots with KR = 1, whose stickies may be dropped. -/
def Block.stickTargets (b : Block) : List (BitVec 18) :=
  b.slots.flatMap fun w =>
    if opcodeOf w ≠ 0x08 then []
    else
      let (nt, t1, t0, _, kr, _) := slotShape (unpackSlot 0x08 w)
      if kr ≠ 1 then []
      else
        match nt.toNat with
        | 0 => []
        | 1 => [t0]
        | 2 => [t0, t1]
        | _ => b.fans.getD t1.toNat []

/-- Whether a STICK slot with KR = 1 of a block at one tile targets a place that a recipe of a block at another names
(R237). A special target names no tile (R34). -/
def stickClash (t : Nat) (b : Block) (u : Nat) (r : Block) : Bool :=
  b.stickTargets.any fun g =>
    g.toNat / 4096 ≠ 32 &&
    (tileX t : Int) + sval 6 (g.toNat / 4096) = tileX u && (tileY t : Int) + sval 6 (g.toNat / 64) = tileY u &&
    r.recipes.any fun ws => (recipePlaces ws).contains (bits g.toNat 5 1, g.toNat % 2)

/-- Whether a block at a tile obeys R237's last case together with the blocks that its session has staged at other tiles. -/
def Session.recipesFit (x : Session) (tile : Nat) (b : Block) : Bool :=
  !stickClash tile b tile b &&
  (x.staged.filter fun y => y.tile ≠ tile).all fun y => !stickClash tile b y.tile y.blk && !stickClash y.tile y.blk tile b

/-- The status of a block for local tile l (R76, R77): the first of Illegal, Layout and CRC that it fails, or OK. -/
def blockStatus (h : BlockHead) (bs : List Byte) (l : Nat) (priv : Bool) : Nat :=
  let b := blockOfBytes h bs
  let pools := wordsAt bs h.poolAt 4 h.npool
  let tks := wordsAt bs h.tkAt 4 h.ntk
  let legal :=
    h.caps &&& capsOf l = h.caps && bits h.flags 23 2 = 0 && ((bs.drop h.stop).all fun v => v = 0) &&
    (b.slots.all fun w => slotLegal b l priv w) && ((fanWords h bs).all fun ws => fanLegal l priv ws) &&
    (pools.all fun w => bits w 24 10 = 0) && (tks.all fun w => bits w 31 8 = 0) && b.recipes.all recipeLegal
  let layout :=
    h.nslot ≤ 32 && h.ntk ≤ 4 && h.ncrib ≤ 16 && ((fanWords h bs).all fun ws => 1 ≤ fanCount ws && fanCount ws ≤ 8) &&
    (b.pools.all fun p => p.count ≠ 0) && (b.tickets.all fun n => n ≠ 0) &&
    (b.pools.foldl (fun n p => n + p.size * p.count) 0) ≤ 32768
  if !legal then 1 else if !layout then 2 else if crc32c bs ≠ h.crc then 3 else 0

/-! ## Sessions and the placer (R70, R74, R82) -/

def State.session (s : State) (c k : Nat) : Option Session := s.dean.sessions.find? fun x => x.ofTask c k
def Session.holds (x : Session) (t : Nat) : Bool :=
  x.x0 ≤ tileX t && tileX t < x.x0 + x.w && x.y0 ≤ tileY t && tileY t < x.y0 + x.h

/-- Image header fields (R46). -/
def hdrMagic : Nat := 0x474E4158
def hdrOk (h : List Byte) : Bool := field h 0 4 = hdrMagic && field h 4 2 = 1 && bits (field h 6 2) 15 1 = 0
def hdrPriv (h : List Byte) : Bool := bit (field h 6 2) 0
def hdrWidth (h : List Byte) : Nat := field h 8 2
def hdrHeight (h : List Byte) : Nat := field h 0x0A 2
def hdrAlignX (h : List Byte) : Nat := field h 0x0C 1
def hdrAlignY (h : List Byte) : Nat := field h 0x0D 1
def hdrFixes (h : List Byte) : Nat := field h 0x16 2
def hdrLength (h : List Byte) : Nat := field h 0x1C 4
def hdrFixAt (h : List Byte) : Nat := field h 0x24 4

/-- The header bytes that the placer uses. -/
def hdrBytes : Nat := 40

/-- Whether an origin meets ALIGNX and ALIGNY. -/
def aligned (h : List Byte) (x y : Nat) : Bool :=
  (hdrAlignX h = 0xFF || x % 4 = hdrAlignX h) && (hdrAlignY h = 0xFF || y % 4 = hdrAlignY h)

/-- Whether every tile of a rectangle is FREE. -/
def State.rectFree (s : State) (x0 y0 w h : Nat) : Bool :=
  (List.range h).all fun j => (List.range w).all fun i =>
    let t := tileOf (x0 + i) (y0 + j)
    !s.fused t && (s.tile t).status = .free

/-- Whether two rectangles of tiles reach into one cluster. -/
def clustersMeet (x y w h x' y' w' h' : Nat) : Bool :=
  x / 4 ≤ (x' + w' - 1) / 4 && x' / 4 ≤ (x + w - 1) / 4 && y / 4 ≤ (y' + h' - 1) / 4 && y' / 4 ≤ (y + h - 1) / 4

/-- Whether a rectangle shares a cluster, and so its control core, with another tenant's image or session (R339; log
entry 151). -/
def State.strangers (s : State) (tenant x y w h : Nat) : Bool :=
  (s.dean.regions.any fun r => r.tenant ≠ tenant && clustersMeet x y w h r.x0 r.y0 r.w r.h) ||
  s.dean.sessions.any fun z =>
    let t := s.task z.cluster z.task
    s.actingTenant t.tenant t.asid ≠ tenant && clustersMeet x y w h z.x0 z.y0 z.w z.h

/-- The tenant for whom a task places an image. -/
def State.placer (s : State) (c k : Nat) : Nat := s.actingTenant (s.task c k).tenant (s.task c k).asid

/-- The origins that the search of R82 examines, in its order: ascending y0, then x0, aligned as the image asks. -/
def origins (h : List Byte) : List (Nat × Nat) :=
  let w := hdrWidth h
  let n := hdrHeight h
  if w = 0 || 128 < w || n = 0 || 64 < n then []
  else ((List.range (65 - n)).flatMap fun y => (List.range (129 - w)).map fun x => (x, y)).filter fun p => aligned h p.1 p.2

/-- The search of R82 for a tenant: the first origin whose rectangle is FREE, in clusters that no other tenant shares (R339). -/
def State.search (s : State) (tenant : Nat) (h : List Byte) : Option (Nat × Nat) :=
  (origins h).find? fun p =>
    s.rectFree p.1 p.2 (hdrWidth h) (hdrHeight h) && !s.strangers tenant p.1 p.2 (hdrWidth h) (hdrHeight h)

/-- How many origins a task's search examines (R371). -/
def State.examined (s : State) (tenant : Nat) (h : List Byte) : Nat :=
  match s.search tenant h with
  | some p => (origins h).findIdx (fun q => q = p) + 1
  | none => (origins h).length

/-- PLACE's gD on success (R82). -/
def packRect (x0 y0 w h : Nat) : Nat := x0 + 2 ^ 8 * y0 + 2 ^ 16 * w + 2 ^ 24 * h

/-- PLACE's gD on failure (R82). -/
def placeFailed (status : Nat) : Nat := 2 ^ 63 + status

/-- A session opened for a task, with its rectangle RESERVED. -/
def State.openSession (s : State) (c k addr : Nat) (h : List Byte) (x0 y0 w n : Nat) : State :=
  let s := (s.rectTiles x0 y0 w n).foldl (fun (z : State) t => z.updTile t fun x => { x with status := .reserved }) s
  s.setDean { s.dean with sessions := s.dean.sessions ++
    [{ cluster := c, task := k, addr := addr, header := h, x0 := x0, y0 := y0, w := w, h := n }] }

/-- PLACE in search mode for a task, given the header (R82): gD and the new state. -/
def State.placeSearch (s : State) (c k addr : Nat) (h : List Byte) : Nat × State :=
  if !hdrOk h then (placeFailed 0x02, s)
  else
    match s.search (s.placer c k) h with
    | none => (placeFailed 0x14, s)
    | some (x, y) =>
      (packRect x y (hdrWidth h) (hdrHeight h), s.openSession c k addr h x y (hdrWidth h) (hdrHeight h))

/-- The status of a fixed rectangle packed as PLACE's gA, for an image's header: the checks in the order OffDie, Align,
Occupied (R82), a rectangle that shares a cluster with another tenant among the last (R339; log entry 151). -/
def State.fixedStatus (s : State) (tenant v : Nat) (h : List Byte) : Nat :=
  let x := bits v 6 0
  let y := bits v 13 8
  let w := bits v 23 16
  let n := bits v 30 24
  if w = 0 || 128 < w || n = 0 || 64 < n || 128 < x + w || 64 < y + n || w < hdrWidth h || n < hdrHeight h then 0x17
  else if !aligned h x y then 0x16
  else if ((s.rectTiles x y w n).any fun t => (s.tile t).status ≠ .free) || s.strangers tenant x y w n then 0x15
  else 0

/-- PLACE in fixed mode (R82). -/
def State.placeFixed (s : State) (c k addr v : Nat) (h : List Byte) : Nat × State :=
  let x := bits v 6 0
  let y := bits v 13 8
  let w := bits v 23 16
  let n := bits v 30 24
  let st := s.fixedStatus (s.placer c k) v h
  if st ≠ 0 then (placeFailed st, s) else (packRect x y w n, s.openSession c k addr h x y w n)

/-! ## The instructions (R75 to R84) -/

/-- Router hops between the clusters of the torus, each way round the shorter one (R330). -/
def clusterHops (c d : Nat) : Nat :=
  let ring (n a b : Nat) : Nat := min ((a + n - b) % n) ((b + n - a) % n)
  ring 32 (c % 32) (d % 32) + ring 16 (c / 32) (d / 32)

/-- Router hops from a core's cluster to the farthest of some tiles. -/
def farthest (c : Nat) (ts : List Nat) : Nat := (ts.map fun t => clusterHops c (clusterOf t)).foldl max 0

/-- The tiles of a session's rectangle, FUSED ones too. -/
def Session.tiles (x : Session) : List Nat :=
  (List.range x.h).flatMap fun j => (List.range x.w).map fun i => tileOf (x.x0 + i) (x.y0 + j)

/-- The cycles of an instruction on a session's rectangle (R371). -/
def Session.cycles (x : Session) (c : Nat) : Nat := 40 + x.w * x.h + 3 * farthest c x.tiles

/-- A configuration instruction (R75): Protection, subcode Cfg, without the CFG bit. `f` answers gD, the new state, and the
cycles of R371. -/
def configuring (s : State) (d : BitVec 5) (f : Nat → Nat → Task → TaskIO (Nat × State × Nat)) : Host.Outcome State Fault Refusal :=
  tasking s fun c k t =>
    if !t.cfg then s.taskFault c k 0x07 0x07
    else s.writing c k t d
      (match f c k t with
       | .stop s' => s'
       | .ok (v, s', n) => s'.answer c k d (BitVec.ofNat 64 v) n)

/-- A block read from memory: its header and its body (R76). -/
def State.readBlock (s : State) (c k : Nat) (t : Task) (va : Nat) : TaskIO (BlockHead × List Byte) :=
  match s.taskRead c k t va 16 with
  | .stop s' => .stop s'
  | .ok hb =>
    let h := blockHead hb
    match s.taskRead c k t (va + 16) h.size with
    | .stop s' => .stop s'
    | .ok bs => .ok (h, bs)

/-- A route-fix record (R47). -/
structure RouteFix where
  x     : Nat
  y     : Nat
  kind  : Nat
  index : Nat
  sub   : Nat
  lsb   : Nat
  deriving DecidableEq, Repr

/-- The image's route-fix records (R47). -/
def State.readFixes (s : State) (c k : Nat) (t : Task) (x : Session) : TaskIO (List RouteFix) :=
  let n := hdrFixes x.header
  if n = 0 then .ok []
  else
    match s.taskRead c k t (x.addr + hdrFixAt x.header) (8 * n) with
    | .stop s' => .stop s'
    | .ok bs =>
      .ok ((List.range n).map fun i =>
        let f (j : Nat) : Nat := field bs (8 * i + j) 1
        { x := f 0, y := f 1, kind := f 2, index := f 3, sub := f 4, lsb := f 5 })

/-- A block staged at a tile of a session (R77), with the route-fix records of its place, replacing an earlier one. -/
def State.stage (s : State) (c k tile rx ry : Nat) (h : BlockHead) (bs : List Byte) (fixes : List RouteFix) : State :=
  let mine := (fixes.filter fun f => f.x = rx && f.y = ry).map fun f => (f.kind, f.index, f.sub, f.lsb)
  let new : Staged := { tile := tile, blk := blockOfBytes h bs, crc := crc32c bs, fixes := mine }
  let add (x : Session) : Session :=
    if x.ofTask c k then { x with staged := (x.staged.filter fun y => y.tile ≠ tile) ++ [new] } else x
  s.setDean { s.dean with sessions := s.dean.sessions.map add }

/-- The checks of a tile that come before a block is read (R77): NotReserved, Fused, and the alignment of the address. -/
def State.placeStatus (s : State) (x : Session) (px py va : Nat) : Nat :=
  if !(px < 128 && py < 64 && x.holds (tileOf px py)) then 0x10
  else if s.fused (tileOf px py) then 0x11
  else if va % 16 ≠ 0 then 0x02
  else 0

/-- The checks of a block at a tile (R77), and the last case of R237 against what its session has staged (log entry 142). -/
def Session.blockFits (x : Session) (px py : Nat) (h : BlockHead) (bs : List Byte) : Nat :=
  if !x.recipesFit (tileOf px py) (blockOfBytes h bs) then 1
  else blockStatus h bs (localOf (tileOf px py)) (hdrPriv x.header)

/-- CFGW (R77). gA's reserved bits are checked once the session is found, before the tile (log entry 143). -/
def execCfgw (d a b : BitVec 5) (s : State) : Host.Outcome State Fault Refusal :=
  configuring s d fun c k t =>
    let v := (t.reg a).toNat
    let va := (t.reg b).toNat
    let px := bits v 6 0
    let py := bits v 13 8
    let n := 40 + 3 * farthest c [tileOf px py]
    match s.session c k with
    | none => .ok (0x12, s, n)
    | some x =>
      if v &&& 0x3F7F3F7F ≠ v then .ok (0x02, s, n)
      else if s.placeStatus x px py va ≠ 0 then .ok (s.placeStatus x px py va, s, n)
      else
        match s.readBlock c k t va with
        | .stop s' => .stop s'
        | .ok (h, bs) =>
          let st := x.blockFits px py h bs
          let n := n + (16 + bs.length) / 16
          if st ≠ 0 then .ok (st, s, n)
          else
            match s.readFixes c k t x with
            | .stop s' => .stop s'
            | .ok fx => .ok (0, s.stage c k (tileOf px py) (bits v 22 16) (bits v 29 24) h bs fx, n)

/-- CFGMC's gD at the tile that stops it (R78). -/
def mcStopped (st px py : Nat) : Nat := st + 2 ^ 8 * (px % 128) + 2 ^ 16 * (py % 64)

/-- CFGMC's tiles in order (R78), each as CFGW writes it, up to the first whose status is not OK: gD and the state. -/
def State.writeTiles (c k va : Nat) (h : BlockHead) (bs : List Byte) (fixes : List RouteFix) :
    State → List (Nat × Nat) → Nat × State
  | s, [] => (0, s)
  | s, (px, py) :: ps =>
    match s.session c k with
    | none => (0x12, s)
    | some x =>
      let st := if s.placeStatus x px py va ≠ 0 then s.placeStatus x px py va else x.blockFits px py h bs
      if st ≠ 0 then (mcStopped st px py, s)
      else State.writeTiles c k va h bs fixes (s.stage c k (tileOf px py) (px - x.x0) (py - x.y0) h bs fixes) ps

/-- The dies' tiles of CFGMC's rectangles, in the order that R78 gives. -/
def mcTiles (rects : List (Nat × Nat × Nat × Nat)) : List (Nat × Nat) :=
  rects.flatMap fun r => (tagsOf r.2.1 (r.2.2.2 + 1)).flatMap fun y => (tagsOf r.1 (r.2.2.1 + 1)).map fun x => (x, y)

/-- CFGMC's rectangle list (R78): its rectangles, or none where it is malformed. -/
def State.mcList (s : State) (c k : Nat) (t : Task) (at_ : Nat) : TaskIO (Option (List (Nat × Nat × Nat × Nat))) :=
  match s.taskRead c k t at_ 4 with
  | .stop s' => .stop s'
  | .ok w =>
    let n := field w 0 4
    if n = 0 || 64 < n then .ok none
    else
      match s.taskRead c k t (at_ + 4) (4 * n) with
      | .stop s' => .stop s'
      | .ok list =>
        let rects := (List.range n).map fun i =>
          (field list (4 * i) 1, field list (1 + 4 * i) 1, field list (2 + 4 * i) 1, field list (3 + 4 * i) 1)
        .ok (if rects.any fun r => r.2.2.1 < r.1 || r.2.2.2 < r.2.1 then none else some rects)

/-- How many of its tiles CFGMC writes when its status is v. -/
def mcWritten (v : Nat) (tiles : List (Nat × Nat)) : Nat :=
  if v = 0 then tiles.length else tiles.findIdx fun p => p.1 % 128 = bits v 14 8 && p.2 % 64 = bits v 21 16

/-- CFGMC's writes over its tiles: the block and the route-fix records are read once, when the first tile asks for them. -/
def State.mcWrite (s : State) (c k : Nat) (t : Task) (x : Session) (va : Nat) (tiles : List (Nat × Nat)) : TaskIO (Nat × State × Nat) :=
  let p := tiles.headD (0, 0)
  let n := 40 + 3 * farthest c (tiles.map fun p => tileOf p.1 p.2)
  if s.placeStatus x p.1 p.2 va ≠ 0 then .ok (mcStopped (s.placeStatus x p.1 p.2 va) p.1 p.2, s, n)
  else
    match s.readBlock c k t va with
    | .stop s' => .stop s'
    | .ok (h, bs) =>
      let st := x.blockFits p.1 p.2 h bs
      let n := n + (16 + bs.length) / 16
      if st ≠ 0 then .ok (mcStopped st p.1 p.2, s, n)
      else
        match s.readFixes c k t x with
        | .stop s' => .stop s'
        | .ok fx =>
          let z := State.writeTiles c k va h bs fx s tiles
          .ok (z.1, z.2, n + mcWritten z.1 tiles)

/-- CFGMC (R78): without a session its status is NoSession with x and y zero, and the list is not read; a tile off the die
is NotReserved, with its coordinates in their fields' width (log entry 144). -/
def execCfgmc (d a b : BitVec 5) (s : State) : Host.Outcome State Fault Refusal :=
  configuring s d fun c k t =>
    match s.session c k with
    | none => .ok (0x12, s, 40)
    | some x =>
      match s.mcList c k t (t.reg a).toNat with
      | .stop s' => .stop s'
      | .ok none => .ok (0x02, s, 40)
      | .ok (some rects) => s.mcWrite c k t x (t.reg b).toNat (mcTiles rects)

/-- CFGCRC (R79). The bits of gA outside x and y play no part (log entry 145). -/
def execCfgcrc (d a : BitVec 5) (s : State) : Host.Outcome State Fault Refusal :=
  configuring s d fun c k t =>
    let v := (t.reg a).toNat
    let tile := tileOf (bits v 6 0) (bits v 13 8)
    let n := 40 + 3 * farthest c [tile]
    match (s.session c k).bind fun x => x.staged.find? fun y => y.tile = tile with
    | some y => .ok (y.crc, s, n)
    | none => .ok (0xFFFFFFFF00000000, s, n)

/-- A constant's field of n bits from bit `lsb` raised by v (R80). -/
def addField (k lsb n v : Nat) : Nat :=
  let old := k / 2 ^ lsb % 2 ^ n
  (k - old * 2 ^ lsb + (old + v) % 2 ^ n * 2 ^ lsb) % 2 ^ 64

/-- A staged block with its route fixes of KIND 2 to 4 applied (R80). -/
def Staged.fixed (x : Staged) (x0 y0 : Nat) : Block :=
  let consts := x.fixes.foldl (fun (ks : List Word) f =>
    let (kind, ix, _, lsb) := f
    let put (n v : Nat) : List Word := ks.set ix (BitVec.ofNat 64 (addField (ks.getD ix 0).toNat lsb n v))
    match kind with
    | 2 => put 7 x0
    | 3 => put 6 y0
    | 4 => put 9 (y0 / 4 * 32 + x0 / 4)
    | _ => ks) x.blk.consts
  { x.blk with consts := consts }

/-- A tile that takes a staged block (R80). At a matrix result port pool7 is free too. -/
def State.commitTile (s : State) (x : Session) (y : Staged) : State :=
  let b := y.fixed x.x0 x.y0
  let s := s.updTile y.tile fun z => { z with block := some b, pools := b.freshPools, tickets := b.freshTickets }
  let c := clusterOf y.tile
  if localOf y.tile = 15 then
    s.setArray c { (s.cluster c).array with pool := ({} : MArray).pool } else s

/-- A task of an image created in its cluster's core (R276): in a FREE context, or once one is free (R15); none where the
record names no cluster of the region. -/
def State.imageTask (s : State) (r : Region) (n : Nat) : State :=
  let at_ := field r.bytes 0x94 4 + 16 * n
  let cx := r.x0 / 4 + field r.bytes at_ 1
  let cy := r.y0 / 4 + field r.bytes (at_ + 1) 1
  let c := cy * 32 + cx
  if 32 ≤ cx || 16 ≤ cy || !(s.regionClusters r).contains c then s
  else
    let core := (s.cluster c).core
    (s.setCore c { core with imageWait := core.imageWait ++ [{ x0 := r.x0, y0 := r.y0, n := n }] }).grantContext c

/-- The entry records of an image as (x, y, slot, port) (R46). -/
def entriesOf (bs : List Byte) : List (Nat × Nat × Nat × Nat) :=
  (List.range (min 8 (field bs 0x18 1))).map fun i =>
    let e := field bs (0x30 + 4 * i) 4
    (bits e 31 25, bits e 24 19, bits e 18 14, bits e 13 13)

/-- The stages of an image (R46), replica 0 of each active (R302). -/
def stagesOf (bs : List Byte) : List Stage :=
  (List.range (min 8 (field bs 0x19 1))).map fun i =>
    let at_ := 0x50 + 8 * i
    { x0 := field bs at_ 1, y0 := field bs (at_ + 1) 1, x1 := field bs (at_ + 2) 1, y1 := field bs (at_ + 3) 1,
      nrep := field bs (at_ + 4) 1, inpool := field bs (at_ + 5) 1 }

/-- CFGCOM's effect on a session, given the image's bytes (R80). -/
def State.commit (s : State) (x : Session) (tenant asid : Nat) (bytes : List Byte) : State :=
  let ts := s.rectTiles x.x0 x.y0 x.w x.h
  let s := ts.foldl (fun z t => z.takeTile tenant t) s
  -- a tile of the rectangle that received no block holds none
  let s := ts.foldl (fun (z : State) t => z.updTile t fun y => { y with status := .resident, block := none, pools := [], tickets := [] }) s
  let s := x.staged.foldl (fun z y => z.commitTile x y) s
  let r : Region :=
    { image := field bytes 0x10 4, tenant := tenant, asid := asid, priv := hdrPriv x.header, x0 := x.x0, y0 := x.y0, w := x.w,
      h := x.h, bytes := bytes, entries := entriesOf bytes, stages := stagesOf bytes, progress := s.cycle,
      lastStart := s.cycle }
  let s := s.setDean { s.dean with regions := (s.dean.regions.filter fun z => !z.moving) ++ r :: s.dean.regions.filter fun z => z.moving,
                                   sessions := s.dean.sessions.filter fun y => !y.ofTask x.cluster x.task }
  (List.range (field bytes 0x1B 1)).foldl (fun z n => z.imageTask r n) s

/-- CFGCOM (R80): the image's bytes, which the Dean keeps from then on (R310), are read in the same step, so that a fault on
any of its pages faults the task (log entry 146). -/
def execCfgcom (d : BitVec 5) (s : State) : Host.Outcome State Fault Refusal :=
  configuring s d fun c k t =>
    match s.session c k with
    | none => .ok (placeFailed 0x12, s, 40)
    | some x =>
      match s.taskRead c k t x.addr (hdrLength x.header) with
      | .stop s' => .stop s'
      | .ok bs => .ok (x.staged.length, s.commit x (s.actingTenant t.tenant t.asid) t.asid bs, x.cycles c)

/-- CFGRB (R81). -/
def execCfgrb (d : BitVec 5) (s : State) : Host.Outcome State Fault Refusal :=
  configuring s d fun c k _ =>
    match s.session c k with
    | none => .ok (0, s, 40)
    | some x => .ok (x.staged.length, s.rollback c k, x.cycles c)

/-- PLACE (R82): SessionOpen comes before the header is read, and the header's own checks before those of gA; of the header
the 40 bytes that the placer uses are read (log entry 147). Of the requests that reach the placer in one cycle it serves
one of a lower cluster index first (R74): such a request that comes after a served one is there a cycle later. -/
def execPlace (d a b : BitVec 5) (s : State) : Host.Outcome State Fault Refusal :=
  configuring s d fun c k t =>
    let v := (t.reg a).toNat
    let va := (t.reg b).toNat
    let served (z : State) : State := z.setDean { z.dean with placedAt := s.cycle, placedBy := c }
    if s.dean.placedAt = s.cycle && c < s.dean.placedBy then .stop s
    else if (s.session c k).isSome then .ok (placeFailed 0x13, s, 40)
    else
      match s.taskRead c k t va hdrBytes with
      | .stop s' => .stop s'
      | .ok h =>
        if !hdrOk h then .ok (placeFailed 0x02, s, 40)
        else if bit v 63 then
          if v &&& 0x800000007FFF3F7F ≠ v then .ok (placeFailed 0x02, s, 40)
          else
            let z := (served s).placeFixed c k va v h
            .ok (z.1, z.2, 40)
        else if v ≠ 0 then .ok (placeFailed 0x02, s, 40)
        else
          let z := (served s).placeSearch c k va h
          .ok (z.1, z.2, 40 + s.examined (s.placer c k) h)

/-- FUSEQ (R83). -/
def State.fuseRow (s : State) (v : Nat) : Nat :=
  ((List.range 64).filter fun i => s.fused (tileOf (64 * bits v 6 6 + i) (v % 64))).foldl (fun n i => n + 2 ^ i) 0

def execFuseq (d a : BitVec 5) (s : State) : Host.Outcome State Fault Refusal :=
  tasking s fun c k t => s.writing c k t d (s.answer c k d (BitVec.ofNat 64 (s.fuseRow (t.reg a).toNat)) 4)

/-- SIGCHK's result on an image's bytes under a key slot (R84). -/
def State.sigStatus (s : State) (bs : List Byte) (slot : Nat) : Nat :=
  let digest := BitVec.ofNat 256 (ofBytesBE (slice bs 0xA0 32))
  if sm3 (patch bs 0xA0 (List.replicate 96 0)) ≠ digest then 1
  else if !assocHas s.dean.vkeys slot then 3
  else if sm2Verify (assocGet 0 s.dean.vkeys slot) digest (ofBytesBE (slice bs 0xC0 32)) (ofBytesBE (slice bs 0xE0 32)) then 0
  else 2

/-- SIGCHK (R84). -/
def execSigchk (d a b : BitVec 5) (s : State) : Host.Outcome State Fault Refusal :=
  tasking s fun c k t => s.writing c k t d
    (let va := (t.reg a).toNat
     let give (v n : Nat) : State := s.answer c k d (BitVec.ofNat 64 v) (20000 + n / 2)
     match s.taskRead c k t va 32 with
     | .stop s' => s'
     | .ok h =>
       if field h 0 4 ≠ hdrMagic || field h 0x1C 4 < 256 then give 4 0
       else
         match s.taskRead c k t (va + 32) (field h 0x1C 4 - 32) with
         | .stop s' => s'
         | .ok bs => give (s.sigStatus (h ++ bs) ((t.reg b).toNat % 8)) (field h 0x1C 4))

end Sys2Proof.Machine
end

