-- ==== Sys2Proof/Machine/PoolInstr.lean ====
section
/-! DEFINITION. The pool and ticket instructions (R121 to R124) and the crib's RECALL and DROP (R243, R244) as a tile
fires them. -/

namespace Sys2Proof.Machine

/-- A run after R96 with its elements as they then stand. -/
def Token.withLanes (a : Token) (xs : List (Option Nat)) : Token :=
  { a with act := .normal, mask := BitVec.ofNat 32 (maskOf xs), data := xs.map fun v => BitVec.ofNat 64 (v.getD 0) }

/-- A pool instruction's firing (R122): FAULT operands pass, R96 applies on each port used, and with no element on l the
result follows R97; else `body` gets L and Rt as R96 leaves them, and L's lowest present element. -/
def State.onPool (s : State) (t : Nat) (p : Pairing) (w : DWord) (two : Bool) (out : Fmt)
    (body : State → List (Nat × BitVec 18) → Token → Token → Nat → State) : State :=
  let ts := s.targets t w.nt w.t1 w.t0
  let l := p.left
  let r := p.right
  let s := s.hold t 1
  if l.act = .fault then s.passFault t p ts out l
  else if two && r.act = .fault then s.passFault t p ts out r
  else
    let k15 := s.konst t 15
    let side (a : Token) (pol : Nat) := packSide pol (k15 % 2 ^ fmtBits a.fmt.toNat) a
    match side l w.el.toNat, if two then side r w.er.toNat else .ok ([], false) with
    | .error i, .error j => s.emptyFault t p ts out (p.itag.toNat + min i j)
    | .error i, _ => s.emptyFault t p ts out (p.itag.toNat + i)
    | _, .error i => s.emptyFault t p ts out (p.itag.toNat + i)
    | .ok (xs, f), .ok (ys, _) =>
      match xs.filterMap id with
      | [] => s.emitRes t p ts f { fmt := out, vals := xs }
      | h :: _ => body s ts (l.withLanes xs) (r.withLanes ys) h

/-- An operation of a pairing. -/
def poolOpOf (t : Nat) (p : Pairing) (w : DWord) (act : PoolAct) (name : Nat) (l : Token) : PoolOp :=
  { act := act, src := t, slot := p.slot, ctx := p.ctx, itag := p.itag, handle := BitVec.ofNat 32 name, fmt := w.fmt,
    nt := w.nt, l := l }

/-- A request whose trigger rests in the tile until its grant (R113). -/
def State.request (s : State) (t : Nat) (o : PoolOp) : State :=
  let id := (s.tile t).nextId
  (s.updTile t fun x => x.addEntry .trigger o.l s.cycle).sendOp { o with trig := id }

def execAlloc (w : DWord) (s : State) : Host.Outcome State Fault Refusal :=
  firing s fun t p => s.onPool t p w false 11 fun s _ l _ _ =>
    s.request t (poolOpOf t p w .alloc (s.konst t w.kidx.toNat) l)

def execTicket (w : DWord) (s : State) : Host.Outcome State Fault Refusal :=
  firing s fun t p => s.onPool t p w false p.left.fmt fun s _ l _ _ =>
    s.request t (poolOpOf t p w .ticket (s.konst t w.kidx.toNat) l)

def execRetn (w : DWord) (s : State) : Host.Outcome State Fault Refusal :=
  firing s fun t p => s.onPool t p w false p.left.fmt fun s _ l _ _ =>
    s.sendOp (poolOpOf t p w .retn (s.konst t w.kidx.toNat) l)

def execPoolq (w : DWord) (s : State) : Host.Outcome State Fault Refusal :=
  firing s fun t p => s.onPool t p w false 11 fun s _ l _ _ =>
    s.sendOp (poolOpOf t p w .poolq (s.konst t w.kidx.toNat) l)

/-- GIVE: the count K[7:0] is checked before the step at the pool's tile. -/
def execGive (w : DWord) (s : State) : Host.Outcome State Fault Refusal :=
  firing s fun t p => s.onPool t p w false p.left.fmt fun s ts l _ h =>
    let c := s.konst t w.kidx.toNat % 256
    if c = 0 || 15 < c then
      s.slotFault t p.slot p.ctx ts l.fmt p.itag p.len p.itag.toNat 0x0B 0x01 (h % 2 ^ 32) 0 0
    else s.sendOp (poolOpOf t p w (.give c) h l)

def execRelease (w : DWord) (s : State) : Host.Outcome State Fault Refusal :=
  firing s fun t p => s.onPool t p w true p.left.fmt fun s _ l _ h => s.sendOp (poolOpOf t p w .release h l)

/-- TST: Rt's format is checked before the step at the pool's tile. -/
def execTst (w : DWord) (s : State) : Host.Outcome State Fault Refusal :=
  firing s fun t p => s.onPool t p w true p.left.fmt fun s ts l r h =>
    if r.fmt ≠ w.fmt then
      s.slotFault t p.slot p.ctx ts l.fmt p.itag p.len p.itag.toNat 0x0B 0x02 (h % 2 ^ 32) 0 0
    else
      let off := if w.kidx = 0 then 0 else s.konst t w.kidx.toNat
      s.sendOp { poolOpOf t p w .tst h l with offset := off, r := r }

def execTld (w : DWord) (s : State) : Host.Outcome State Fault Refusal :=
  firing s fun t p => s.onPool t p w false w.fmt fun s _ l _ h =>
    let off := if w.kr = 1 then s.konst t w.kidx.toNat else 0
    s.sendOp { poolOpOf t p w .tld h l with offset := off }

/-! ## RECALL and DROP (R244) -/

/-- RECALL: K[4:0] names a slot and K[5] a port; L leaves once the replays asked for have been admitted or have
faulted. -/
def execRecall (w : DWord) (s : State) : Host.Outcome State Fault Refusal :=
  firing s fun t p => s.onLeft t p w p.left.fmt fun s ts z =>
    let slot := z.k % 32
    let port := z.k / 32 % 2
    let x := s.tile t
    let ids := (x.drops.filter fun d =>
      d.poisoned.isNone && !d.purged && d.tok.ctx = p.ctx && d.tok.slot = slot && d.tok.port = port &&
        agrees (s.tagMask t slot) d.tok.lo p.itag.toNat).map fun d => d.id
    if ids.isEmpty then s.emitRes t p ts z.fwd (z.asL z.x)
    else
      s.setTile t { x with recalls := x.recalls ++ [(p, ids)],
                           replayQ := x.replayQ ++ ids.filter fun i => !x.replayQ.contains i }

/-- Droppable stickies of a context dropped in the order of R90, until none is left or the records run out. -/
def Tile.dropAll (c : Nat) : Nat → Tile → Tile
  | 0, x => x
  | fuel + 1, x =>
    match x.dropNext (some c) with
    | none => x
    | some e => Tile.dropAll c fuel (x.dropEntry e)

/-- DROP: every droppable sticky of the context becomes a record, then L leaves. -/
def execDrop (w : DWord) (s : State) : Host.Outcome State Fault Refusal :=
  firing s fun t p => s.onLeft t p w p.left.fmt fun s ts z =>
    (s.updTile t fun x => Tile.dropAll p.ctx Config.matchEntries x).emitRes t p ts z.fwd (z.asL z.x)

end Sys2Proof.Machine
end

