-- ==== Sys2Proof/Machine/DeanOps.lean ====
section
/-! DEFINITION. The privileged fabric instructions (R305 to R307), with the operations they share with the Dean's launches
and commands: a context's start, attendance reports (R344, R345) and key slots (R342, R343). -/

namespace Sys2Proof.Machine

/-! ## The Dean's memory accesses -/

/-- A range read at ANY or stored at NEXT under an ASID, block by block, each page by a walk of its own. -/
def State.deanRange (asid tenant : Nat) (priv store : Bool) (s : State) (va : Nat) :
    Nat → List Byte → Except (Nat × Nat) (List Byte × State)
  | 0, _ => .ok ([], s)
  | fuel + 1, bs =>
    if bs.isEmpty then .ok ([], s)
    else
      let act := s.actingTenant tenant asid
      match s.translateNow asid tenant va (if store then .write else .read) priv false with
      | .bad c u => .error (c, u)
      | .miss => .error (0x06, 0x02)
      | .home h =>
        match s.keyFor act h with
        | none => .error (0x07, 0x0C)
        | some key =>
          let n := min bs.length (64 - h % 64)
          let op : AccessOp := if store then .store ((bs.take n).zipIdx.map fun p => (h % 64 + p.2, p.1)) else .load
          let a : Access := { block := h / 64, op := op, mode := if store then .next else .any, key := key, tenant := act, moved := n }
          match s.actNow a with
          | .done s' o =>
            match State.deanRange asid tenant priv store (s'.afterAccess a) (va + n) fuel (bs.drop n) with
            | .ok (r, s'') => .ok (slice o.bytes (h % 64) n ++ r, s'')
            | .error e => .error e
          | .bad c u => .error (c, u)
          | _ => .error (0x07, 0x06)

/-- Bytes read, and bytes stored, by a firing or the Dean at a virtual address. -/
def State.deanRead (s : State) (asid tenant : Nat) (priv : Bool) (va n : Nat) : Except (Nat × Nat) (List Byte × State) :=
  State.deanRange asid tenant priv false s va (blocksFor n) (List.replicate n 0)
def State.deanWrite (s : State) (asid tenant : Nat) (priv : Bool) (va : Nat) (bs : List Byte) :
    Except (Nat × Nat) (List Byte × State) :=
  State.deanRange asid tenant priv true s va (blocksFor bs.length) bs

/-! ## A firing of the Dean's engine (R305, R307) -/

/-- A fault (R307): a record in the Dean's own fault area, and a FAULT token in place of the result, which is L or a run of
`len` elements (R314). -/
def State.deanFail (s : State) (t : Nat) (p : Pairing) (ts : List (Nat × BitVec 18)) (out : Fmt) (c u address : Nat)
    (len : Nat := p.len) : State :=
  let (s, n) := s.deanFault (s.slotRecord t p.slot p.ctx p.itag.toNat c u address 0 0)
  s.emit t p.slot p.ctx p.itag.toNat (toAll ts (faultToken out p.ctx p.itag len c u false 0 n))

/-- The firing of a privileged instruction whose l run has `len` elements: a run of another shape is Illegal, subcode
Format; one that R96 leaves with an absent element gives the absent result of R97. `own`: the result is a run of its own,
of one element. -/
def State.deanFire (s : State) (t : Nat) (p : Pairing) (w : DWord) (len : Nat) (out : Fmt) (own : Bool)
    (body : State → List (Nat × BitVec 18) → Token → State) : State :=
  s.onLeft t p w out fun s ts z =>
    if z.l.fmt ≠ w.fmt || z.l.len ≠ len then s.deanFail t p ts out 0x0B 0x02 0 (if own then 1 else p.len)
    else if z.x.any Option.isNone then s.emitRes t p ts z.fwd { fmt := out, vals := List.replicate p.len none }
    else body s ts (z.l.withLanes z.x)

/-- L emitted to the targets. -/
def State.emitL (s : State) (t : Nat) (p : Pairing) (ts : List (Nat × BitVec 18)) (l : Token) : State :=
  s.emit t p.slot p.ctx p.itag.toNat (toAll ts l)

/-! ## CTXNEW (R22, R306, R313) -/

/-- A fault area's two counts stored as zero (R313). -/
def State.clearArea (s : State) (c : Nat) : State :=
  match s.faultArea c with
  | none => s
  | some va =>
    let x := s.ctx c
    match s.storeVirtual x.asid x.tenant va true (List.replicate 8 0) with
    | some s' => s'
    | none => (s.deanFault { cause := 0x07, sub := 0x0D, ctx := c, tenant := x.tenant, source := 8 }).1

/-- The lowest FREE tag (R306). -/
def State.freeTag (s : State) : Option Nat := (List.range Config.contexts).find? fun c => (s.ctx c).st = .free

/-- A context that becomes LIVE under a tag with its injection hold set, `inject` initial tokens to come (R22, R306). -/
def State.newContext (s : State) (c q image tag inject : Nat) (parent : Option Nat) : State :=
  let r := (s.queue q).rcd
  let rm := r.mode % 8
  let mode := r.mode % 256 / 16 * 16 + (if rm ≤ 4 then rm else 0)
  let priv := ((s.regionOf image).map fun z => z.priv) = some true
  let s := s.setCtx c
    { st := .live, hold := inject ≠ 0, inject := inject, queue := q, image := image, cls := r.cls % 4, asid := r.asid,
      tenant := r.tenant, mode := BitVec.ofNat 32 mode, bucket := r.bucket, fbase := r.fbase, priv := priv, tag := tag,
      tNew := s.cycle, parent := parent }
  let s := s.updRegion image fun z => { z with lastStart := s.cycle }
  s.clearArea c

/-- What a CTXNEW firing takes from its queue's head launch when that names the image (R22, R296): the host tag and NTOK;
without one the hold stands until one INJECT (log entry 29). -/
def State.launchOf (s : State) (q image : Nat) : Nat × Nat :=
  match (s.queue q).headStream with
  | some (h :: _) => if field h 16 4 = image then (field h 24 4, ntokOf h) else (0, 1)
  | _ => (0, 1)

/-- A firing that waits for a tag. -/
def State.waitNew (s : State) (t : Nat) (p : Pairing) (l : Token) : State :=
  s.setDean { s.dean with newWaits := s.dean.newWaits ++ [.firing t { p with l := .held l }] }

/-- CTXNEW's effect in a firing (R306, R307): the queue and image checked, then the tag taken and emitted. It waits while the
image's region is to go or drains (R301 step 1). -/
def State.ctxnew (s : State) (t : Nat) (p : Pairing) (ts : List (Nat × BitVec 18)) (l : Token) : State :=
  let q := l.elem 0
  let image := l.elem 1
  if Config.queues ≤ q || (s.queue q).rcd.weight = 0 then s.deanFail t p ts 11 0x0B 0x16 0 1
  else if (s.regionOf image).isNone then s.deanFail t p ts 11 0x0B 0x17 0 1
  else
    match if (s.regionOf image).any s.shut then none else s.freeTag with
    | none => s.waitNew t p l
    | some c =>
      let (tag, n) := s.launchOf q image
      (s.newContext c q image tag n none).emit t p.slot p.ctx p.itag.toNat (toAll ts (oneN32 p.ctx p.itag c))

/-- CTXNEWs are served in FIFO order: one that finds others waiting joins them. -/
def execCtxnew (w : DWord) (s : State) : Host.Outcome State Fault Refusal :=
  firing s fun t p => s.deanFire t p w 2 11 true fun s ts l =>
    if s.dean.newWaits.isEmpty then s.ctxnew t p ts l
    else s.waitNew t p l

/-! ## INJECT (R20, R306) -/

/-- Whether every predecessor of a pairing at its tile's port has been performed: the port's pairings of its context
before a sequence number (R222). -/
def State.predecessorsDone (s : State) (t seq ctx : Nat) : Bool :=
  (s.tile t).port.all fun q => seq ≤ q.seq || q.ctx ≠ ctx || q.groups.all fun g => !g.open_

/-- The injection hold of a context as one initial token goes (R22). -/
def State.injected (s : State) (c : Nat) : State :=
  s.updCtx c fun x => { x with inject := x.inject - 1, hold := x.hold && 1 < x.inject }

/-- INJECT's effect: the token image read, checked under R20 and sent. -/
def State.injectNow (s : State) (t : Nat) (p : Pairing) (ts : List (Nat × BitVec 18)) (l : Token) : State :=
  let x := s.ctx p.ctx
  let va := l.elem 0
  let bad (e : Nat × Nat) : State := s.deanFail t p ts l.fmt e.1 e.2 va
  match s.deanRead x.asid x.tenant x.priv va 16 with
  | .error e => bad e
  | .ok (h, _) =>
    match s.deanRead x.asid x.tenant x.priv va (imageBytes (field h 0 8)) with
    | .error e => bad e
    | .ok (bs, s') =>
      match tokenOfImage bs with
      | none => (s'.countBad (bits (field bs 0 8) 38 27)).deanFail t p ts l.fmt 0x0B 0x06 va
      | some tok =>
        if (s'.ctx tok.ctx).st ≠ .live then (s'.countBad tok.ctx).deanFail t p ts l.fmt 0x0B 0x06 va
        else ((s'.deanInject tok { tile := tok.destTile, slot := 35 }).injected tok.ctx).emitL t p ts l

def execInject (w : DWord) (s : State) : Host.Outcome State Fault Refusal :=
  firing s fun t p => s.deanFire t p w 1 30 false fun s ts l =>
    let seq := (s.tile t).portSeq
    if l.elem 0 % 16 ≠ 0 then s.deanFail t p ts 30 0x0F 0x06 (l.elem 0)
    else if s.predecessorsDone t seq p.ctx then s.injectNow t p ts l
    else s.setDean { s.dean with afters := s.dean.afters ++ [(t, seq, { p with l := .held l })] }

/-! ## SCRUB (R306, R340) -/

/-- SCRUB: the Eraser starts; ERASER_DONE ends it. A tenant has 12 bits (R338). -/
def execScrub (w : DWord) (s : State) : Host.Outcome State Fault Refusal :=
  firing s fun t p => s.deanFire t p w 4 11 false fun s ts l =>
    let r := l.elem 0
    let m := l.elem 1
    let n := l.elem 2
    if r &&& 0x7FFF3F7F ≠ r || 2 ^ 16 ≤ m || 2 ^ 12 ≤ n || l.elem 3 ≠ 0 then s.deanFail t p ts 11 0x0B 0x02 0
    else s.setDean { s.dean with scrubs := s.dean.scrubs ++
      [{ rect := r, banks := m, tenant := n, src := some (t, { p with l := .held l }, w.nt) }] }

/-- ERASER_DONE (R340): the Eraser has finished the k-th SCRUB in progress, and its firing emits L. -/
def execEraserDone (s : State) : Host.Outcome State Fault Refusal :=
  match s.focus with
  | .event _ k =>
    match s.dean.scrubs[k]? with
    | none => .next s
    | some x =>
      let s := s.setDean { s.dean with scrubs := s.dean.scrubs.eraseIdx k }
      let s := s.erase (bits x.rect 6 0) (bits x.rect 13 8) (bits x.rect 23 16) (bits x.rect 30 24) x.banks x.tenant
      let s := s.serveWaits (2 * s.waits.length)
      .next (match x.src with
        | some (t, p, _) => s.emitL t p (s.slotTargets t p.slot) p.left
        | none => s)
  | _ => .next s

/-! ## PLACEH -/

/-- A run of LEN 1 that holds one N64 element. -/
def oneN64 (ctx : Nat) (itag : BitVec 32) (v : Nat) : Token :=
  { act := .normal, fmt := 29, len := 1, ctx := ctx, itag := itag, mask := 1, data := [BitVec.ofNat 64 v] }

def execPlaceh (w : DWord) (s : State) : Host.Outcome State Fault Refusal :=
  firing s fun t p => s.deanFire t p w 2 29 true fun s ts l =>
    let x := s.ctx p.ctx
    let v := l.elem 1
    let c := v % 2 ^ 9
    let k := bits v 18 16
    let give (s : State) (v : Nat) : State := s.emit t p.slot p.ctx p.itag.toNat (toAll ts (oneN64 p.ctx p.itag v))
    if v &&& 0x701FF ≠ v then s.deanFail t p ts 29 0x0B 0x02 0 1
    else if (s.session c k).isSome then give s (placeFailed 0x13)
    else
      match s.deanRead x.asid x.tenant x.priv (l.elem 0) hdrBytes with
      | .error e => s.deanFail t p ts 29 e.1 e.2 (l.elem 0) 1
      | .ok (h, s') =>
        let (v, s') := s'.placeSearch c k (l.elem 0) h
        give s' v

/-! ## METER (R344, R345) -/

/-- The resident images of a tenant in ascending IMAGEID order. -/
def State.imagesOf (s : State) (tenant : Nat) : List Region :=
  ((s.dean.regions.filter fun r => r.tenant = tenant).insertionSort fun a b => a.image ≤ b.image)

/-- A report of 320 bytes. -/
def State.meterReport (s : State) (tenant op : Nat) (nonce : List Byte) : List Byte :=
  let ms := assocGet (List.replicate 13 0) s.dean.meters tenant
  let images := s.imagesOf tenant
  let body :=
    toBytes 2 tenant ++ toBytes 2 1 ++ toBytes 4 0 ++ toBytes 8 s.cycle ++ (ms.flatMap (toBytes 8)) ++ toBytes 8 0 ++
    slice nonce 0 32 ++ digestBytes s.dean.fwDigest ++
    digestBytes (sm3 (images.flatMap fun r => slice r.bytes 0xA0 32)) ++ toBytes 4 images.length ++ List.replicate 28 0
  body ++ (if op = 1 then let q := sm2Sign (s.dean.devKey % sm2N) (sm3 body) 8 0; bytesBE q.1 ++ bytesBE q.2 else List.replicate 64 0)

/-- METER's effect in a firing. -/
def State.meterNow (s : State) (t : Nat) (p : Pairing) (ts : List (Nat × BitVec 18)) (l : Token) : State :=
  let x := s.ctx p.ctx
  let va := l.elem 1
  match s.deanRead x.asid x.tenant x.priv (va + 0x80) 32 with
  | .error e => s.deanFail t p ts l.fmt e.1 e.2 va
  | .ok (nonce, s1) =>
    match s1.deanWrite x.asid x.tenant x.priv va (s1.meterReport (l.elem 0 % 2 ^ 16) (bits (l.elem 0) 17 16) nonce) with
    | .error e => s.deanFail t p ts l.fmt e.1 e.2 va
    | .ok (_, s2) => s2.emitL t p ts l

/-- METER: its release at sys lets its stores wait for the pairing's predecessors (R222). -/
def execMeter (w : DWord) (s : State) : Host.Outcome State Fault Refusal :=
  firing s fun t p => s.deanFire t p w 2 30 false fun s ts l =>
    let v := l.elem 0
    let seq := (s.tile t).portSeq
    if 2 ^ 18 ≤ v || 2 ≤ bits v 17 16 || bits v 15 12 ≠ 0 then s.deanFail t p ts 30 0x0B 0x02 0
    else if l.elem 1 % 64 ≠ 0 then s.deanFail t p ts 30 0x0F 0x06 (l.elem 1)
    else if s.predecessorsDone t seq p.ctx then s.meterNow t p ts l
    else s.setDean { s.dean with afters := s.dean.afters ++ [(t, seq, { p with l := .held l })] }

/-! ## KEYLD (R342, R343) -/

/-- A wrapped key record's keys, where it passes its checks for a tenant. -/
def State.unwrap (s : State) (tenant : Nat) (bs : List Byte) : Option Nat :=
  let keys := Config.unwrapKeys s.dean.devKey (slice bs 0x10 32)
  let sum := (digestBytes (sm3 (slice bs 0 0x30 ++ digestBytes keys))).take 16
  if field bs 0 2 = tenant && field bs 2 14 = 0 && slice bs 0x30 16 = sum then some keys.toNat else none

/-- A key slot loaded: none where the record fails its check, or the tenant holds another slot. -/
def State.loadKey (s : State) (slot tenant : Nat) (bs : List Byte) : Option State :=
  match s.unwrap tenant bs with
  | none => none
  | some k =>
    if s.dean.keys.any fun z => z.2.tenant = tenant && z.1 ≠ slot then none
    else some (s.setDean { s.dean with keys := assocSet s.dean.keys slot { tenant := tenant, key := k } })

/-- A key slot unloaded, where the tenant holds it. -/
def State.unloadKey (s : State) (slot tenant : Nat) : State :=
  s.setDean { s.dean with keys := s.dean.keys.filter fun z => !(z.1 = slot && z.2.tenant = tenant) }

/-- Whether every access translated for a tenant to encrypted memory has been performed. -/
def State.keyIdle (s : State) (tenant : Nat) : Bool :=
  s.openAccesses.all fun a => a.2 ≠ tenant || !(s.spaceOf (64 * a.1)).encrypted

def execKeyld (w : DWord) (s : State) : Host.Outcome State Fault Refusal :=
  firing s fun t p => s.deanFire t p w 2 30 false fun s ts l =>
    let v := l.elem 0
    let tenant := bits v 23 8
    let x := s.ctx p.ctx
    if 2 ^ 25 ≤ v || bits v 23 20 ≠ 0 then s.deanFail t p ts 30 0x0B 0x02 0
    else if bit v 24 then
      let s := s.unloadKey (v % 256) tenant
      if s.keyIdle tenant then s.emitL t p ts l
      else s.setDean { s.dean with afters := s.dean.afters ++ [(t, tenant, { p with l := .held l })] }
    else
      match s.deanRead x.asid x.tenant x.priv (l.elem 1) 64 with
      | .error e => s.deanFail t p ts 30 e.1 e.2 (l.elem 1)
      | .ok (bs, s') =>
        match s'.loadKey (v % 256) tenant bs with
        | none => s'.deanFail t p ts 30 0x0B 0x19 0
        | some s'' => s''.emitL t p ts l

/-! ## BELLOUT -/

/-- BELLOUT: bells to every source of the context's region; L leaves once it is SAVED. -/
def execBellout (w : DWord) (s : State) : Host.Outcome State Fault Refusal :=
  firing s fun t p => s.deanFire t p w 1 11 false fun s ts l =>
    let c := l.elem 0
    if 4096 ≤ c then s.deanFail t p ts 11 0x0B 0x02 0
    else if (s.ctx c).st ≠ .live then s.deanFail t p ts 11 0x0B 0x18 0
    else
      let s := if (s.ctx c).bell.isSome then s else s.ringBells c false
      s.setDean { s.dean with bellWaits := s.dean.bellWaits ++ [(c, t, { p with l := .held l })] }

/-! ## Firings that waited -/

/-- Whether a waiting firing may go on, by its slot's instruction. -/
def State.afterReady (s : State) (w : Nat × Nat × Pairing) : Bool :=
  if s.slotOp w.1 w.2.2.slot = 0xE6 then s.keyIdle w.2.1 else s.predecessorsDone w.1 w.2.1 w.2.2.ctx

/-- The firings that waited for earlier accesses and go on now (R306). -/
def State.aftersCheck (s : State) : State :=
  s.dean.afters.foldl (fun (z : State) w =>
    if !z.afterReady w then z
    else
      let z := z.setDean { z.dean with afters := z.dean.afters.erase w }
      let (t, _, p) := w
      let ts := z.slotTargets t p.slot
      match z.slotOp t p.slot with
      | 0xE2 => z.injectNow t p ts p.left
      | 0xE5 => z.meterNow t p ts p.left
      | _ => z.emitL t p ts p.left) s

end Sys2Proof.Machine
end

