-- ==== Sys2Proof/Machine/Retire.lean ====
section
/-! DEFINITION. The end of a context: completion records (R299), the reclaim of R23, abort and discard (R300). -/

namespace Sys2Proof.Machine

/-! ## Completion records (R299) -/

/-- The queue group of a queue (R351, R352). -/
def groupOf (q : Nat) : Nat := q / 16

/-- A message interrupt (R299, R353): the value written to a group's interrupt address, if that is not 0. -/
def State.messageIntr (s : State) (g n : Nat) : State :=
  let a := assocGet 0 s.dean.mail.msgIntr g
  if a = 0 then s else { s with intr := s.intr ++ [(a, n % 2 ^ 32)] }

/-- What a completion record says. -/
structure Completion where
  tag    : Nat := 0
  ctx    : Nat := 0xFFFF
  status : Nat := 0
  sub    : Nat := 0
  mode   : Nat := 0
  leak   : Nat := 0
  abort  : Nat := 0
  faults : Nat := 0
  tNew   : Nat := 0
  tRet   : Nat := 0
  msg    : List Byte := []
  deriving DecidableEq, Repr

/-- The 64 bytes of a completion record. -/
def Completion.bytes (r : Completion) : List Byte :=
  toBytes 4 r.tag ++ toBytes 2 r.ctx ++ toBytes 1 r.status ++ toBytes 1 r.sub ++ toBytes 4 r.mode ++ toBytes 4 r.leak ++
  toBytes 4 r.abort ++ toBytes 4 r.faults ++ toBytes 8 r.tNew ++ toBytes 8 r.tRet ++ slice r.msg 0 24

/-- A page of a queue marked dirty (R346). -/
def Queue.soil (q : Queue) (page : Nat) : Queue :=
  if q.dirty.contains page then q else { q with dirty := q.dirty ++ [page] }

/-- A completion record stored in a queue's ring, with its message interrupt (R299; log entry 11). -/
def State.complete (s : State) (q : Nat) (r : Completion) : State :=
  let x := s.queue q
  let i := x.n % x.rcd.crlen
  let s := match s.storeBytes x.rcd.tenant (x.rcd.cring + 64 * i) (blocksFor 64) r.bytes with
    | some s' => s'
    | none => s
  let s := s.updQueue q fun y => ({ y with n := (x.n + 1) % 2 ^ 32 } : Queue).soil (y.rcd.qlen + 64 * i / 4096)
  if bit x.rcd.flags 0 then s.messageIntr (groupOf q) x.n else s

/-! ## Bucket requests (R271) -/

/-- One launch of a bucket request has completed. -/
def State.launchEnded (s : State) (parent : Option Nat) : State :=
  match parent with
  | none => s
  | some i => s.setDean { s.dean with buckets := s.dean.buckets.map fun b => if b.id = i then { b with left := b.left - 1 } else b }

/-! ## The reclaim of R23 -/

/-- Steps 1 to 3 at one tile, with the slots and tickets released. -/
def State.reclaimTile (s : State) (t c : Nat) : State × Nat :=
  let s := s.stopReplayOf t c
  let ids := ((s.tile t).drops.filter fun d => d.tok.ctx = c).map fun d => d.id
  let s := s.updTile t fun x =>
    { x with entries := x.entries.filter fun e => e.tok.ctx ≠ c, drops := x.drops.filter fun d => d.tok.ctx ≠ c,
             replayQ := x.replayQ.filter fun i => !ids.contains i, accs := x.accs.filter fun a => a.ctx ≠ c,
             ords := x.ords.filter fun o => o.ctx ≠ c, bells := x.bells.filter fun b => b.ctx ≠ c,
             rebufs := x.rebufs.filter fun b => b.ctx ≠ c }
  let (s, n) := (List.range 8).foldl (fun (z : State × Nat) p =>
    match z.1.pool t p with
    | none => z
    | some x =>
      ((x.slots.zipIdx.filter fun y => y.1.st ≠ .free && y.1.ownerCtx = c).map fun y => y.2).foldl (fun (w : State × Nat) j =>
        (w.1.freeSlot t p j, w.2 + 1)) z) (s, 0)
  (List.range 4).foldl (fun (z : State × Nat) k =>
    match (z.1.tile t).tickets[k]? with
    | none => z
    | some x =>
      let h := assocGet 0 x.held c
      if h = 0 then z
      else
        let y : TicketPool := { x with free := x.free + h, held := assocDel x.held c }
        ((z.1.updTile t fun w => { w with tickets := w.tickets.set k y }).grantTickets t k 64, z.2 + h)) (s, n)

/-- A Registrar that a context owns, IDLE again (R249). -/
def Registrar.reclaimed (x : Registrar) (c : Nat) : Registrar :=
  if x.owner = some c then { x with state := .idle, owner := none, auction := none, stops := [] } else x

/-- A streamer whose templates of a context are disarmed, their channels unbound (R187). -/
def Streamer.disarmed (x : Streamer) (c : Nat) : Streamer :=
  let gone := (x.templates.filter fun t => t.2.cmd.ctx = c).map fun t => t.1
  { x with templates := x.templates.filter fun t => t.2.cmd.ctx ≠ c,
           chans := x.chans.filter fun h => match h.2 with
             | .template t => !gone.contains t
             | _ => true }

/-- Steps 1 to 4 of the reclaim of a RETIRING context. -/
def State.reclaim (s : State) (c : Nat) : State :=
  let (ts, cs) := match s.ctxRegion c with
    | some r => (s.regionTiles r, s.regionClusters r)
    | none => ([], [])
  let (s, n) := ts.foldl (fun (z : State × Nat) t => let r := z.1.reclaimTile t c; (r.1, z.2 + r.2)) (s, 0)
  let s := cs.foldl (fun (z : State) d => z.setStreamer d ((z.cluster d).streamer.disarmed c)) s
  let s := s.clusters.foldl (fun (z : State) d => z.setRegistrar d.1 ((z.cluster d.1).registrar.reclaimed c)) s
  let s := s.setDean { s.dean with buckets := s.dean.buckets.filter fun b => b.ctx ≠ c }
  let s := s.updCtx c fun x => { x with leak := x.leak + n, reclaimed := true }
  let x := s.ctx c
  (s.complete x.queue
    { tag := x.tag, ctx := c, status := if x.aborted then 1 else 0, mode := x.mode.toNat, leak := x.leak, abort := x.abort,
      faults := x.faults, tNew := x.tNew, tRet := x.tRet }).launchEnded x.parent

/-! ## Abort (R300) -/

/-- An engine command stopped as CPSTOP stops one: a record with ABORT, and a FAULT token or failure word (R198, R369). -/
def State.stopCmd (s : State) (engine c : Nat) (src : CmdSource) (ctx tenant : Nat) (fmt : Fmt) (itag : BitVec 32) (len word : Nat) :
    State :=
  let (s, seq, _) := s.raise { engineRecord engine 0 c ctx tenant itag.toNat 0x10 0 0 with abort := true }
  match src with
  | .slot t slot _ => s.emit t slot ctx itag.toNat (toAll (s.slotTargets t slot) (faultToken fmt ctx itag len 0x10 0 true 0 seq))
  | src => s.srcResult src (BitVec.ofNat 64 word)

/-- The commands of a context at a cluster's streamer stopped, and its templates unbound. -/
def State.stopStreamer (s : State) (d c : Nat) : State :=
  let s := (List.range 8).foldl (fun (z : State) a => z.stopAgn d a c) s
  let st := (s.cluster d).streamer
  let mine := st.queue.filter fun q => q.ctx = c
  let tm := (st.templates.filter fun t => t.2.cmd.ctx = c).map fun t => t.1
  let s := s.setStreamer d { st with
    queue := st.queue.filter fun q => q.ctx ≠ c, templates := st.templates.filter fun t => t.2.cmd.ctx ≠ c,
    chans := st.chans.filter fun h => match h.2 with
      | .template t => !tm.contains t
      | _ => true }
  (mine.foldl (fun (z : State) q => z.streamFault d 0 q 0 0x10 0x00 0 true) s).wake d .engine

/-- The commands of a context at a cluster's array stopped. -/
def State.stopArray (s : State) (d c : Nat) : State :=
  let a := (s.cluster d).array
  let mine := a.queue.filter fun q => q.ctx = c
  let s := s.setArray d { a with queue := a.queue.filter fun q => q.ctx ≠ c }
  let s := mine.foldl (fun (z : State) q =>
    let (fmt, tag, len) := q.shapeOf (a.acc q.handle.toNat).kind
    z.stopCmd 3 d q.src c q.tenant fmt tag len (2 ^ 16 + 0x1000)) s
  (s.serveGives d).wake d .engine

/-- The commands of a context at a cluster's Registrar stopped. -/
def State.stopRegistrar (s : State) (d c : Nat) : State :=
  let g := (s.cluster d).registrar
  let running := match g.auction with
    | some a => if a.cmd.ctx = c && (g.state = .running || a.belled) then [a.cmd] else []
    | none => []
  let mine := (g.queue ++ g.stops).filter (fun q => q.ctx = c) ++ running
  let s := s.setRegistrar d { g with queue := g.queue.filter fun q => q.ctx ≠ c, stops := g.stops.filter fun q => q.ctx ≠ c,
                                     auction := if running.isEmpty then g.auction else none }
  (mine.foldl (fun (z : State) q => z.stopCmd 5 d q.src c q.tenant 11 q.itag 1 (7 + 0x100000)) s).wake d .engine

/-- The commands of a context at a tile's converter node stopped. -/
def State.stopConverter (s : State) (t c : Nat) : State :=
  let mine := (s.tile t).convQ.filter fun q => q.ctx = c
  let s := s.updTile t fun x => { x with convQ := x.convQ.filter fun q => q.ctx ≠ c }
  mine.foldl (fun (z : State) q =>
    let (z, seq, _) := z.raise { z.slotRecord t q.slot c q.l.lo 0x10 0 0 0 0 with source := 4, unit := 0, abort := true }
    z.emit t q.slot c q.l.lo (toAll (z.slotTargets t q.slot) (faultToken q.outFmt c q.l.itag q.l.len 0x10 0 true 0 seq))) s

/-- The issued groups of a context at a tile's port performed at their homes, and its stores that wait there left to be
performed (R300). -/
def State.performIssued (s : State) (t c : Nat) : State :=
  let s := (issuedGroups ((s.tile t).port)).foldl (fun (z : State) x =>
    if x.1.ctx ≠ c then z
    else
      match z.homeAct x.2.2.acc with
      | .done z' _ => z'.afterAccess x.2.2.acc
      | _ => z) s
  let seqs := ((s.tile t).port.filter fun p => p.ctx = c).map fun p => p.seq
  { s with waits := s.waits.map fun w =>
      match w.who with
      | .group d q _ => if d = t && seqs.contains q && !w.acc.op.isLoad then { w with who := noWaiter } else w
      | _ => w }

/-- What a tile still holds of an aborted context discarded, its stickies and anti-tokens too (R300). -/
def State.discardTile (s : State) (t c : Nat) : State :=
  let s : State := (s.performIssued t c).withdrawWork t c
  let live (p : Pool) : Pool := { p with wait := p.wait.filter fun q => q.ctx ≠ c }
  let s := s.updTile t fun x =>
    { x with entries := x.entries.filter fun e => e.tok.ctx ≠ c,
             pairings := x.pairings.filter fun p => p.ctx ≠ c,
             replayQ := x.replayQ.filter fun i => !(x.drops.any fun d => d.id = i && d.tok.ctx = c),
             pools := x.pools.map live
             tickets := x.tickets.map fun k => { k with wait := k.wait.filter fun q => q.ctx ≠ c } }
  let a := (s.cluster (clusterOf t)).array
  if localOf t = 15 then s.setArray (clusterOf t) { a with pool := live a.pool, gives := a.gives.filter fun o => o.ctx ≠ c } else s

/-- What the Dean, the network and the cores hold of an aborted context discarded; tasks that waited for an injection queue go
on (R275). -/
def State.discardRest (s : State) (c : Nat) : State :=
  let s : State := { s with net := s.net.filter fun p => p.tok.ctx ≠ c }
  let s := s.clusters.foldl (fun (z : State) p =>
    let k := (z.cluster p.1).core
    (z.setCore p.1 { k with vcs := k.vcs.map fun v => (v.1, { v.2 with queue := v.2.queue.filter fun t => t.ctx ≠ c }) }).wake p.1 .send) s
  let d := s.dean
  s.setDean { d with
    newWaits := d.newWaits.filter fun w => !w.of? c, afters := d.afters.filter fun w => w.2.2.ctx ≠ c,
    bellWaits := d.bellWaits.filter fun w => w.2.2.ctx ≠ c,
    scrubs := d.scrubs.map fun x => match x.src with
      | some (_, p, _) => if p.ctx = c then { x with src := none } else x
      | none => x
    saves := assocDel d.saves c }

/-- The tokens of a context that an abort discards and the census does not count (R22, R300): resting stickies, anti-tokens and
PURGEs. -/
def State.uncounted (s : State) (c : Nat) : Nat :=
  let still (e : Entry) : Bool := e.tok.ctx = c && !e.use.counts
  let purge (t : Token) : Bool := t.ctx = c && !t.act.counted
  (s.net.filter fun p => p.cargo = .token && purge p.tok).length +
  (s.tiles.foldl (fun n p => if p.2.savedFor c then n else n + (p.2.entries.filter still).length) 0) +
  ((assocGet [] s.dean.saves c).filter fun r => match r with
    | .entry _ _ e => still e
    | .channel _ _ _ t => purge t
    | _ => false).length +
  s.clusters.foldl (fun n p => n + p.2.core.vcs.foldl (fun m v => m + (v.2.queue.filter purge).length) 0) 0

/-- The abort of a LIVE or FROZEN context (R300): its commands stopped, its tokens discarded and counted, and the context
RETIRING. -/
def State.abort (s : State) (c : Nat) : State :=
  let s := s.freeze c .halt
  let (ts, cs) := match s.ctxRegion c with
    | some r => (s.regionTiles r, s.regionClusters r)
    | none => ([], [])
  let s := cs.foldl (fun (z : State) d => ((z.stopStreamer d c).stopArray d c).stopRegistrar d c) s
  let s := ts.foldl (fun (z : State) t => z.stopConverter t c) s
  let n := s.census c + s.uncounted c
  let s := (ts.foldl (fun (z : State) t => z.discardTile t c) s).discardRest c
  let s := (s.unpark c).bellResult c 3
  s.updCtx c fun x => { x with st := .retiring, why := .none, hold := false, inject := 0, bell := none, fromBellin := false,
                               aborted := true, abort := x.abort + n, tRet := s.cycle }

/-- Contexts that a fault froze and no queue holds are aborted at once (R300). -/
def State.abortFrozen (s : State) : State :=
  s.dean.ctxs.foldl (fun (z : State) p =>
    let x := z.ctx p.1
    if x.st = .frozen && x.why = .fault && !bit (z.queue x.queue).rcd.flags 1 then z.abort p.1 else z) s

/-! ## Discard (R300) -/

/-- ENTRY and CHANNEL records of a save record, and an early run that an ACCREG record holds (R300, R321; log entry 102). -/
def SaveRec.tokens : SaveRec → Nat
  | .entry _ _ _ => 1
  | .pairing _ _ p => p.l.counts + p.r.counts
  | .channel _ _ _ _ => 1
  | .grant _ _ _ _ _ => 1
  | .mem _ _ m => 1 + m.r.toList.length
  | .vcq _ _ _ q => q.length
  | _ => 0

/-- SLOT records and tickets of a save record. -/
def SaveRec.leaks : SaveRec → Nat
  | .slot _ _ _ _ _ _ => 1
  | .acc _ _ _ _ _ => 1
  | .tickets _ _ held => held.foldl (· + ·) 0
  | _ => 0

/-- The discard of a SAVED context: its saved tasks end, and their sessions with them (R74). -/
def State.discard (s : State) (c : Nat) : State :=
  let rs := assocGet [] s.dean.saves c
  let n := rs.foldl (fun n r => n + r.tokens) 0
  let m := rs.foldl (fun n r => n + r.leaks) 0
  let s := s.setDean { s.dean with saves := assocDel s.dean.saves c }
  let s := (s.endSessions fun x => x.saved = some c).mapSrc (CmdSource.forgetSaved c)
  let s := s.updQueue (s.ctx c).queue fun q => { q with restore := q.restore.filter fun x => x ≠ c }
  s.updCtx c fun x => { x with st := .retiring, aborted := true, abort := x.abort + n, leak := x.leak + m, tRet := s.cycle }

end Sys2Proof.Machine
end

