-- ==== Sys2Proof/Machine/Layout.lean ====
section
/-! DEFINITION. A resident image's life (R72, R301, R310, R370): its commons banks, the layout of its code and data, the
drain of its region, and its unload. -/

namespace Sys2Proof.Machine

/-! ## The checks of an image's records (R46, R47, R310) -/

/-- Whether a table of n bytes at an offset lies in an image. -/
def tableIn (bs : List Byte) (off n : Nat) : Bool := n = 0 || (off % 4 = 0 && off + n ≤ field bs 0x1C 4)

/-- Entry records. -/
def entriesOk (bs : List Byte) : Bool :=
  let n := field bs 0x18 1
  n ≤ 8 && (List.range 8).all fun i =>
    let e := field bs (0x30 + 4 * i) 4
    if n ≤ i then e = 0 else bits e 12 0 = 0 && bits e 31 25 < hdrWidth bs && bits e 24 19 < hdrHeight bs

/-- Stage records: every replica lies in the region. -/
def stagesOk (bs : List Byte) : Bool :=
  let n := field bs 0x19 1
  n ≤ 8 && (List.range 8).all fun i =>
    let b (k : Nat) : Nat := field bs (0x50 + 8 * i + k) 1
    if n ≤ i then field bs (0x50 + 8 * i) 8 = 0
    else
      b 0 ≤ b 2 && b 1 ≤ b 3 && 1 ≤ b 4 && b 4 ≤ 8 && b 5 ≤ 7 && (b 6 < n || b 6 = 0xFF) && b 7 = 0 &&
      b 2 + (b 4 - 1) * (b 2 - b 0 + 1) < hdrWidth bs && b 3 < hdrHeight bs

/-- Task records. -/
def tasksOk (bs : List Byte) : Bool :=
  let n := field bs 0x1B 1
  let off := field bs 0x94 4
  tableIn bs off (16 * n) && (List.range n).all fun i =>
    let at_ := off + 16 * i
    field bs (at_ + 8) 4 % 4 = 0 && field bs (at_ + 12) 4 = 0 && field bs (at_ + 4) 4 + field bs (at_ + 8) 4 ≤ field bs 0x1C 4

/-- A data record (R47): address, initial version, typed, bytes, and whether its fields are legal. -/
structure DataSeg where
  va      : Nat
  version : BitVec 16
  typed   : Bool
  bytes   : List Byte
  legal   : Bool
  deriving DecidableEq, Repr

/-- The data records of an image from an offset. -/
def dataSegs (bs : List Byte) : Nat → Nat → List DataSeg
  | 0, _ => []
  | n + 1, off =>
    let len := field bs (off + 8) 4
    let size := 16 + (len + 15) / 16 * 16
    { va := field bs off 8, version := BitVec.ofNat 16 (field bs (off + 12) 2), typed := bit (field bs (off + 14) 2) 0,
      bytes := slice bs (off + 16) (min len bs.length),
      legal := field bs (off + 14) 2 < 2 && off % 4 = 0 && off + size ≤ field bs 0x1C 4 && field bs off 8 + len ≤ 2 ^ 56 } ::
      dataSegs bs n (off + size)

/-- The data records of an image. -/
def imageData (bs : List Byte) : List DataSeg := dataSegs bs (field bs 0x90 2) (field bs 0x2C 4)

/-- Whether an image's entry, stage, task and data records obey R46 and R47 (R310). -/
def recordsOk (bs : List Byte) : Bool := entriesOk bs && stagesOk bs && tasksOk bs && (imageData bs).all fun d => d.legal

/-! ## Data segments (R310) -/

/-- The home of a block of a data segment under a region's ASID: none where its page is not mapped, is not writable, or
has another T bit. A commons window address has no page. -/
def State.segHome (s : State) (asid : Nat) (typed : Bool) (va : Nat) : Option Nat :=
  let leafTyped : Option Bool :=
    if inCommons va then some typed
    else
      match s.walkRoot asid 0 with
      | .next root =>
        match s.walkAll asid (s.actingTenant 0 asid) va 3 root with
        | .leaf e => some e.typed
        | _ => none
      | _ => none
  if leafTyped ≠ some typed then none
  else
    match s.translateNow asid 0 va .write true false with
    | .home h =>
      match s.spaceOf h with
      | .commons c => if (s.cluster c).banks.getD (h % 2 ^ 19 / 2 ^ 15) 0 = s.actingTenant 0 asid then some h else none
      | .hole => none
      | _ => some h
    | _ => none

/-- One block of a data segment written: its initial version, and nothing retained. Its bytes are charged to the tenant
(R344). -/
def State.layBlock (s : State) (tenant h : Nat) (v : BitVec 16) (bs : List Byte) : Option State :=
  match s.keyFor tenant h with
  | none => none
  | some key =>
    let b := h / 64
    let m := s.blockMeta b
    let enc := (s.spaceOf h).encrypted
    let s := s.putBlock b { m with version := v, retained := [], key := if enc then some key else m.key }
      (patch (s.blockBytes b key) (h % 64) bs)
    some ((s.addMeter tenant (s.spaceOf h).meter bs.length).afterAccess { block := b, op := .store [] })

/-- A data segment written block by block; none where a page fails the layout. -/
def State.laySeg (s : State) (asid : Nat) (typed : Bool) (v : BitVec 16) (va : Nat) : Nat → List Byte → Option State
  | 0, _ => some s
  | fuel + 1, bs =>
    if bs.isEmpty then some s
    else
      match s.segHome asid typed va with
      | none => none
      | some h =>
        let n := min bs.length (64 - h % 64)
        match s.layBlock (s.actingTenant 0 asid) h v (bs.take n) with
        | none => none
        | some s' => s'.laySeg asid typed v (va + n) fuel (bs.drop n)

/-- The data segments of a region written in order. -/
def State.laySegs (s : State) (asid : Nat) : List DataSeg → Option State
  | [] => some s
  | d :: ds =>
    match s.laySeg asid d.typed d.version d.va (blocksFor d.bytes.length) d.bytes with
    | none => none
    | some s' => s'.laySegs asid ds

/-- Image tasks start once the layout is complete (R276, R310). -/
def State.startImageTasks (s : State) (r : Region) : State :=
  (s.regionClusters r).foldl (fun (z : State) c => (z.cluster c).core.tasks.foldl (fun (y : State) q =>
    if q.2.st = .blocked .layout && q.2.image.any (fun i => i.1 = r.image) then y.updTask c q.1 Task.ready else y) z) s

/-- The layout of a region (R310): none where it fails. -/
def State.layOut (s : State) (r : Region) : Option State :=
  if !recordsOk r.bytes then none
  else
    match s.laySegs r.asid (imageData r.bytes) with
    | none => none
    | some s' => some ((s'.updRegion r.image fun x => { x with laid := true, lastStart := s'.cycle, progress := s'.cycle }).startImageTasks r)

/-! ## Banks (R370, R301) -/

/-- Whether no access is on its way to, or waits at, a commons bank (R301). -/
def State.bankQuiet (s : State) (c bank : Nat) : Bool :=
  let here (b : Nat) : Bool := 64 * b / 2 ^ 15 = (commonsBase c + bank * 2 ^ 15) / 2 ^ 15
  s.openAccesses.all fun a => !here a.1

/-- The banks that change owner when a region's tenant takes its commons (R370). -/
def State.bankMoves (s : State) (r : Region) : List (Nat × Nat) :=
  (s.bankClusters r).flatMap fun c => ((List.range 16).filter fun b =>
    (s.cluster c).banks.getD b 0 ≠ r.tenant && !(s.cluster c).pins.getD b false).map fun b => (c, b)

/-! ## Drain and unload (R72, R301) -/

/-- The contexts of an image in any of some states. -/
def State.imageCtxs (s : State) (image : Nat) (f : CtxState → Bool) : List Nat :=
  (s.dean.ctxs.filter fun p => p.2.st ≠ .free && p.2.image = image && f p.2.st).map fun p => p.1

/-- Whether a context state keeps an image resident (R72). -/
def CtxState.keeps : CtxState → Bool
  | .live => true
  | .frozen => true
  | .saved => true
  | _ => false

/-- Whether no packet is bound for a region or leaves one of its tiles. -/
def State.linksEmpty (s : State) (r : Region) : Bool :=
  let cs := s.regionClusters r
  s.net.all fun p =>
    (match p.dest with
     | .tile t => !r.holds t
     | .vc c _ => !cs.contains c
     | .trig c _ => !cs.contains c
     | _ => true) &&
    (match p.place with
     | .outq t => !r.holds t
     | _ => true)

/-- Whether a region's engines hold no command of a context. -/
def State.enginesEmpty (s : State) (r : Region) : Bool :=
  ((s.regionClusters r).all fun c =>
    let x := s.cluster c
    x.streamer.queue.isEmpty && x.streamer.agns.isEmpty && x.array.queue.isEmpty && x.array.gives.isEmpty &&
    x.registrar.queue.isEmpty && x.registrar.stops.isEmpty && x.registrar.state ≠ .running) &&
  (s.regionTiles r).all fun t => (s.tile t).convQ.isEmpty && (s.tile t).port.isEmpty

/-- Whether a region has drained (R301 step 3). -/
def State.drained (s : State) (r : Region) : Bool :=
  s.linksEmpty r && s.enginesEmpty r && (s.bankClusters r).all fun c => (List.range 16).all fun b => s.bankQuiet c b

/-- Whether banks of clusters of a region may change owner (R301 step 3): nothing on its way to the region, no command in its
engines, and no access at the banks. -/
def State.banksReady (s : State) (r : Region) (moves : List (Nat × Nat)) : Bool :=
  moves.isEmpty || (s.linksEmpty r && s.enginesEmpty r && moves.all fun m => s.bankQuiet m.1 m.2)

/-- The unload of a region (R72): its tiles FREE, its image tasks ended and no more waiting for a task context. The Eraser runs
first where it makes room for another tenant's image. -/
def State.unload (s : State) (r : Region) : State :=
  let s := match r.next with
    | some o => (s.regionTiles r).foldl (fun (z : State) t => z.takeTile o t) s
    | none => s
  let s := (s.regionTiles r).foldl (fun (z : State) t => z.updTile t fun x =>
    { x with status := .free, block := none, pools := [], tickets := [], entries := [], pairings := [] }) s
  let s := (s.regionClusters r).foldl (fun (z : State) c =>
    ((z.cluster c).core.tasks.filter fun q => !q.2.spawned && q.2.image.any fun i => i.1 = r.image).foldl (fun (y : State) q =>
      y.endTask c q.1) (z.setCore c
        { (z.cluster c).core with imageWait := (z.cluster c).core.imageWait.filter fun q => !(q.x0 = r.x0 && q.y0 = r.y0) })) s
  s.setDean { s.dean with regions := s.dean.regions.filter fun x => !(x.image = r.image && x.x0 = r.x0 && x.y0 = r.y0) }

/-- The image to unload when a placement fails (R72): the one whose last launch started earliest among those that no LIVE,
FROZEN or SAVED context uses and no launch waits for. -/
def State.unloadNext (s : State) : Option Nat :=
  let idle := s.dean.regions.filter fun r =>
    r.laid && !r.leaving && !r.moving && (s.imageCtxs r.image CtxState.keeps).isEmpty && !(s.dean.newWaits.any fun w => match w with
      | .launch _ l => l.image = r.image
      | .firing _ _ => false)
  (idle.foldl (fun (b : Option Region) r => match b with
    | none => some r
    | some x => if r.lastStart < x.lastStart then some r else some x) none).map fun r => r.image

/-- DRAIN (R301): the region of IMAGEID k that is to go, with no context LIVE, FROZEN, SAVED or RETIRING, is empty. -/
def execDrain (s : State) : Host.Outcome State Fault Refusal :=
  match s.focus with
  | .event _ k =>
    match s.regionOf k with
    | none => .next s
    | some r =>
      if r.leaving && (s.imageCtxs k fun x => x ≠ .saved).isEmpty && s.drained r then .next (s.updRegion k fun x => { x with drained := true })
      else .next s
  | _ => .next s

end Sys2Proof.Machine
end

