-- ==== Sys2Proof/Machine/Launch.lean ====
section
/-! DEFINITION. Launches (R292 to R298): ingress, the choice of a launch, loading, the start of a context, the Dean's
channels and bucket requests (R271). -/

namespace Sys2Proof.Machine

/-! ## Ingress (R293) -/

/-- A token image appended to a queue's buffer, which marks its pages (R346). -/
def State.bufferImage (s : State) (q : Nat) (bs : List Byte) : State :=
  let x := s.queue q
  let size := 4096 * x.rcd.qlen
  -- the buffer wraps at its end
  let at_ (off : Nat) : Nat := x.rcd.qbuf + off % size
  let n := min bs.length (size - x.tail % size)
  let put (s : State) (off : Nat) (bs : List Byte) : State :=
    match s.storeBytes x.rcd.tenant (at_ off) (blocksFor bs.length) bs with
    | some s' => s'
    | none => s
  let s := put (put s x.tail (bs.take n)) (x.tail + n) (bs.drop n)
  let pages := (List.range bs.length).map fun i => (x.tail + i) % size / 4096
  s.updQueue q fun y => pages.dedup.foldl (fun (z : Queue) p => z.soil p)
    { y with tail := (x.tail + bs.length) % size, images := y.images ++ [bs] }

/-- Bytes that a queue's buffer holds. -/
def Queue.bytes (q : Queue) : Nat := q.images.foldl (fun n b => n + b.length) 0

/-- Whether an image fits in a queue's buffer. -/
def Queue.room (q : Queue) (bs : List Byte) : Bool := q.bytes + bs.length ≤ 4096 * q.rcd.qlen

/-- Images held on the link that fit now, in order. -/
def State.admitHeld (s : State) (q : Nat) : Nat → State
  | 0 => s
  | fuel + 1 =>
    let x := s.queue q
    match x.held with
    | [] => s
    | b :: rest => if x.room b then ((s.setQueue q { x with held := rest }).bufferImage q b).admitHeld q fuel else s

/-- INGRESS_WRITE (R293): a token image written to an ingress window joins the buffer of the queue bound to it, or is held
until there is room. A write to an unbound window, or before the boot is ready (R354), is discarded. -/
def execIngressWrite (window : Nat) (image : List Word) (s : State) : Host.Outcome State Fault Refusal :=
  match (s.dean.windows.find? fun p => p.1 = window).map fun p => p.2 with
  | none => .next s
  | some q =>
    if s.dean.mail.boot ≠ .ready then .next s
    else
      let raw := image.flatMap fun w => toBytes 8 w.toNat
      let bs := slice raw 0 (imageBytes (field raw 0 8))
      let x := s.queue q
      if x.held.isEmpty && x.room bs then .next ((s.bufferImage q bs).queueGain q x)
      else .next (s.setQueue q { x with held := x.held ++ [bs] })

/-! ## Rejections and the stride (R294, R296) -/

/-- A queue's launch has started (R294): its pass advances, and a reservation passes on (R295). -/
def State.advance (s : State) (q : Nat) : State :=
  let x := s.queue q
  let w := x.rcd.weight
  let s := s.setQueue q { x with pass := x.pass + BitVec.ofNat 32 (if w = 0 then 0 else 2 ^ 20 / w), skips := 0 }
  s.setDean { s.dean with vtime := x.pass, reserve := if s.dean.reserve.head? = some q then s.dean.reserve.drop 1 else s.dean.reserve }

/-- A launch that ends without a context (R296, R299): STATUS 2 with a subcode. -/
def State.reject (s : State) (q : Nat) (l : Launch) (sub : Nat) : State :=
  (s.complete q { tag := l.tag, status := 2, sub := sub, tRet := s.cycle }).launchEnded l.parent

/-- A launch skipped (R294, R295): at 8 skips the queue joins the reservation list. -/
def State.skip (s : State) (q : Nat) : State :=
  let x := s.queue q
  let n := x.skips + 1
  let s := s.setQueue q { x with skips := n }
  if n = 8 && !s.dean.reserve.contains q then s.setDean { s.dean with reserve := s.dean.reserve ++ [q] } else s

/-! ## The start of a context (R296) -/

/-- A launch started under a FREE tag: CTXNEW, each initial token injected at its entry point, and the hold cleared. -/
def State.begin_ (s : State) (c q : Nat) (l : Launch) (r : Region) : State :=
  let s := s.newContext c q l.image l.tag l.tokens.length l.parent
  let s := l.tokens.foldl (fun (z : State) tok =>
    let e := r.entries.getD tok.tile (0, 0, 0, 0)
    match r.relTile e.1 e.2.1 with
    | some d => z.deanInject ({ tok with ctx := c }.sendTo d e.2.2.1 e.2.2.2) { tile := d, slot := 32, ix := tok.tile }
    | none => z) s
  (s.updCtx c fun x => { x with hold := false, inject := 0 }).progressed c

/-- The region that a wait for a tag needs. -/
def State.waitRegion (s : State) (w : NewWait) : Option Region :=
  match w with
  | .firing _ p => s.regionOf (p.left.elem 1)
  | .launch _ l => s.regionOf l.image

/-- Waits for a tag served in order while tags are FREE (R306), none in a region that is to go or drains (R301 step 1). -/
def State.serveNew (s : State) : Nat → State
  | 0 => s
  | fuel + 1 =>
    match s.dean.newWaits, s.freeTag with
    | w :: rest, some c =>
      if (s.waitRegion w).any s.shut then s
      else
        let s := s.setDean { s.dean with newWaits := rest }
        (match w with
         | .firing t p => s.ctxnew t p (s.slotTargets t p.slot) p.left
         | .launch q l =>
           match s.regionOf l.image with
           | some r => s.begin_ c q l r
           | none => s.updQueue q fun x => { x with launches := l :: x.launches }).serveNew fuel
    | _, _ => s

/-- Every wait for a tag looked at again: a region has gone, or takes launches again. -/
def State.reopened (s : State) : State := s.serveNew s.dean.newWaits.length

/-- A reclaimed context becomes FREE (R23 step 5), and waits for its tag are served. -/
def State.freeCtx (s : State) (c : Nat) : State :=
  let s := s.setCtx c {}
  s.reopened

/-- CONTEXT_RECLAIM (R23): steps 1 to 4 for the RETIRING context k, then step 5. -/
def execContextReclaim (s : State) : Host.Outcome State Fault Refusal :=
  match s.focus with
  | .event _ k =>
    let x := s.ctx k
    if x.st ≠ .retiring then .next s else if x.reclaimed then .next (s.freeCtx k) else .next (s.reclaim k)
  | _ => .next s

/-- CTXFREE (R306): a RETIRING context with steps 1 to 4 of R23 done becomes FREE. -/
def execCtxfree (w : DWord) (s : State) : Host.Outcome State Fault Refusal :=
  firing s fun t p => s.deanFire t p w 1 11 false fun s ts l =>
    let c := l.elem 0
    if 4096 ≤ c then s.deanFail t p ts 11 0x0B 0x02 0
    else if (s.ctx c).st ≠ .retiring || !(s.ctx c).reclaimed then s.deanFail t p ts 11 0x0B 0x18 0
    else (s.freeCtx c).emitL t p ts l

/-- IMAGE_UNLOAD (R72): the drained region of IMAGEID k is unloaded. -/
def execImageUnload (s : State) : Host.Outcome State Fault Refusal :=
  match s.focus with
  | .event _ k =>
    match s.regionOf k with
    | none => .next s
    | some r => .next (if r.leaving && r.drained then (s.unload r).reopened else s)
  | _ => .next s

/-- A launch of a resident, laid-out image: started, or put in the line for a tag (R296, R306). -/
def State.dispatch (s : State) (q : Nat) (l : Launch) (r : Region) : State :=
  match s.dean.newWaits, s.freeTag with
  | [], some c => s.begin_ c q l r
  | _, _ => s.setDean { s.dean with newWaits := s.dean.newWaits ++ [.launch q l] }

/-! ## Loading an image (R296, R298) -/

/-- The bytes of a loader's start record (R298). -/
def startBytes (image scratch report x y slot : Nat) : List Byte :=
  toBytes 8 image ++ toBytes 8 scratch ++ toBytes 8 report ++ toBytes 8 (x + 2 ^ 8 * y) ++ toBytes 8 slot ++ List.replicate 24 0

/-- The start record, report block and scratch buffer that the Dean uses: their addresses are the firmware's, aligned as R298 asks
(log entry 27). -/
def startAt (asid image : Nat) : Nat := Config.startRecord asid image / 64 * 64
def reportAt (asid image : Nat) : Nat := Config.reportBlock asid image / 64 * 64
def scratchAt (asid image : Nat) : Nat := Config.loaderScratch asid image / 16 * 16

/-- A load that waits for the word in its report block, at a home address (R298). -/
def State.awaitReport (s : State) (q : Nat) (f : LoadFor) (image at_ : Nat) : State :=
  s.setDean { s.dean with loading := s.dean.loading ++
    [{ queue := q, image := image, for_ := f, report := at_, version := (s.blockMeta (at_ / 64)).version + 1 }] }

/-- A load given to a loader image that carries its start record and reserves its origin itself (R298): the Dean reads the
report address from the record. None where it cannot be reached. -/
def State.carriedLoad (s : State) (q : Nat) (f : LoadFor) (image : Nat) : Option State :=
  let asid := (s.queue q).rcd.asid
  match s.deanRead asid 0 true (startAt asid image) 64 with
  | .error _ => none
  | .ok (bs, s) =>
    match s.translateNow asid 0 (field bs 0x10 8) .read true false with
    | .home at_ => some (s.awaitReport q f image at_)
    | _ => none

/-- A loader task started with a session at an origin (R296; log entry 27): none where its start record or report block
cannot be reached. -/
def State.startLoader (s : State) (q : Nat) (f : LoadFor) (image va c k : Nat) (hdr : List Byte) (x y w h : Nat) : Option State :=
  let asid := (s.queue q).rcd.asid
  let report := reportAt asid image
  let rec_ := startAt asid image
  match s.storeVirtual asid 0 rec_ true (startBytes va (scratchAt asid image) report x y (Config.loaderKeySlot asid % 8)),
        s.translateNow asid 0 report .read true false with
  | some s, .home at_ =>
    let s := s.openSession c k va hdr x y w h
    let t : Task := { st := .runnable, regs := (List.replicate 32 (0 : Word)).set 1 (BitVec.ofNat 64 rec_),
                      pc := BitVec.ofNat 64 (Config.loaderStart asid), priv := true, cfg := true, asid := asid }
    some ((s.setTask c k t).awaitReport q f image at_)
  | _, _ => none

/-- What a try to place an image comes to: started, waiting (for the unload of a region, where one is named), without a
place, or failed. -/
inductive Placing where
  | started (s : State)
  | waits (unload : Option Nat)
  | none_
  | failed (sub : Nat)

/-- Whether another queue's reservation stands (R295). -/
def State.reserved (s : State) (q : Nat) : Bool := s.dean.reserve.head?.any fun z => z ≠ q

/-- Whether the Dean's estimate of package power exceeds the cap (R304, R357). -/
def State.overCap (s : State) : Bool := s.dean.cap < s.dean.estimate

/-- An image placed by search and given to a loader, after unloads (R72, R295, R296, R304), in clusters that no other tenant's
image shares (R339). What another tenant left in the tiles is erased, and its tasks end (R72). A loader image that carries
its start record places it itself (R298). -/
def State.placeImage (s : State) (q : Nat) (f : LoadFor) (image va : Nat) (hdr : List Byte) : Placing :=
  if s.overCap || s.dean.loading.any (fun z => z.image = image) then .waits none
  else if s.reserved q then .none_
  else if Config.loaderCarries (s.queue q).rcd.asid then
    match s.carriedLoad q f image with
    | some s' => .started s'
    | none => .failed 0x02
  else
    match s.search (s.queue q).rcd.tenant hdr with
    | none =>
      if s.dean.regions.any fun r => r.leaving then .waits none
      else
        match s.unloadNext with
        | some i => .waits (some i)
        | none => .none_
    | some (x, y) =>
      let c := clusterOf (tileOf x y)
      let s := (s.rectTiles x y (hdrWidth hdr) (hdrHeight hdr)).foldl (fun (z : State) t => z.takeTile (s.queue q).rcd.tenant t) s
      match (s.cluster c).core.freeTask with
      | none => .waits none
      | some k =>
        match s.startLoader q f image va c k hdr x y (hdrWidth hdr) (hdrHeight hdr) with
        | some s' => .started s'
        | none => .failed 0x02

/-- The state of what waits for a place: the region that goes to make room for a queue's image is marked (R72). -/
def State.unloading (s : State) (q : Nat) (i : Option Nat) : State :=
  match i with
  | some i => s.updRegion i fun r => { r with leaving := true, next := some (s.queue q).rcd.tenant }
  | none => s

/-- The header of an image that a queue's launch names, at the address the Dean knows for it, and the state after the
read (log entry 27): else the launch's subcode. -/
def State.imageHeader (s : State) (q image : Nat) : Except Nat (Nat × List Byte × State) :=
  let va := Config.imageAddress image
  match s.deanRead (s.queue q).rcd.asid 0 true va hdrBytes with
  | .error _ => .error 0x17
  | .ok (h, s') =>
    if field h 0x10 4 ≠ image then .error 0x17 else if !hdrOk h then .error 0x02 else .ok (va, h, s')

/-- Whether a launch's tokens may be injected (R20, R293): none fails R20 but for CTX, and each names an entry. -/
def launchTokens (nentry : Nat) (images : List (List Byte)) : Option (List Token) :=
  images.foldr (fun bs r => match tokenOfImage bs, r with
    | some t, some ts => if t.tile < nentry then some (t :: ts) else none
    | _, _ => none) (some [])

/-! ## DEAN_SELECT (R294) -/

/-- Whether a load is the host's RESTORE's and takes no dispatch (R322). -/
def State.ofCommand (s : State) (l : Loading) : Bool :=
  match l.for_ with
  | .restore c => s.dean.doing = .restore c true
  | .launch _ => false

/-- Whether a queue is eligible (R294, R295): the Dean loads no image for it that its next launch must wait for. -/
def State.eligible (s : State) (q : Nat) (x : Queue) : Bool :=
  x.rcd.weight ≠ 0 && x.waiting && !(s.dean.reserve.contains q && s.dean.reserve.head? ≠ some q) &&
  !(s.dean.loading.any fun l => l.queue = q && !s.ofCommand l)

/-- What a try to start a queue's head launch comes to. -/
inductive Tried where
  | started (s : State)
  | waits (s : State)
  | skipped

/-- A launch of a queue already taken from where it waited, in `s`: started, rejected, or its image placed (R296). -/
def State.tryLaunch (s0 s : State) (q : Nat) (l : Launch) : Tried :=
  let bad (nentry : Nat) : Bool := l.tokens.any fun t => nentry ≤ t.tile
  match s.regionOf l.image with
  | some r =>
    if bad r.entries.length then .started ((s.reject q l 0x06).advance q)
    else if !r.laid || s0.shut r then .waits s0
    else .started ((s.dispatch q l r).advance q)
  | none =>
    match s.imageHeader q l.image with
    | .error u => .started ((s.reject q l u).advance q)
    | .ok (va, h, s') =>
      if bad (field h 0x18 1) then .started ((s.reject q l 0x06).advance q)
      else
        match s'.placeImage q (.launch l) l.image va h with
        | .started z => .started z
        | .waits i => .waits (s0.unloading q i)
        | .none_ => .skipped
        | .failed u => .started ((s.reject q l u).advance q)

/-- The head launch of a queue's stream: its launch, or the subcode of its rejection (R293), and the images it takes. -/
def Queue.headLaunch (q : Queue) : Option (Except Launch Launch × Nat) :=
  match q.headStream with
  | none => none
  | some [] => none
  | some (h :: ts) =>
    match tokenOfImage h with
    | none => some (.error { tag := field h 24 4 }, 1)
    | some t =>
      let l : Launch := { image := t.elem 0, tag := t.elem 2 }
      if !launchHeader t || t.elem 1 ≥ 2 ^ 16 then some (.error l, 1)
      else
        match launchTokens 16 ts with
        | none => some (.error l, 1 + ts.length)
        | some toks => some (.ok { l with tokens := toks }, 1 + ts.length)

/-- A restore that takes a dispatch (R322); it is skipped only where no region can be placed (R294). -/
def State.tryRestore (s : State) (q c : Nat) : Tried :=
  let x := s.ctx c
  let drop (s : State) : State := s.updQueue q fun y => { y with restore := y.restore.filter fun z => z ≠ c }
  if x.st ≠ .saved then .started (drop s)
  else
    match s.regionOf x.image with
    | some r =>
      if !r.laid || s.shut r then .waits s
      else
        match s.restoreInto c r with
        | some s' => .started (((drop s').advance q).progressed c)
        | none => .waits s
    | none =>
      match s.imageHeader q x.image with
      | .error _ => .waits s
      | .ok (va, h, s') =>
        match s'.placeImage q (.restore c) x.image va h with
        | .started z => .started z
        | .waits i => .waits (s.unloading q i)
        | .none_ => .skipped
        | .failed _ => .waits s

/-- A try to start what a queue holds first: a restore, a launch of the Dean, or its stream's head (R296, R297, R322). -/
def State.tryQueue (s : State) (q : Nat) : Tried :=
  let x := s.queue q
  match x.restore, x.launches with
  | c :: _, _ => s.tryRestore q c
  | [], l :: rest => State.tryLaunch s (s.setQueue q { x with launches := rest }) q l
  | [], [] =>
    match x.headLaunch with
    | none => .waits s
    | some (r, n) =>
      let size := 4096 * x.rcd.qlen
      let used := (x.images.take n).foldl (fun m b => m + b.length) 0
      let s' := (s.setQueue q { x with images := x.images.drop n, head := (x.head + used) % size }).admitHeld q (x.held.length)
      match r with
      | .error l => .started ((s'.reject q l 0x06).advance q)
      | .ok l => State.tryLaunch s s' q l

/-- Queues tried in order until one starts (R294). -/
def State.tryQueues (s : State) : List Nat → State
  | [] => s
  | q :: qs =>
    match s.tryQueue q with
    | .started s' => s'
    | .waits s' => s'.tryQueues qs
    | .skipped => (s.skip q).tryQueues qs

/-- Pass values more than 2^30 below V raised, those of queues that have held nothing yet too (R294). -/
def State.raisePasses (s : State) : State :=
  let floor := s.dean.vtime - (2 ^ 30 : Nat)
  let up (v : BitVec 32) : BitVec 32 := if serialLt v floor then floor else v
  s.setDean { s.dean with queues := s.dean.queues.map fun p => (p.1, { p.2 with pass := up p.2.pass }), idlePass := up s.dean.idlePass }

/-- DEAN_SELECT (R294): eligible queues are tried by pass, then number. A launch that waits for an unload, or for anything
but a region, is no skip, and the queues after it are tried (R295). -/
def execDeanSelect (s : State) : Host.Outcome State Fault Refusal :=
  let s := s.raisePasses
  let qs := (s.dean.queues.filter fun p => s.eligible p.1 p.2).insertionSort fun a b =>
    serialLt a.2.pass b.2.pass || (a.2.pass = b.2.pass && a.1 ≤ b.1)
  .next (s.tryQueues (qs.map fun p => p.1))

/-! ## LOADER_REPORT (R298) and BANK_ASSIGN (R370, R310) -/

/-- A loading that is over. -/
def State.dropLoading (s : State) (l : Loading) : State :=
  s.setDean { s.dean with loading := s.dean.loading.filter fun z => z ≠ l }

/-- The region that gives way to a restore of its image's context stays, its place among the regions last (R364). -/
def State.unmoved (s : State) (image : Nat) : State :=
  (s.setDean { s.dean with regions := s.dean.regions.map fun r => if r.image = image then { r with moving := false } else r }).reopened

/-- A loading that failed with a code: a launch ends with STATUS 2, and a dispatch counts as a start (R294, R296). A
restore leaves its context SAVED, and the host's RESTORE that waits for it ends with Check. -/
def State.failLoading (s : State) (l : Loading) (sub : Nat) : State :=
  let s := s.dropLoading l
  match l.for_ with
  | .launch x => (s.reject l.queue x sub).advance l.queue
  | .restore c =>
    let s := s.unmoved (s.ctx c).image
    if s.dean.doing = .restore c true then s.setDean { s.dean with doing := .decided 5 sub } else s

/-- LOADER_REPORT (R298): queue k's loader has stored its report word. An image that it has placed in a cluster of another
tenant's is not kept (R339; log entry 151). -/
def execLoaderReport (s : State) : Host.Outcome State Fault Refusal :=
  match s.focus with
  | .event _ k =>
    match s.dean.loading.find? fun l => l.queue = k && !l.accepted with
    | none => .next s
    | some l =>
      if !reached (s.blockMeta (l.report / 64)).version l.version then .next s
      else
        let r := (s.queue k).rcd
        match s.loadBytes (s.actingTenant 0 r.asid) l.report 2 8 with
        | none => .next (s.failLoading l 0x02)
        | some (bs, s') =>
          let w := field bs 0 8
          if bit w 63 then .next (s'.failLoading l (w % 256))
          else if (s'.regionOf l.image).all fun z => z.moving then .next (s'.failLoading l 0x02)
          else
            let s' := s'.updRegion l.image fun z => { z with tenant := r.tenant, asid := r.asid }
            let z := (s'.regionOf l.image).getD {}
            if s'.strangers r.tenant z.x0 z.y0 z.w z.h then .next ((s'.unload z).failLoading l 0x15) else
            .next (s'.setDean { s'.dean with loading := s'.dean.loading.map fun z => if z = l then { z with accepted := true } else z })
  | _ => .next s

/-- What follows a layout for the launch or restore that made the image resident. -/
def State.loaded (s : State) (l : Loading) (r : Region) : State :=
  let s := s.dropLoading l
  match l.for_ with
  | .launch x => (s.dispatch l.queue x r).advance l.queue
  | .restore _ => s

/-- BANK_ASSIGN (R370, R310): a resident image whose report has been accepted takes its commons banks, drained and
scrubbed, and is laid out; its first launch starts. -/
def execBankAssign (s : State) : Host.Outcome State Fault Refusal :=
  match s.focus with
  | .event _ k =>
    match s.regionOf k with
    | none => .next s
    | some r =>
      let load := s.dean.loading.find? fun l => l.image = k
      let moves := s.bankMoves r
      if r.banked || load.any (fun l => !l.accepted) || !s.banksReady r moves then .next s
      else
        let s := moves.foldl (fun (z : State) m => z.eraseBank r.tenant m.1 m.2) s
        let s := (s.regionTiles r).foldl (fun (z : State) t => z.takeTile r.tenant t) s
        let s := s.updRegion k fun z => { z with banked := true }
        match s.layOut r with
        | some s' => .next (match load with
          | some l => s'.loaded l (((s'.regionOf k)).getD r)
          | none => s')
        | none => .next (match load with
          | some l => (s.unload r).failLoading l 0x02
          | none => s.unload r)
  | _ => .next s

/-! ## Dean channels (R271, R297) -/

/-- The token at the head of a Dean channel, with the state without it. -/
def State.channelHead (s : State) (n : Nat) : Option (Packet × State) :=
  (s.unitHead (.dean n)).map fun h => (h.1, { s with net := s.net.eraseIdx h.2 })

/-- A fault of the sender of a token to a Dean channel. -/
def State.channelFault (s : State) (p : Packet) (cause sub : Nat) : State :=
  (s.raise (s.slotRecord p.edge.tile p.edge.slot p.tok.ctx p.tok.lo cause sub 0 0 0)).1

/-- HOST_MESSAGE (R297): the token joins the completion ring as a record with STATUS 3. -/
def execHostMessage (s : State) : Host.Outcome State Fault Refusal :=
  match s.channelHead 0 with
  | none => .next s
  | some (p, s') =>
    let x := s'.ctx p.tok.ctx
    if p.tok.act = .bell then .next s'
    else .next (s'.complete x.queue { tag := x.tag, ctx := p.tok.ctx, status := 3, msg := p.tok.image })

/-- A launch that the Dean adds to a queue. -/
def State.addLaunch (s : State) (q : Nat) (l : Launch) : State :=
  let x := s.queue q
  (s.setQueue q { x with launches := x.launches ++ [l] }).queueGain q x

/-- CHILD_LAUNCH (R297): a launch header to dean.1, whose payload goes to entry 0. -/
def execChildLaunch (s : State) : Host.Outcome State Fault Refusal :=
  match s.channelHead 1 with
  | none => .next s
  | some (p, s') =>
    let a := p.tok
    match a.act with
    | .normal =>
      if a.fmt = 31 && a.len = 4 && a.mask = 15 && a.elem 3 = 0 then
        .next (s'.addLaunch (s'.ctx a.ctx).queue
          { image := a.elem 0, tag := a.elem 2,
            tokens := [{ act := .normal, fmt := 31, len := 4, mask := 15, itag := a.itag, data := a.data }] })
      else .next (s'.channelFault p 0x0B 0x06)
    | .sticky => .next (s'.channelFault p 0x0B 0x06)
    | _ => .next s'

/-- The launches of a bucket request (R271): image, rows and bound, in order. -/
def bucketPlan (table : List (Nat × Nat)) (count : Nat) : List (Nat × Nat × Nat) :=
  match table.getLast? with
  | none => []
  | some (bound, image) =>
    List.replicate (count / bound) (image, bound, bound) ++
    (if count % bound = 0 then []
     else match table.find? fun b => count % bound ≤ b.1 with
       | some b => [(b.2, count % bound, b.1)]
       | none => [])

/-- The run that a bucket launch receives at entry 0 (R271). -/
def bucketRun (expert row rows bound : Nat) : Token :=
  { act := .normal, fmt := 11, len := 4, mask := 15, itag := BitVec.ofNat 32 (expert * 2 ^ 24 + row),
    data := [BitVec.ofNat 64 expert, BitVec.ofNat 64 row, BitVec.ofNat 64 rows, BitVec.ofNat 64 bound] }

/-- The bucket launches added to a queue in order, from a first row. -/
def State.addBuckets (s : State) (q tag id expert : Nat) : Nat → List (Nat × Nat × Nat) → State
  | _, [] => s
  | row, (image, rows, bound) :: rest =>
    (s.addLaunch q { image := image, tag := tag, tokens := [bucketRun expert row rows bound], parent := some id }).addBuckets q tag id
      expert (row + rows) rest

/-- Whether the accesses of a context that a tile's port held before a cycle have been performed (R221). -/
def State.accessesDone (s : State) (t ctx cycle : Nat) : Bool :=
  (s.tile t).port.all fun q => cycle ≤ q.born || q.ctx ≠ ctx || q.groups.all fun g => !g.open_

/-- BUCKET_REQUEST (R271): a token at the head of dean.2. A request waits there until its predecessors at the sender's port have
been performed (R221), so that the accesses of what it launches come after them. -/
def execBucketRequest (s : State) : Host.Outcome State Fault Refusal :=
  match s.channelHead 2 with
  | none => .next s
  | some (p, s') =>
    let a := p.tok
    let x := s'.ctx a.ctx
    let ok := a.fmt = 11 && a.len = 4 && a.mask = 15 && !x.bucket.isEmpty && a.elem 0 < 256 && a.elem 2 + a.elem 1 ≤ 2 ^ 24
    match a.act with
    | .normal =>
      if !ok then .next (s'.channelFault p 0x0B 0x12)
      else if !s.accessesDone p.edge.tile a.ctx p.sent then .next s
      else
        let plan := bucketPlan x.bucket (a.elem 1)
        let id := s'.dean.nextBucket
        let b : Bucket := { id := id, tile := p.edge.tile, ctx := a.ctx, tgt := BitVec.ofNat 18 (a.elem 3), itag := a.itag,
                            total := plan.length, left := plan.length }
        let s' := s'.setDean { s'.dean with nextBucket := id + 1, buckets := s'.dean.buckets ++ [b] }
        .next (s'.addBuckets x.queue x.tag id (a.elem 0) (a.elem 2) plan)
    | .sticky => .next (s'.channelFault p 0x0B 0x12)
    | .empty => .next (s'.channelFault p 0x0B 0x12)
    | _ => .next s'

/-- BUCKET_COMPLETION (R271): the count of the first request whose launches have all completed goes to its target. That of
a SAVED context waits for its restore. -/
def execBucketCompletion (s : State) : Host.Outcome State Fault Refusal :=
  match s.dean.buckets.find? fun b => b.left = 0 && (s.ctx b.ctx).st ≠ .saved with
  | none => .next s
  | some b =>
    let s := s.setDean { s.dean with buckets := s.dean.buckets.filter fun z => z.id ≠ b.id }
    let c := clusterOf b.tile
    let tok := oneN32 b.ctx b.itag b.total
    if b.tgt = 0 || (s.ctx b.ctx).st ≠ .live && (s.ctx b.ctx).st ≠ .frozen then .next s
    else
      let e : Edge := { tile := b.tile, slot := 35 }
      match s.resolve b.tile b.tgt with
      | none => .next (s.raise (s.slotRecord b.tile 0 b.ctx b.itag.toNat 0x09 0x00 0 0 0)).1
      | some (.tile d, slot, port) => .next (s.deanInject (tok.sendTo d slot port) e)
      | some (d, _, _) => .next (s.inject c tok e d)

/-- DEAN_CHANNEL_RESERVED (R297): channels 3 to 7 raise Route, subcode Dean, against the sender; 8 to 15 are the
firmware's, which takes what it gets (log entry 167). -/
def execDeanChannelReserved (s : State) : Host.Outcome State Fault Refusal :=
  match s.focus with
  | .event _ k =>
    if k < 3 || 16 ≤ k then .next s
    else
      match s.channelHead k with
      | none => .next s
      | some (p, s') => if k < 8 && p.tok.act ≠ .bell then .next (s'.channelFault p 0x09 0x02) else .next s'
  | _ => .next s

end Sys2Proof.Machine
end

