-- ==== Sys2Proof/Machine/TaskOps.lean ====
section
/-! DEFINITION. The task, CRC-free system and debug instructions of a control core (R286, R287, R289, R323 to R325), a
word that is no instruction (R43), and the events of tasks and VCs (R275, R278, R286, R290). -/

namespace Sys2Proof.Machine

/-! ## VCs (R278) -/

/-- The VCs bound to a task, and those that hold a token, as masks (R274). -/
def Core.vcBind (x : Core) (k : Nat) : Nat := x.vcs.foldl (fun n v => if v.2.bound = some k then n + 2 ^ v.1 else n) 0
def Core.vcPend (x : Core) (k : Nat) : Nat :=
  x.vcs.foldl (fun n v => if v.2.bound = some k && !v.2.queue.isEmpty then n + 2 ^ v.1 else n) 0

/-- A VC of a core. -/
def State.vc (s : State) (c n : Nat) : Vc := assocGet {} (s.cluster c).core.vcs n
def State.setVc (s : State) (c n : Nat) (v : Vc) : State :=
  let x := (s.cluster c).core
  s.setCore c { x with vcs := assocSet x.vcs n v }

/-- A task that a VC's token wakes: one in RECV on that VC, or in WFI (R275, R289). -/
def Task.delivered (t : Task) (n : Nat) : Task :=
  match t.st with
  | .blocked (.recv m) => if m = n then t.ready else t
  | .blocked .wfi => t.retire.ready
  | _ => t

/-- VC_DELIVERY (R278): the first packet for VC k of cluster u joins its queue of 4, or stays where it is. A BELL is
consumed: a task's state is saved with its context (R291). -/
def execVcDelivery (s : State) : Host.Outcome State Fault Refusal :=
  match s.focus with
  | .event u k =>
    match s.unitHead (.vc u k) with
    | none => .next s
    | some (p, i) =>
      let s' : State := { s with net := s.net.eraseIdx i }
      if p.tok.act = .bell then .next s'
      else
        let v := s.vc u k
        if 4 ≤ v.queue.length then .next s
        else
          let s' := s'.setVc u k { v with queue := v.queue ++ [p.tok] }
          .next (match v.bound with
            | some j => s'.updTask u j fun t => t.delivered k
            | none => s')
  | _ => .next s

/-! ## RECV, SEND, BIND (R286, R287) -/

/-- RECV: a token of a bound VC taken, stored where gA asks for it, with its CTX adopted. -/
def execRecv (d a b : BitVec 5) (s : State) : Host.Outcome State Fault Refusal :=
  tasking s fun c k t => s.writing c k t d
    (let n := (t.reg b).toNat
     let at_ := (t.reg a).toNat
     if 16 ≤ n then s.taskFault c k 0x0B 0x08
     else if (s.vc c n).bound ≠ some k then s.taskFault c k 0x0B 0x14
     else if a ≠ 0 && at_ % 16 ≠ 0 then s.taskMemFault c k 0x0F 0x06 at_ 0
     else
       match (s.vc c n).queue with
       | [] => s.block c k (.recv n)
       | tok :: rest =>
         let take (s : State) : State :=
           let s := (s.setVc c n { s.vc c n with queue := rest }).progressed tok.ctx
           s.updTask c k fun t => { t.setReg d (BitVec.ofNat 64 tok.word0) with ctx := tok.ctx }.retire
         if a = 0 then take s
         else
           match s.taskWrite c k at_ tok.image with
           | .stop s' => s'
           | .ok s' => take s')

/-- The tokens in a cluster's injection queue (R286): those of SENDs that wait outside its router. -/
def State.sendQueue (s : State) (c : Nat) : Nat := (s.net.filter fun p => p.place = .source c && p.edge.slot = 34).length

/-- SEND of a token image: checked (R20, R287) and injected at t0's router port. -/
def execSend (d a : BitVec 5) (s : State) : Host.Outcome State Fault Refusal :=
  tasking s fun c k t => s.writing c k t d
    (let at_ := (t.reg a).toNat
     if at_ % 16 ≠ 0 then s.taskMemFault c k 0x0F 0x06 at_ 0
     else if 8 ≤ s.sendQueue c then s.block c k .send
     else
       match s.taskRead c k t at_ 16 with
       | .stop s' => s'
       | .ok head =>
         let n := imageBytes (field head 0 8)
         match s.taskRead c k t (at_ + 16) (n - 16) with
         | .stop s' => s'
         | .ok body =>
           let ctx := bits (field head 0 8) 38 27
           if ctx ≠ t.ctx && !t.priv then s.taskFault c k 0x07 0x09
           else
             match (tokenOfImage (head ++ body)).filter fun _ => (s.ctx ctx).st = .live with
             | none => (s.countBad ctx).taskFault c k 0x0B 0x06
             | some tok =>
               if !((s.ctxRegion ctx).any fun z => z.holds tok.destTile && !s.fused tok.destTile) then s.taskFault c k 0x09 0x00
               else
                 (s.inject c tok { tile := tileIn c 0, slot := 34 } (.tile tok.destTile)).updTask c k fun t =>
                   (t.setReg d 0).retire)

def execBind (d a : BitVec 5) (s : State) : Host.Outcome State Fault Refusal :=
  tasking s fun c k t => s.writing c k t d
    (let v := (t.reg a).toNat
     let n := v % 16
     let give (s : State) (r : Word) : State := s.updTask c k fun t => (t.setReg d r).retire
     let x := s.vc c n
     if 32 ≤ v then s.taskFault c k 0x0B 0x08
     else if bit v 4 then
       if x.bound = some k then give (s.setVc c n { x with bound := none }) 0 else give s 2
     else if x.bound = none || x.bound = some k then give (s.setVc c n { x with bound := some k }) 0
     else give s 1)

/-! ## SPAWN, YIELD, SLEEP, KILL -/

def execSpawn (d a b : BitVec 5) (s : State) : Host.Outcome State Fault Refusal :=
  tasking s fun c k t => s.writing c k t d
    (let q : SpawnReq := { task := k, reg := d.toNat, pc := t.reg a, arg := t.reg b }
     if (t.reg a).toNat % 4 ≠ 0 then s.taskFault c k 0x0B 0x08
     else
       let core := (s.cluster c).core
       match core.freeTask with
       | some j => (s.startChild c q j).updTask c k fun z => { z with st := .running }
       | none => (s.setCore c { core with spawnWait := core.spawnWait ++ [q] }).block c k .spawn)

def execYield (s : State) : Host.Outcome State Fault Refusal :=
  tasking s fun c k t => (s.setTask c k t.retire).yieldTask c k

def execSleep (a : BitVec 5) (s : State) : Host.Outcome State Fault Refusal :=
  tasking s fun c k t =>
    let n := (t.reg a).toNat % 2 ^ 32
    if n = 0 then (s.setTask c k t.retire).yieldTask c k else s.block c k (.sleep (s.cycle + n))

def execKill (d a : BitVec 5) (s : State) : Host.Outcome State Fault Refusal :=
  tasking s fun c k t =>
    let v := (t.reg a).toNat
    let j := v % 8
    if 16 ≤ v then s.taskFault c k 0x0B 0x08
    else if bit v 3 || j = k then s.endTask c k
    else
      let no := (s.task c j).st = .free || (s.task c j).tenant ≠ t.tenant
      s.writing c k t d ((if no then s else s.endTask c j).updTask c k fun t => (t.setReg d (flagWord no)).retire)

/-! ## CSRs (R273, R274) -/

/-- The status word (R273). -/
def Task.status (t : Task) (k : Nat) : Nat :=
  let b (x : Bool) (n : Nat) : Nat := if x then 2 ^ n else 0
  t.tenant % 2 ^ 16 * 2 ^ 32 + t.ctx % 2 ^ 12 * 2 ^ 16 + k % 8 * 2 ^ 8 + b t.inh 3 + b t.priv 2 + b t.map 1 + b t.cfg 0

/-- What a CSR reads as (R274); none for a code that the table does not hold. -/
def State.csr (s : State) (c k : Nat) (t : Task) (n : Nat) : Option Word :=
  match n with
  | 0x000 => some (BitVec.ofNat 64 (t.status k))
  | 0x001 => some t.epc
  | 0x002 => some t.cause
  | 0x003 => some t.tvec
  | 0x004 => some t.badaddr
  | 0x005 => some (t.score.setWidth 64)
  | 0x006 => some (BitVec.ofNat 64 ((s.cluster c).core.vcBind k))
  | 0x007 => some (BitVec.ofNat 64 ((s.cluster c).core.vcPend k))
  | 0x008 => some (BitVec.ofNat 64 s.cycle)
  | 0x009 => some t.instret
  | 0x00A => some (BitVec.ofNat 64 (t.asid % 2 ^ 16))
  | 0x00B => some (BitVec.ofNat 64 (if t.ctx = 0xFFF then 0 else (s.faultArea t.ctx).getD 0))
  | 0x010 => some 0
  | _ => none

def execCsrr (d : BitVec 5) (n : BitVec 15) (s : State) : Host.Outcome State Fault Refusal :=
  tasking s fun c k t => s.writing c k t d
    (match s.csr c k t n.toNat with
     | none => s.taskFault c k 0x0B 0x13
     | some v => s.setTask c k (t.setReg d v).retire)

/-- A write of XINV (R213): it returns once every access already translated under the ASID is performed. -/
def State.writeXinv (s : State) (c k : Nat) (t : Task) (d : BitVec 5) (asid : Nat) : State :=
  if !t.map then s.taskFault c k 0x07 0x08
  else
    let s := (s.setTask c k (t.setReg d 0)).invalidate asid
    if s.translatedOpen asid then s.block c k (.xinv asid) else s.updTask c k Task.retire

def execCsrw (d a : BitVec 5) (n : BitVec 15) (s : State) : Host.Outcome State Fault Refusal :=
  tasking s fun c k t => s.writing c k t d
    (let v := t.reg a
     let put (t' : Task) (old : Word) : State := s.setTask c k (t'.setReg d old).retire
     match n.toNat with
     | 0x001 => put { t with epc := v } t.epc
     | 0x002 => put { t with cause := v &&& 0xFFFF } t.cause
     | 0x003 => if v.toNat % 4 ≠ 0 then s.taskFault c k 0x0B 0x13 else put { t with tvec := v } t.tvec
     | 0x010 => s.writeXinv c k t d (v.toNat % 2 ^ 16)
     | _ => s.taskFault c k 0x0B 0x13)

/-! ## TRAP, ERET, WFI, and words that are no instruction -/

def execTrapC (code : BitVec 8) (s : State) : Host.Outcome State Fault Refusal :=
  tasking s fun c k t => s.trap c k 0x10 code.toNat t.pc.toNat 0 (t.pc + 4) 0

def execEret (s : State) : Host.Outcome State Fault Refusal :=
  tasking s fun c k t => if t.inh then s.setTask c k t.eret else s.taskFault c k 0x0B 0x15

def execWfi (s : State) : Host.Outcome State Fault Refusal :=
  tasking s fun c k t => if (s.cluster c).core.vcPend k ≠ 0 then s.setTask c k t.retire else s.block c k .wfi

/-- BAD_OP (R43): an opcode that R42 does not hold is BadOp, any other rejected word BadField. -/
def execBadOp (w : BitVec 32) (s : State) : Host.Outcome State Fault Refusal :=
  tasking s fun c k _ =>
    match decodeCore w with
    | .error (.badOp _) => s.taskFault c k 0x0B 0x07
    | _ => s.taskFault c k 0x0B 0x08

/-! ## HALT, BELL, QUIESCE (R323 to R325) -/

/-- A FROZEN context goes on: LIVE, with its ports issuing again (R234, R324). -/
def State.unfreeze (s : State) (c : Nat) : State :=
  let s := s.updCtx c fun x => { x with st := .live, why := .none }
  match s.ctxRegion c with
  | some r => (s.regionTiles r).foldl (fun (z : State) t => if (z.tile t).port.isEmpty then z else z.issuePort t) s
  | none => s

/-- An instruction on the context that gA[11:0] names (R323): another tenant's task without PRIV gets 2. -/
def ctxOp (s : State) (d a : BitVec 5) (width : Nat) (f : Nat → Nat → Nat → (Word → State → State) → State) :
    Host.Outcome State Fault Refusal :=
  tasking s fun c k t => s.writing c k t d
    (let v := (t.reg a).toNat
     let give (r : Word) (s : State) : State := s.updTask c k fun t => (t.setReg d r).retire
     if 2 ^ width ≤ v then s.taskFault c k 0x0B 0x08
     else if !t.priv && (s.ctx (v % 2 ^ 12)).tenant ≠ t.tenant then give 2 s
     else f c k v give)

def execHalt (d a : BitVec 5) (s : State) : Host.Outcome State Fault Refusal :=
  ctxOp s d a 13 fun _ _ v give =>
    let n := v % 2 ^ 12
    let x := s.ctx n
    if x.st = .frozen && x.why = .fault then give 3 s
    else if bit v 12 then
      if x.st = .frozen && x.why = .halt then give 0 (s.unfreeze n) else give 1 s
    else if x.st = .live then give 0 (s.freeze n .halt)
    else give 1 s

def execBell (d a : BitVec 5) (s : State) : Host.Outcome State Fault Refusal :=
  ctxOp s d a 12 fun c k n give =>
    if (s.ctx n).st ≠ .live then give 1 s
    else (if (s.ctx n).bell.isSome then s else s.ringBells n false).block c k (.bell n d.toNat)

def execQuiesce (d a : BitVec 5) (s : State) : Host.Outcome State Fault Refusal :=
  ctxOp s d a 12 fun c k n give =>
    match (s.ctx n).st with
    | .frozen => s.block c k (.quiesce n d.toNat none)
    | .live => s.block c k (.quiesce n d.toNat (some s.cycle))
    | _ => give 1 s

/-! ## The events of tasks -/

/-- FETCH_BLOCK (R290): the block that task k of cluster u waits for reaches its fetch line: of its own image in the code
window (R310), else through the fetch entry at version ANY. -/
def State.fetchBlock (s : State) (c k : Nat) (t : Task) : State :=
  let pc := t.pc.toNat
  let fill (s : State) (bs : List Byte) : State := s.updTask c k fun t => ({ t with line := some (pc / 64, bs) } : Task).ready
  if inCode pc && pc < 2 ^ 56 then
    match t.mayFetch, t.image.bind fun z => s.regionOf z.1 with
    | true, some r => fill s (slice r.bytes (pc % 2 ^ 32 / 64 * 64) 64)
    | _, _ => s.taskFault c k 0x07 0x03
  else
    match translate t.fentry t.asid pc .fetch t.priv false with
    | .miss => (s.addMiss { who := .taskFetch c k, asid := t.asid, tenant := t.tenant, va := pc, kind := .fetch }).block c k (.walk true)
    | .bad e u => s.taskFault c k e u
    | .home h =>
      match s.keyFor (s.actingTenant t.tenant t.asid) h with
      | none => s.taskFault c k 0x07 0x0C
      | some key =>
        if s.inputBlocked (h / 64) (s.homeInput c (h / 64)) then s
        else match s.homeAct { block := h / 64, op := .load, key := key, tenant := s.actingTenant t.tenant t.asid } with
        | .done s' o => fill s' o.bytes
        | .bad e u => s.taskFault c k e u
        | _ => s

def execFetchBlock (s : State) : Host.Outcome State Fault Refusal :=
  match s.focus with
  | .event u k =>
    let t := s.task u k
    if t.st = .blocked .fetch then .next (s.fetchBlock u k t) else .next s
  | _ => .next s

/-- SLEEP_EXPIRY (R286): the sleep of task k of cluster u expires, which ends every WFI of its core too (R289; log entry
136). -/
def execSleepExpiry (s : State) : Host.Outcome State Fault Refusal :=
  match s.focus with
  | .event u k =>
    match (s.task u k).st with
    | .blocked (.sleep n) =>
      if s.cycle < n then .next s
      else
        let s := s.updTask u k fun t => t.retire.ready
        .next ((s.cluster u).core.tasks.foldl (fun (z : State) p =>
          if (z.task u p.1).st = .blocked .wfi then z.updTask u p.1 fun t => t.retire.ready else z) s)
    | _ => .next s
  | _ => .next s

/-- QUANTUM_EXPIRY (R275): the running task of cluster u has used its quantum and another is RUNNABLE. -/
def execQuantumExpiry (s : State) : Host.Outcome State Fault Refusal :=
  match s.focus with
  | .event u _ =>
    match (s.cluster u).core.running with
    | some k => if s.quantumOver u then .next ((s.yieldTask u k).switchTask u) else .next s
    | none => .next s
  | _ => .next s

end Sys2Proof.Machine
end

