-- ==== Sys2Proof/Machine/Net.lean ====
section
/-! DEFINITION. The network (R328 to R337; log entry 9): the hop of one packet through tile ports, routers and neighbour
links. Ports: 0 local, 1 north, 2 east, 3 south, 4 west. -/

namespace Sys2Proof.Machine

/-! ## Directions (R330) -/

/-- The neighbour of a router in a direction. -/
def torusNext (c way : Nat) : Nat :=
  let x := c % 32
  let y := c / 32
  if way = 2 then 32 * y + (x + 1) % 32 else if way = 4 then 32 * y + (x + 31) % 32
  else if way = 3 then 32 * ((y + 1) % 16) + x else 32 * ((y + 15) % 16) + x

/-- The way from a tile to another of its cluster: x first. -/
def meshWay (t d : Nat) : Nat :=
  if tileX t < tileX d then 2 else if tileX d < tileX t then 4 else if tileY t < tileY d then 3 else 1

/-- The neighbour of a tile in a direction. -/
def meshNext (t way : Nat) : Nat :=
  if way = 2 then t + 1 else if way = 4 then t - 1 else if way = 3 then t + 128 else t - 128

/-- Whether two tiles are grid neighbours (R337). -/
def gridNeighbours (t d : Nat) : Bool :=
  (tileY t = tileY d && (tileX t + 1 = tileX d || tileX d + 1 = tileX t)) ||
  (tileX t = tileX d && (tileY t + 1 = tileY d || tileY d + 1 = tileY t))

/-! ## Room (R329, R332) -/

/-- The multicast packets of a VC whose copies have not all left a router's input port: each holds its buffer (R329, R335). -/
def State.forked (s : State) (c port vc : Nat) : Nat :=
  ((s.net.filter fun p => p.vc = vc && (match p.place with
    | .fork d q _ => d = c && q = port
    | _ => false)).map fun p => ({ p with place := .router c port } : Packet)).dedup.length

/-- Packets of a VC in a buffer. -/
def State.occupants (s : State) (pl : Place) (vc : Nat) : Nat :=
  (s.net.filter fun p => p.place = pl && p.vc = vc).length + (match pl with
    | .router c port => s.forked c port vc
    | _ => 0)

/-- Free packet buffers of 2. -/
def State.freeBuffers (s : State) (pl : Place) (vc : Nat) : Nat := 2 - s.occupants pl vc

/-- Tokens on a cluster's neighbour link in a direction (R337). -/
def State.linkLoad (s : State) (c way : Nat) : Nat :=
  (s.net.filter fun p => p.mcast = none && (match p.place with
    | .link t w => clusterOf t = c && w = way
    | _ => false)).length

/-- Whether the rows of A that an MMAC passes east fill the link's 64 bytes in every cycle (R172, R185): those of every class
but F32, and of bit planes where no fewer planes of A than of B are read (log entry 153). -/
def ArrayCmd.fillsLink (q : ArrayCmd) : Bool :=
  let f := if q.fmt = 32 then q.d.bfmt else q.fmt
  f ≠ 1 && (fmtPlanes f = 0 || planesRead (fmtPlanes q.d.bfmt) q.d.bpl ≤ planesRead (fmtPlanes f) q.d.apl)

/-- Whether an MMAC takes every cycle of a cluster's east link (R337). -/
def State.linkTaken (s : State) (c way : Nat) : Bool :=
  way = 2 && (s.cluster c).array.queue.any fun q => q.op = .mmac && q.started && q.d.gx + 1 < q.d.gw && q.fillsLink

/-! ## One hop (R330) -/

/-- The tile from whose router port a packet sets out: the tile of its output queue, or t0 of the cluster for what a streamer
or a SEND puts in there (R191, R286). -/
def Packet.startTile (p : Packet) : Option Nat :=
  match p.place with
  | .outq t => some t
  | .source c => if p.edge.slot = 33 || p.edge.slot = 34 then some (tileIn c 0) else none
  | _ => none

/-- Where a packet for a tile goes next, when the next buffer has room: none while it has to stay (R329, R332, R337). -/
def State.nextPlace (s : State) (p : Packet) (d : Nat) : Option Place :=
  let go (pl : Place) (n : Nat) : Option Place := if n ≤ s.freeBuffers pl p.vc then some pl else none
  match p.startTile with
  | some t =>
    if t = d then go (.input t 0) 1
    else if clusterOf t = clusterOf d then go (.input (meshNext t (meshWay t d)) (facing (meshWay t d))) 1
    else if gridNeighbours t d && p.cargo = .token then
      (if s.linkLoad (clusterOf t) (meshWay t d) < 2 then some (.link t (meshWay t d)) else none)
    else go (.router (clusterOf t) 0) 1
  | none =>
    match p.place with
    | .link t way => if s.linkTaken (clusterOf t) way then none else go (.input d (facing way)) 1
    | .input t _ => if t = d then none else go (.input (meshNext t (meshWay t d)) (facing (meshWay t d))) 1
    | .source c => go (.router c 0) 1
    | .router c port =>
      if c = clusterOf d then go (.input d 0) 1
      else
        let way := torusWay c (clusterOf d)
        go (.router (torusNext c way) (facing way)) (if port = facing way then 1 else 2)
    | .fork c port way => if way = 0 then none else go (.router (torusNext c way) (facing way)) (if port = facing way then 1 else 2)
    | _ => none

/-- Where a packet for the Dean or the host goes next: to the router of its cluster, which it leaves there (log entry 9). -/
def State.nextRouter (s : State) (p : Packet) : Option Place :=
  let go (c : Nat) : Option Place := if 1 ≤ s.freeBuffers (.router c 0) p.vc then some (.router c 0) else none
  match p.place with
  | .outq t => go (clusterOf t)
  | .source c => go c
  | _ => none

/-! ## Arbitration (R333) -/

/-- The flits of a packet (R328): its header and payload. -/
def Packet.flits (p : Packet) : Nat :=
  let n := match p.cargo with
    | .token => p.tok.payload.length
    | .op o => o.r.payload.length
    | .grant _ => 0
  (16 + n + 31) / 32

/-- The cycles of an uncontended hop (R334): 1 over the mesh, to a router and from one, 3 between routers, none to the tile that
sends it, and none onto a neighbour link, whose one cycle is counted as the packet leaves it. At the tile it is for, a packet has come with its last flit: 32
bytes come in a cycle, 64 over a link. -/
def Packet.hopCycles (p : Packet) (pl : Place) : Nat :=
  let head := match p.place, pl with
    | .router _ _, .router _ _ => 3
    | .fork _ _ _, _ => 3
    | _, .link _ _ => 0
    | _, .input d _ => if p.startTile = some d then 0 else 1
    | _, _ => 1
  let tail := match pl, p.place with
    | .input t _, .link _ _ => if p.dest = .tile t then (p.flits + 1) / 2 - 1 else 0
    | .input t _, _ => if p.dest = .tile t then p.flits - 1 else 0
    | _, _ => 0
  head + tail

/-- The output port through which a packet passes from a place to the next (R333): of a tile 0 to its own input, 1 to 4 to
its neighbours, 5 to its cluster's router; of a router 0 to a tile of its cluster, 1 to 4 over the torus. None for what
takes no output of the routed network: the neighbour links, and the doors of the routers. -/
def outputOf (p : Packet) (to_ : Place) : Option Nat :=
  match p.startTile, to_ with
  | some t, .input d q => some (8 * t + (if t = d then 0 else facing q))
  | some t, .router _ _ => some (8 * t + 5)
  | some _, _ => none
  | none, _ => match p.place, to_ with
  | .input t _, .input _ q => some (8 * t + facing q)
  | .router c _, .input _ _ => some (8 * (Config.tiles + c))
  | .router c _, .router _ q => some (8 * (Config.tiles + c) + facing q)
  | .fork c _ way, _ => some (8 * (Config.tiles + c) + way)
  | _, _ => none

/-- The input port at which a packet stands. -/
def Place.port : Place → Nat
  | .router _ q => q
  | .fork _ q _ => q
  | .input _ q => q
  | _ => 0

/-- Whether a packet comes from a tile whose edges are declared uncontended (R333, R44). -/
def State.uncontended (s : State) (p : Packet) : Bool := p.edge.slot < 32 && bit (s.blockOf p.edge.tile).flags 0

/-- Where a packet may go now: none while it has not come to its place, has a packet ahead of it, or finds no room. -/
def State.moveOf (s : State) (i : Nat) (p : Packet) : Option Place :=
  if s.cycle < p.since || s.behind i p then none
  else
    match p.mcast, p.dest with
    | some _, _ => match p.place with
      | .fork _ _ _ => s.nextPlace p 0
      | _ => s.nextRouter p
    | none, .tile d => s.nextPlace p d
    | none, .dean _ => s.nextRouter p
    | none, .egress _ => s.nextRouter p
    | none, _ => none

/-- Whether a packet is sent before another of its channel (R333): uncontended edges first, then the oldest, then ports in
the order local, north, east, south, west. -/
def State.sentBefore (s : State) (p q : Packet) : Bool :=
  if s.uncontended p != s.uncontended q then s.uncontended p
  else if p.sent ≠ q.sent then p.sent < q.sent
  else p.place.port < q.place.port

/-- The channels in the order in which an output that last served `vc` looks at them (R333): config, response, request,
token, from the one after it. -/
def vcOrder (vc : Nat) : List Nat :=
  match vc with
  | 3 => [1, 0, 2, 3]
  | 1 => [0, 2, 3, 1]
  | 0 => [2, 3, 1, 0]
  | _ => [3, 1, 0, 2]

/-- The packet that an output port sends next, by its position in the net (R333). -/
def State.arbitrate (s : State) (out : Nat) : Option Nat :=
  let ready := s.net.zipIdx.filter fun p => (s.moveOf p.2 p.1).any fun pl => outputOf p.1 pl = some out
  (vcOrder (assocGet {} s.outputs out).vc).findSome? fun v =>
    ((ready.filter fun p => p.1.vc = v).foldl (fun (b : Option (Packet × Nat)) p =>
      match b with
      | none => some p
      | some q => if s.sentBefore p.1 q.1 then some p else b) none).map fun p => p.2

/-- Whether an output is free and would send a packet now (R333). -/
def State.served (s : State) (i : Nat) (out : Option Nat) : Bool :=
  match out with
  | none => true
  | some k => (assocGet {} s.outputs k).free ≤ s.cycle && s.arbitrate k = some i

/-- A packet moved to the end of a buffer, which it reaches after the cycles of its hop (R334); its output is taken for its
flits. -/
def State.movePacket (s : State) (i : Nat) (p : Packet) (pl : Place) : State :=
  let s : State := { s with net := s.net.eraseIdx i ++ [{ p with place := pl, since := s.cycle + p.hopCycles pl }],
                            outputs := match outputOf p pl with
                              | some k => assocSet s.outputs k { vc := p.vc, free := s.cycle + p.flits }
                              | none => s.outputs }
  match p.place with
  | .source c => if p.edge.slot = 34 then s.wake c .send else s
  | _ => s

/-- A multicast packet at a router (R335): a copy for every egress of its group, the local one among them; where the mask is 0,
Route, subcode Group, against the sender. -/
def State.multicast (s : State) (i : Nat) (p : Packet) (g c port : Nat) : State :=
  let mask := (assocGet 0 s.dean.mcast (512 * g + c)).toNat
  let rest := s.net.eraseIdx i
  if mask = 0 then
    (({ s with net := rest } : State).raise (s.slotRecord p.edge.tile p.edge.slot p.tok.ctx p.tok.lo 0x09 0x03 0 0 0)).1
  else
    { s with net := rest ++ ((List.range 5).filter fun w => bit mask w).map fun w => { p with place := .fork c port w } }

/-- PACKET_HOP (R330): the k-th packet of the network advances one hop when it may and its output port takes it (R333). A
token for host egress is delivered at its router, once nothing is ahead of it, a bell consumed there (R319), and a FROZEN
context's not before it is resumed (R234). A multicast copy for a router's own cluster is taken there; only the config channel
carries multicast packets (R335). -/
def execPacketHop (s : State) : Host.Outcome State Fault Refusal :=
  match s.focus with
  | .event _ k =>
    match s.net[k]? with
    | none => .next s
    | some p =>
      match p.mcast, p.place, p.dest with
      | some g, .router c port, _ => .next (if s.cycle < p.since || p.vc ≠ 3 then s else s.multicast k p g c port)
      | some _, .fork _ _ 0, _ => .next { s with net := s.net.eraseIdx k }
      | none, .router _ _, .egress n =>
        .next (if s.cycle < p.since || s.behind k p || !s.unitTakes p then s
          else { s with net := s.net.eraseIdx k, egress := if p.tok.act = .bell then s.egress else s.egress ++ [(n, p.tok)] })
      | _, _, _ =>
        match s.moveOf k p with
        | none => .next s
        | some pl => .next (if s.served k (outputOf p pl) then s.movePacket k p pl else s)
  | _ => .next s

/-- Whether a packet has left its source and is on its way to its place. -/
def State.inHop (s : State) (p : Packet) : Bool :=
  s.cycle < p.since && (match p.place with
    | .outq _ => false
    | .source _ => false
    | _ => true)

/-- FLIT_RETRY (R334): a flit of the k-th packet of the network fails its check and is sent again, which delays the hop it is
in by 4 cycles and changes nothing else. -/
def execFlitRetry (s : State) : Host.Outcome State Fault Refusal :=
  match s.focus with
  | .event _ k =>
    match s.net[k]? with
    | none => .next s
    | some p => .next (if s.inHop p then { s with net := s.net.set k { p with since := p.since + 4 } } else s)
  | _ => .next s

end Sys2Proof.Machine
end

