-- ==== Sys2Proof/Machine/Watch.lean ====
section
/-! DEFINITION. The Dean's watches: the Timetable (R303, R304), the power estimate and the thermal trip (R357), and the
Proctor (R316 to R318). -/

namespace Sys2Proof.Machine

/-! ## The Timetable (R303, R304) -/

/-- One sample of a stage: depths of its active replicas, and at most one change. Over the cap none is activated, and
one is parked. -/
def State.sampleStage (s : State) (r : Region) (g : Stage) : Stage :=
  let ds := (List.range g.active).map fun k => s.poolDepth r g k
  let zeros := if ds.all fun d => d = 0 then g.zeros + 1 else 0
  let g := { g with zeros := zeros }
  if s.overCap then (if 1 < g.active then { g with active := g.active - 1 } else g)
  else if (ds.all fun d => 8 ≤ d) && g.active < g.nrep then { g with active := g.active + 1 }
  else if 4 ≤ zeros && 1 < g.active then { g with active := g.active - 1 }
  else g

/-- TIMETABLE_SAMPLE (R303): every 4,096 cycles. -/
def execTimetableSample (s : State) : Host.Outcome State Fault Refusal :=
  if s.cycle < s.dean.lastSample + 4096 then .next s
  else
    .next (s.setDean { s.dean with lastSample := s.cycle, regions := s.dean.regions.map fun r =>
      { r with stages := r.stages.map fun g => s.sampleStage r g } })

/-! ## Power (R357) -/

/-- POWER_ESTIMATE (R357): every 4,096 cycles, an estimate of the package's power, which stands until the next; it is a free
value (log entry 15). -/
def execPowerEstimate (s : State) : Host.Outcome State Fault Refusal :=
  if s.cycle < s.dean.lastPower + 4096 then .next s
  else
    .next { s.setDean { s.dean with lastPower := s.cycle, estimate := Config.powerWatts s.tick } with tick := s.tick + 1 }

/-- THERMAL_TRIP (R357): every LIVE context halted, the cap 300 W, and a message interrupt to queue group 0, whose value is
free (log entry 2). -/
def execThermalTrip (s : State) : Host.Outcome State Fault Refusal :=
  let s := s.dean.ctxs.foldl (fun (z : State) p => z.freeze p.1 .thermal) s
  let (w, s) := s.freshWord
  .next ((s.setDean { s.dean with hot := true, cap := 300 }).messageIntr 0 w.toNat)

/-- THERMAL_RECOVERY (R357): the contexts that the trip halted resume. -/
def execThermalRecovery (s : State) : Host.Outcome State Fault Refusal :=
  if !s.dean.hot then .next s
  else
    let s := s.setDean { s.dean with hot := false }
    .next (s.dean.ctxs.foldl (fun (z : State) p =>
      if (z.ctx p.1).st = .frozen && (z.ctx p.1).why = .thermal then z.unfreeze p.1 else z) s)

/-! ## The occupancy map (R318) -/

/-- A pool's, or ticket pool's, POOLQ word (R118). -/
def Pool.word (p : Pool) : Nat := p.wait.length * 2 ^ 16 + (p.slots.filter fun z => z.st = .free).length
def TicketPool.word (p : TicketPool) : Nat := p.wait.length * 2 ^ 16 + p.free

/-- Entries of a tile by use, in the order of R87. -/
def Tile.uses (x : Tile) : List Nat :=
  let n (u : EntryUse) : Nat := (x.entries.filter fun e => e.use = u).length
  [n .waiting, x.pairings.foldl (fun m p => m + p.l.counts + p.r.counts) 0, n .sticky, n .anti, n .trigger, n .early]

/-- Whether a packet is held at an input port of a tile (R318; log entry 106): in its buffer, on the neighbour link that ends
there, put in by a restore, or, at t0, in the buffer of its cluster's router. -/
def Packet.heldAt (p : Packet) (t port : Nat) : Bool :=
  match p.place with
  | .input d q => d = t && q = port
  | .door d => d = t && port = 0
  | .link d way => meshNext d way = t && facing way = port
  | .router c q => c = clusterOf t && localOf t = 0 && q = port
  | _ => false

/-- The memory requests that a full wait list holds in the input buffer of a cluster's commons at a port (R219; log entry 106). -/
def State.heldRequests (s : State) (c port : Nat) : Nat :=
  (s.waits.zipIdx.filter fun w => w.1.input = port && s.spaceOf (64 * w.1.acc.block) = .commons c && s.heldWait w.2 w.1).length

/-- Whether a pairing is ready but for a freeze of its context (R24, R318). -/
def State.readyFrozen (s : State) (t : Nat) (p : Pairing) : Bool :=
  (if (s.ctx p.ctx).st = .frozen then s.updCtx p.ctx fun x => { x with st := .live } else s).ready t p

/-- The 80-byte record of a tile. -/
def State.mapTile (s : State) (t : Nat) : List Byte :=
  let x := s.tile t
  let held := (List.range 20).foldl (fun m i =>
    let requests := if i % 4 = 0 && localOf t = 0 then s.heldRequests (clusterOf t) (i / 4) else 0
    m + min 3 ((s.net.filter fun p => p.heldAt t (i / 4) && p.vc = i % 4).length + requests) * 4 ^ i) 0
  let pools := (List.range 8).flatMap fun p => toBytes 4 (match s.pool t p with
    | some q => q.word
    | none => 0)
  let tks := (List.range 4).flatMap fun k => toBytes 4 (match x.tickets[k]? with
    | some q => q.word
    | none => 0)
  toBytes 1 (tileX t) ++ toBytes 1 (tileY t) ++ (x.uses.flatMap fun n => toBytes 1 (min n 255)) ++
  toBytes 1 (min x.drops.length 255) ++ toBytes 1 (min ((x.pairings.filter fun p => s.readyFrozen t p).length) 255) ++
  toBytes 2 (s.net.filter fun p => p.place = .outq t).length ++ toBytes 8 held ++ pools ++ tks ++ List.replicate 12 0

/-- A 16-byte wait record. -/
def waitRec (address awaited current ctx kind : Nat) : List Byte :=
  toBytes 8 address ++ toBytes 2 awaited ++ toBytes 2 current ++ toBytes 2 ctx ++ toBytes 1 kind ++ [0]

/-- Whether a waiting access belongs to a VWAIT. -/
def State.isVwait (s : State) (w : Waiter) : Bool :=
  match w with
  | .group t q _ => (s.tile t).port.any fun p => p.seq = q && p.kind = .vwait
  | .task c k => (s.task c k).access.kind = .vwait
  | _ => false

/-- The record of a wait at a home. -/
def State.homeWaitRec (s : State) (w : HomeWait) : List Byte :=
  let v := (s.blockMeta w.acc.block).version.toNat
  let n := match w.acc.mode with
    | .eq n => n.toNat
    | .ge n => n.toNat
    | .exp n => n.toNat
    | _ => (v + 1) % 2 ^ 16
  let kind := if w.entry then 3 else if s.isVwait w.who then 1 else if w.acc.op.isLoad then 0 else 2
  waitRec (64 * w.acc.block) n v w.ctx kind

/-- The context of a stream: none where it has none. -/
def State.streamCtx (s : State) (w : Walk) : Option Nat :=
  match w.who with
  | .tilePort t => ((s.tile t).stoppedAt).map fun p => p.ctx
  | .replayUnit t => ((s.tile t).replayHead).map fun d => d.tok.ctx
  | .agn c a => some (assocGet {} (s.cluster c).streamer.agns a).cmd.ctx
  | .taskData c k => some (s.task c k).ctx
  | .taskFetch c k => some (s.task c k).ctx

/-- The record of a stream that waits for a store to its fault record's block (R211). -/
def State.recordWait (s : State) (b ctx : Nat) : List Byte :=
  let v := (s.blockMeta b).version.toNat
  waitRec (64 * b) ((v + 1) % 2 ^ 16) v ctx 6

/-- The record waits of a tile's port and replay unit. -/
def State.recordWaits (s : State) (mine : Nat → Bool) (x : Tile) : List (List Byte) :=
  let port := x.stoppedAt.map fun p => p.ctx
  (match x.stall, port with
   | .record b, some c => if mine c then [s.recordWait b c] else []
   | _, _ => []) ++
  (match x.rstall, x.replayHead with
   | .record b, some d => if mine d.tok.ctx then [s.recordWait b d.tok.ctx] else []
   | _, _ => [])

/-- The wait records of a region's contexts. -/
def State.mapWaits (s : State) (r : Region) : List (List Byte) :=
  let mine (c : Nat) : Bool := c < 4096 && (s.ctx c).st ≠ .free && (s.ctx c).image = r.image
  ((s.waits.filter fun w => mine w.ctx).map s.homeWaitRec) ++
  ((s.regionClusters r).flatMap fun d =>
    let x := s.cluster d
    ((x.array.queue.filter fun q => mine q.ctx && s.readerWaits d q).map fun q => waitRec q.desc 0 0 q.ctx 4) ++
    ((x.registrar.queue.filter fun q => mine q.ctx && !x.registrar.servable q).map fun q => waitRec q.desc 0 0 q.ctx 5)) ++
  ((s.tiles.filter fun t => r.holds t.1).flatMap fun t => s.recordWaits mine t.2) ++
  ((s.regionClusters r).flatMap fun d => (s.cluster d).core.tasks.flatMap fun t => match t.2.st with
    | .blocked (.record b) => if mine t.2.ctx then [s.recordWait b t.2.ctx] else []
    | _ => []) ++
  ((s.misses ++ s.walks).filterMap fun w => match s.streamCtx w with
    | some c => if mine c then some (waitRec w.va 0 0 c 6) else none
    | none => none) ++
  (s.regionClusters r).flatMap fun d => (s.cluster d).core.vcs.flatMap fun v =>
    if v.2.bound.isSome then [] else (v.2.queue.filter fun t => mine t.ctx).map fun t => waitRec 0 0 0 t.ctx 7

/-- The occupancy map of a region. -/
def State.occupancy (s : State) (r : Region) : List Byte :=
  let ts := s.regionTiles r
  let ws := s.mapWaits r
  toBytes 1 r.x0 ++ toBytes 1 r.y0 ++ toBytes 1 r.w ++ toBytes 1 r.h ++ toBytes 4 ts.length ++ toBytes 4 ws.length ++
  toBytes 4 r.pexp ++ toBytes 8 s.cycle ++ List.replicate 40 0 ++ ts.flatMap s.mapTile ++ ws.flatten

/-! ## The Proctor (R316, R317) -/

/-- Whether a region's Proctor counter is held still (R316), as it is too while a token of the region's contexts waits for a
link that an MMAC takes, which is no hang (R337; log entry 153). -/
def State.heldStill (s : State) (r : Region) : Bool :=
  let cs := s.imageCtxs r.image fun _ => true
  let mine (c : Nat) : Bool := cs.contains c
  let stopped (x : Stall) : Bool := match x with
    | .record _ => true
    | .resume => true
    | _ => false
  (!cs.isEmpty && cs.all fun c => (s.ctx c).st = .frozen || (s.ctx c).st = .saved) ||
  (s.tiles.any fun t => r.holds t.1 && (stopped t.2.stall || stopped t.2.rstall)) ||
  (s.misses.any fun w => (s.streamCtx w).any mine) ||
  (s.net.any fun p => mine p.tok.ctx && (match p.place with
    | .link t way => s.linkTaken (clusterOf t) way
    | _ => false)) ||
  s.clusters.any fun p =>
    (p.2.streamer.agns.any fun a => mine a.2.cmd.ctx && stopped a.2.stall) ||
    p.2.core.tasks.any fun t => mine t.2.ctx && (match t.2.st with
      | .blocked (.record _) => true
      | _ => false)

/-- The counters that are held still while n cycles pass (R316). -/
def State.holdProctors (s : State) (n : Nat) : State :=
  s.setDean { s.dean with regions := s.dean.regions.map fun r => if s.heldStill r then { r with progress := r.progress + n } else r }

/-- A Hang record (R317). -/
def State.hang (s : State) (r : Region) (at_ : Nat) (c : Nat × Nat) : State :=
  (s.raise { cause := 0x0D, ctx := c.1, tenant := (s.ctx c.1).tenant, source := 9, x := r.x0, y := r.y0, address := at_,
             count := c.2 }).1

/-- PROCTOR_EXPIRY (R316, R317): the counter of IMAGEID k's region has reached its interval while a LIVE context has
work. The aborts of R300 follow at the step's end. -/
def execProctorExpiry (s : State) : Host.Outcome State Fault Refusal :=
  match s.focus with
  | .event _ k =>
    match s.regionOf k with
    | none => .next s
    | some r =>
      let live := s.imageCtxs k fun x => x = .live
      let busy := (live.map fun c => (c, s.census c)).filter fun c => c.2 ≠ 0 || s.engines c.1 ≠ 0
      if s.cycle < r.progress + 2 ^ r.pexp || s.heldStill r || busy.isEmpty then .next s
      else
        let m := s.occupancy r
        let at_ := s.dean.nextMap
        let s := live.foldl (fun (z : State) c => z.freeze c .fault) s
        let s := s.setDean { s.dean with maps := assocSet s.dean.maps at_ m, nextMap := at_ + (m.length + 63) / 64 * 64 }
        .next (busy.foldl (fun (z : State) c => z.hang r at_ c) s)
  | _ => .next s

end Sys2Proof.Machine
end

