-- ==== Sys2Proof/Machine/After.lean ====
section
/-! DEFINITION. What time and the end of a step bring about: the cycle counters of tiles, domains and tenants (R71, R88,
R118, R210, R218), the Proctors held still (R316), and
what follows a step: retirement (R22), saves (R320), aborts (R300) and QUIESCEs that end (R325). -/

namespace Sys2Proof.Machine

/-! ## Counters of cycles -/

/-- Whether an operation waits in a pool tile's input buffer for room in a wait list (R113). -/
def State.overfull (s : State) (t : Nat) : Bool :=
  (List.range 5).any fun q => match s.opHead t q with
    | some (_, o, _) => s.opHeld t o
    | none => false

/-- A counter of 32 bits raised by the cycles that passed, where its condition held. -/
def raised (n : Nat) (v : BitVec 32) (on : Bool) : BitVec 32 := if on then v + BitVec.ofNat 32 n else v

/-- The counters of a tile after n cycles (R88, R118). The age of a pairing that was not ready counts anew (R24; log
entry 129). -/
def State.tilePass (s : State) (n t : Nat) (x : Tile) : Tile :=
  let accs : Pool := if localOf t = 15 then (s.cluster (clusterOf t)).array.pool else {}
  let stalled := s.net.any fun p => p.stalled && match p.place with
    | .input d _ => d = t
    | _ => false
  let waits := (x.pools.any fun p => !p.wait.isEmpty) || (x.tickets.any fun k => !k.wait.isEmpty) || !accs.wait.isEmpty
  let c := x.counters
  { x with counters := { c with meStall := raised n c.meStall stalled, alWait := raised n c.alWait waits,
                                alOver := raised n c.alOver (s.overfull t) }
           pairings := x.pairings.map fun p => if s.ready t p then p else { p with age := 0 } }

/-- The counters of a stack domain after n cycles (R210, R218). -/
def State.domainPass (s : State) (n d : Nat) (x : Domain) : Domain :=
  { x with wkWait := raised n x.wkWait (s.misses.any fun w => streamDomain w.who = d),
           vbWait := raised n x.vbWait (s.waits.any fun w => w.entry && s.bufferOf w.acc.block = some d) }

/-- n fabric cycles pass: the clock, the counters, the RESIDENT tile-cycles of every tenant (R71, R344), and the times of
configuration instructions (R371). -/
def State.passTime (s : State) (n : Nat) : State :=
  if n = 0 then s
  else
    let s := s.holdProctors n
    let tiles := s.tiles.map fun p => (p.1, s.tilePass n p.1 p.2)
    let ds := ((s.domains.map fun p => p.1) ++ (s.misses.map fun w => streamDomain w.who) ++
      s.waits.filterMap fun w => if w.entry then s.bufferOf w.acc.block else none).dedup
    let domains := ds.foldl (fun z d => assocSet z d (s.domainPass n d (s.domain d))) s.domains
    s.dean.regions.foldl (fun (z : State) r => z.addMeter r.tenant 0 (n * (s.regionTiles r).length))
      { s with cycle := s.cycle + n, tiles := tiles, domains := domains,
               clusters := s.clusters.map fun p => (p.1, { p.2 with core := p.2.core.awake (s.cycle + n) }) }

/-! ## QUIESCE (R234, R325) -/

/-- Whether a cycle is covered by a QUIESCE: all of them on a FROZEN context. -/
def upTo? (upTo : Option Nat) (n : Nat) : Bool :=
  match upTo with
  | none => true
  | some m => n ≤ m

/-- Whether a wait at a home is of a replay's group, or of a store that a command left there as it ended. -/
def Waiter.loose (w : Waiter) : Bool :=
  match w with
  | .replay _ _ => true
  | .agn _ a => 8 ≤ a
  | _ => false

/-- Whether a context's issued groups up to a cycle, those of its replays, and the stores of its ended commands have been
performed. -/
def State.groupsQuiet (s : State) (c : Nat) (upTo : Option Nat) : Bool :=
  (s.waits.all fun w => w.ctx ≠ c || !w.who.loose || !upTo? upTo w.born) &&
  s.tiles.all fun t => t.2.port.all fun p => p.ctx ≠ c || p.groups.all fun g =>
    (g.st ≠ .issued && g.st ≠ .waiting) || !upTo? upTo g.issuedAt

/-- The AGNs of a context that a translation fault stalls, of commands accepted up to a cycle (R197). -/
def State.stalledAgns (s : State) (c : Nat) (upTo : Option Nat) : Nat :=
  s.clusters.foldl (fun n p =>
    n + (p.2.streamer.agns.filter fun a => a.2.cmd.ctx = c && a.2.stall = .resume && upTo? upTo a.2.cmd.born).length) 0

/-- Whether a context's engine commands accepted up to a cycle have ended or stand stalled. -/
def State.commandsQuiet (s : State) (c : Nat) (upTo : Option Nat) : Bool :=
  (s.clusters.all fun p =>
    (p.2.streamer.queue.all fun q => q.ctx ≠ c || !upTo? upTo q.born) &&
    (p.2.streamer.agns.all fun a => a.2.cmd.ctx ≠ c || a.2.stall = .resume || !upTo? upTo a.2.cmd.born) &&
    (p.2.array.queue.all fun q => q.ctx ≠ c || !upTo? upTo q.born) &&
    (p.2.registrar.queue.all fun q => q.ctx ≠ c || !upTo? upTo q.born) &&
    (p.2.registrar.stops.all fun q => q.ctx ≠ c || !upTo? upTo q.born) &&
    (match p.2.registrar.auction with
     | some a => a.cmd.ctx ≠ c || p.2.registrar.state ≠ .running || !upTo? upTo a.cmd.born
     | none => true)) &&
  s.tiles.all fun t => t.2.convQ.all fun q => q.ctx ≠ c || !upTo? upTo q.born

/-- Tasks whose QUIESCE ends take its result: 0 on a FROZEN context, 4 on a LIVE one, with the stalled commands counted. -/
def State.quiesceChecks (s : State) : State :=
  s.clusters.foldl (fun (z : State) p => p.2.core.tasks.foldl (fun (y : State) q =>
    match q.2.st with
    | .blocked (.quiesce c reg upTo) =>
      if y.groupsQuiet c upTo && y.commandsQuiet c upTo then
        let v := (if upTo = none then 0 else 4) + 2 ^ 32 * y.stalledAgns c upTo
        y.updTask p.1 q.1 fun t => ((t.setReg (BitVec.ofNat 5 reg) (BitVec.ofNat 64 v)).retire).ready
      else y
    | _ => y) z) s

/-! ## The end of a step -/

/-- A step's end: the focus is dropped, firings that waited for earlier accesses go on, contexts that a fault froze are
aborted (R300), contexts that have become quiet enter RETIRING (R22), and bells and QUIESCEs that have what they wait for
end. -/
def State.close (s : State) : State :=
  ((((({ s with focus := .idle } : State).aftersCheck).abortFrozen).settle).bellChecks).quiesceChecks

/-- The end of a step applied to its outcome. -/
def closeOutcome : Host.Outcome State Fault Refusal → Host.Outcome State Fault Refusal
  | .next s => .next s.close
  | .fault f => .fault f
  | .refused r => .refused r

end Sys2Proof.Machine
end

