-- ==== Sys2Proof/Machine/Commands.lean ====
section
/-! DEFINITION. The host's commands (R351, R352): queues and windows (R292, R293, R346, R347), the ASID table (R308), gate
sets (R309), keys (R343), images and contexts (R300, R322, R364), reports, and commons banks (R370). -/

namespace Sys2Proof.Machine

/-! ## The end of a command (R351) -/

/-- A command's end: STATUS into its record, HEAD + 1, and the command interrupt. -/
def State.finish (s : State) (code detail : Nat) : State :=
  let m := s.dean.mail
  let head := m.head + 1
  let s := s.hostStore (m.record + 8) 2 (toBytes 4 (code + 2 ^ 8 * detail))
  let s := s.setDean { s.dean with doing := .idle, mail := { s.dean.mail with head := head } }
  if m.cmdIntr = 0 then s else { s with intr := s.intr ++ [(m.cmdIntr, head.toNat)] }

/-- A command that must wait holds the ring. -/
def State.await (s : State) (w : Doing) : State := s.setDean { s.dean with doing := w }

/-- A command's end with Check where no subcode is named (R352, R369). -/
def State.finishCheck (s : State) : State := s.finish 5 0

/-- The body of a host command, given its arguments; one already decided ends. -/
def commanding (s : State) (f : CmdArgs → State) : Host.Outcome State Fault Refusal :=
  match s.focus with
  | .command a =>
    match s.dean.doing with
    | .decided code detail => .next (s.finish code detail)
    | _ => .next (f a)
  | _ => .next s

/-- Whether the command is in its first turn. -/
def State.fresh (s : State) : Bool := s.dean.doing = .idle

/-- Bytes read, and bytes written, at a physical address under a tenant's key (R352). -/
def State.physRead (s : State) (tenant a n : Nat) : Option (List Byte × State) :=
  if 2 ^ 52 < a + n then none else s.loadBytes tenant a (blocksFor n) n
def State.physWrite (s : State) (tenant a : Nat) (bs : List Byte) : Option State :=
  if 2 ^ 52 < a + bs.length then none else s.storeBytes tenant a (blocksFor bs.length) bs

/-! ## Queue records (R270, R292, R338) -/

/-- The 16 bucket entries of a queue record. -/
def bucketEntries (bs : List Byte) : List Nat := (List.range 16).map fun i => field bs (0x80 + 8 * i) 8

/-- Whether a bucket table is legal (R270): bounds ascend up to the first zero entry, and zero entries follow. -/
def bucketsOk (last : Nat) : List Nat → Bool
  | [] => true
  | e :: es => if e = 0 then es.all fun x => x = 0 else e < 2 ^ 48 && last < e / 2 ^ 32 && bucketsOk (e / 2 ^ 32) es

/-- A queue record read from its 256 bytes. -/
def queueRecOf (bs : List Byte) : QueueRec :=
  { tenant := field bs 0 2, weight := field bs 2 1, cls := field bs 3 1, mode := field bs 4 1, flags := field bs 5 1,
    asid := field bs 6 2, fbase := field bs 8 8, cring := field bs 0x10 8, crlen := field bs 0x18 4, qbuf := field bs 0x20 8,
    qlen := field bs 0x28 4,
    bucket := ((bucketEntries bs).takeWhile fun e => e ≠ 0).map fun e => (e / 2 ^ 32, e % 2 ^ 32) }

/-- Whether a queue record passes the Dean's checks; ASID 0 is the firmware's (R308). -/
def queueRecOk (bs : List Byte) : Bool :=
  let r := queueRecOf bs
  0 < r.tenant && r.tenant < 4096 && r.asid ≠ 0 && r.cls < 4 && !bit r.mode 3 && r.flags < 4 && r.cring % 64 = 0 &&
  (List.range 17).any (fun i => r.crlen = 2 ^ i) && field bs 0x1C 4 = 0 && r.qbuf % 4096 = 0 && 0 < r.qlen && r.qlen ≤ 4096 &&
  (slice bs 0x2C 84).all (fun b => b = 0) && bucketsOk 0 (bucketEntries bs)

/-- The contexts of a queue in some of the states of R21. -/
def State.queueCtxs (s : State) (q : Nat) (f : CtxState → Bool) : Bool :=
  s.dean.ctxs.any fun p => p.2.st ≠ .free && p.2.queue = q && f p.2.st

/-- Whether R308 or R352 refuses a record for a queue: contexts that would change TENANT or ASID, or another tenant's
ASID. -/
def State.recordRefused (s : State) (q : Nat) (r : QueueRec) : Bool :=
  let old := (s.queue q).rcd
  let e := assocGet {} s.dean.asids r.asid
  ((old.tenant ≠ r.tenant || old.asid ≠ r.asid) && s.queueCtxs q fun _ => true) || (e.valid && e.tenant ≠ r.tenant)

/-- QSET (R292): what is held on the link and has room under the new record joins the buffer (R293). -/
def execHostQset (s : State) : Host.Outcome State Fault Refusal :=
  commanding s fun a =>
    let q := a.a0.toNat
    if Config.queues ≤ q then s.finish 4 0
    else
      match s.physRead 0 a.a1.toNat 256 with
      | none => s.finish 6 0
      | some (bs, s) =>
        if !queueRecOk bs then s.finishCheck
        else if s.recordRefused q (queueRecOf bs) then s.finish 2 0
        else
          let x := s.queue q
          (((s.setQueue q { x with rcd := queueRecOf bs }).admitHeld q x.held.length).queueGain q x).finish 0 0

/-- WBIND (R293): windows are numbered group × 64 + window. -/
def execHostWbind (s : State) : Host.Outcome State Fault Refusal :=
  commanding s fun a =>
    let v := a.a0.toNat
    let g := bits v 5 0
    let w := 64 * g + bits v 11 6
    let q := bits v 21 12
    if 2 ^ 23 ≤ v || groupOf q ≠ g then s.finish 4 0
    else
      let ws := if bit v 22 then assocDel s.dean.windows w else assocSet s.dean.windows w q
      (s.setDean { s.dean with windows := ws }).finish 0 0

/-! ## Moving a queue (R346, R347) -/

/-- The complete launch streams among token images. -/
def streamsIn : Nat → List (List Byte) → Nat
  | 0, _ => 0
  | _, [] => 0
  | fuel + 1, h :: rest => if rest.length < ntokOf h then 0 else 1 + streamsIn fuel (rest.drop (ntokOf h))

/-- Launches that wait in a queue. -/
def Queue.launchesWaiting (q : Queue) : Nat := q.launches.length + streamsIn q.images.length q.images

/-- The canonical record of a queue. -/
def State.exportBytes (s : State) (n : Nat) : List Byte :=
  let q := s.queue n
  let r := q.rcd
  let bucket (i : Nat) : Nat × Nat := r.bucket.getD i (0, 0)
  toBytes 4 0x58455551 ++ toBytes 2 r.tenant ++ toBytes 1 r.weight ++ toBytes 1 r.cls ++ toBytes 1 r.mode ++ toBytes 1 r.flags ++
  toBytes 2 r.asid ++ toBytes 16 0 ++ toBytes 4 r.crlen ++ toBytes 12 0 ++ toBytes 4 r.qlen ++
  toBytes 4 (q.pass - s.dean.vtime).toNat ++
  toBytes 1 (q.skips % 128 + (if s.dean.reserve.contains n then 128 else 0)) ++ toBytes 3 0 ++ toBytes 4 q.head ++ toBytes 4 q.tail ++
  toBytes 4 q.n ++ toBytes 4 q.launchesWaiting ++ toBytes 8 0 ++
  ((List.range 16).flatMap fun i => toBytes 2 (bucket i).1 ++ toBytes 4 (bucket i).2) ++ toBytes 80 0

/-- The dirty bitmap of a queue: QLEN pages of QBUF, then the pages of CRING. -/
def Queue.bitmap (q : Queue) : List Byte :=
  let n := q.rcd.qlen + (64 * q.rcd.crlen + 4095) / 4096
  (List.range ((n + 7) / 8)).map fun i =>
    BitVec.ofNat 8 ((List.range 8).foldl (fun b j => if q.dirty.contains (8 * i + j) then b + 2 ^ j else b) 0)

/-- EXPORT (R346, R347). -/
def execHostExport (s : State) : Host.Outcome State Fault Refusal :=
  commanding s fun a =>
    let q := a.a0.toNat
    let x := s.queue q
    if Config.queues ≤ q || 2 ≤ a.a3.toNat then s.finish 4 0
    else if x.rcd.tenant = 0 then s.finish 3 0
    else if bit a.a3.toNat 0 && (x.rcd.weight ≠ 0 || s.queueCtxs q CtxState.keeps) then s.finish 2 0
    else
      match (s.physWrite 0 a.a1.toNat (s.exportBytes q)).bind fun z => z.physWrite 0 a.a2.toNat x.bitmap with
      | none => s.finish 6 0
      | some z => (z.updQueue q fun y => { y with dirty := [] }).finish 0 0

/-- The token images in a queue buffer's bytes. -/
def imagesIn : Nat → List Byte → List (List Byte)
  | 0, _ => []
  | fuel + 1, bs =>
    if bs.isEmpty then []
    else
      let n := imageBytes (field bs 0 8)
      bs.take n :: imagesIn fuel (bs.drop n)

/-- The bytes of a queue buffer from its head to its tail, which may wrap; a head at the tail is empty or full. -/
def State.bufferBytes (s : State) (r : QueueRec) (head tail : Nat) (any : Bool) : Option (List Byte × State) :=
  let size := 4096 * r.qlen
  let n := if head = tail then (if any then size else 0) else (tail + size - head) % size
  let m := min n (size - head % size)
  match s.physRead r.tenant (r.qbuf + head % size) m with
  | none => none
  | some (b0, s) =>
    match s.physRead r.tenant r.qbuf (n - m) with
    | none => none
    | some (b1, s) => some (b0 ++ b1, s)

/-- IMPORT (R346); the writes held on the link stay there until there is room (R293). -/
def execHostImport (s : State) : Host.Outcome State Fault Refusal :=
  commanding s fun a =>
    let q := a.a0.toNat
    if Config.queues ≤ q || a.a3.toNat % 64 ≠ 0 || a.a4.toNat % 4096 ≠ 0 then s.finish 4 0
    else if (s.queue q).rcd.weight ≠ 0 || s.queueCtxs q (fun _ => true) then s.finish 2 0
    else
      match s.physRead 0 a.a1.toNat 256 with
      | none => s.finish 6 0
      | some (bs, s) =>
        let buckets := (List.range 16).flatMap fun i => toBytes 4 (field bs (0x52 + 6 * i) 4) ++ toBytes 2 (field bs (0x50 + 6 * i) 2) ++ toBytes 2 0
        let rec_ := slice bs 4 8 ++ toBytes 8 a.a2.toNat ++ toBytes 8 a.a3.toNat ++ slice bs 0x1C 8 ++ toBytes 8 a.a4.toNat ++
          slice bs 0x2C 4 ++ toBytes 84 0 ++ buckets
        let r := queueRecOf rec_
        let head := field bs 0x38 4
        let tail := field bs 0x3C 4
        if field bs 0 4 ≠ 0x58455551 || !queueRecOk rec_ then s.finishCheck
        else if s.recordRefused q r then s.finish 2 0
        else
          match s.bufferBytes r head tail (field bs 0x44 4 ≠ 0) with
          | none => s.finish 6 0
          | some (buf, s) =>
            let x : Queue :=
              { rcd := r, head := head, tail := tail, images := imagesIn buf.length buf,
                pass := s.dean.vtime + BitVec.ofNat 32 (field bs 0x30 4), skips := field bs 0x34 1 % 128, n := field bs 0x40 4,
                held := (s.queue q).held }
            let s := ((s.setQueue q x).admitHeld q x.held.length).queueGain q x
            let held := bit (field bs 0x34 1) 7 && !s.dean.reserve.contains q
            (s.setDean { s.dean with reserve := if held then s.dean.reserve ++ [q] else s.dean.reserve }).finish 0 0

/-! ## Bindings and tables -/

/-- PORTTEN (R350). -/
def execHostPortten (s : State) : Host.Outcome State Fault Refusal :=
  commanding s fun a =>
    if 2 ≤ a.a0.toNat || 4096 ≤ a.a1.toNat then s.finish 4 0
    else (s.setDean { s.dean with portTen := s.dean.portTen.set a.a0.toNat a.a1.toNat }).finish 0 0

/-- POWCAP (R357). -/
def execHostPowcap (s : State) : Host.Outcome State Fault Refusal :=
  commanding s fun a => (s.setDean { s.dean with cap := max 300 (min 1800 a.a0.toNat) }).finish 0 0

/-- MCAST (R336): the router entries of a group, under 512 × group + cluster. -/
def execHostMcast (s : State) : Host.Outcome State Fault Refusal :=
  commanding s fun a =>
    let g := a.a0.toNat
    if 1008 ≤ g then s.finish 4 0
    else
      match s.physRead 0 a.a1.toNat 512 with
      | none => s.finish 6 0
      | some (bs, s) =>
        if bs.any fun b => 32 ≤ b.toNat then s.finishCheck
        else
          let table := bs.zipIdx.foldl (fun t p => assocSet t (512 * g + p.2) (BitVec.ofNat 5 p.1.toNat)) s.dean.mcast
          (s.setDean { s.dean with mcast := table }).finish 0 0

/-- ASID (R308): XINV first, then the entry once what was translated under it is performed. -/
def execHostAsid (s : State) : Host.Outcome State Fault Refusal :=
  commanding s fun a =>
    let n := a.a0.toNat
    let root := a.a1.toNat
    let tenant := a.a2.toNat
    let e := assocGet {} s.dean.asids n
    if n = 0 || 2 ^ 16 ≤ n || 2 ^ 52 ≤ root || root % 2 ^ 20 ≠ 0 || 4096 ≤ tenant then s.finish 4 0
    else if e.tenant ≠ tenant && s.dean.queues.any fun q => q.2.rcd.tenant ≠ 0 && q.2.rcd.asid = n && q.2.rcd.tenant ≠ tenant then
      s.finish 2 0
    else
      let s := s.invalidate n
      if s.translatedOpen n then s.await .waiting
      else (s.setDean { s.dean with asids := assocSet s.dean.asids n { valid := root ≠ 0, root := root, tenant := tenant } }).finish 0 0

/-! ## Gate sets (R309) -/

/-- Whether a GATE command runs in a stack domain (R264). -/
def State.gateRunning (s : State) (d : Nat) : Bool :=
  s.clusters.any fun c => domainOf c.1 = d && c.2.streamer.agns.any fun g => g.2.cmd.d.gate

/-- Steps 3 to 5: the SRAM, and the gate set with its status. -/
def State.loadGate (s : State) (d tenant e h at_ : Nat) : State :=
  let x := s.domain d
  let x : Domain := { x with sram := if x.gate.any fun g => g.1 ≠ tenant then [] else x.sram, loading := false }
  if e = 0 then (s.setDomain d { x with gate := none }).finish 0 0
  else
    match s.physRead tenant at_ (2 * e * h) with
    | none => (s.setDomain d { x with gate := none }).finish 6 0
    | some (bs, s) =>
      let sram := (List.range (e * h)).foldl (fun m i => assocSet m i (BitVec.ofNat 16 (field bs (2 * i) 2))) x.sram
      (s.setDomain d { x with gate := some (tenant, e, h), sram := sram }).finish 0 0

/-- GATE. -/
def execHostGate (s : State) : Host.Outcome State Fault Refusal :=
  commanding s fun a =>
    let d := a.a0.toNat
    let e := a.a2.toNat
    let h := a.a3.toNat
    if Config.domains ≤ d || 4096 ≤ a.a1.toNat || 128 < e ||
        (e ≠ 0 && (h < 32 || 2048 < h || h % 32 ≠ 0 || 512 * 1024 < e * h * 2)) then s.finish 4 0
    else if s.gateRunning d then (s.setDomain d { s.domain d with loading := true }).await .waiting
    else s.loadGate d a.a1.toNat e h a.a4.toNat

/-! ## Keys (R342, R343) -/

/-- KEY. -/
def execHostKey (s : State) : Host.Outcome State Fault Refusal :=
  commanding s fun a =>
    let k := a.a0.toNat
    let tenant := a.a1.toNat
    if 256 ≤ k || 4096 ≤ tenant || 2 ≤ a.a3.toNat then s.finish 4 0
    else if a.a3.toNat = 1 then
      if s.fresh && !s.dean.keys.any fun z => z.1 = k && z.2.tenant = tenant then s.finish 3 0
      else
        let s := s.unloadKey k tenant
        if s.keyIdle tenant then s.finish 0 0 else s.await .waiting
    else
      match s.physRead tenant a.a2.toNat 64 with
      | none => s.finish 6 0
      | some (bs, s) =>
        match s.loadKey k tenant bs with
        | none => s.finish 5 0x19
        | some z => z.finish 0 0

/-! ## Images (R72, R316) -/

/-- UNLOAD: the region is marked to go, and the command ends once it has gone. -/
def execHostUnload (s : State) : Host.Outcome State Fault Refusal :=
  commanding s fun a =>
    let k := a.a0.toNat
    if (s.regionOf k).isNone then s.finish (if s.fresh then 3 else 0) 0
    else if !(s.imageCtxs k fun _ => true).isEmpty then s.finish 2 0
    else (s.updRegion k fun r => { r with leaving := true }).await .waiting

/-- PROCTOR. -/
def execHostProctor (s : State) : Host.Outcome State Fault Refusal :=
  commanding s fun a =>
    let n := a.a1.toNat
    if n < 10 || 30 < n then s.finish 4 0
    else if (s.regionOf a.a0.toNat).isNone then s.finish 3 0
    else (s.updRegion a.a0.toNat fun r => { r with pexp := n }).finish 0 0

/-! ## Contexts (R300, R322, R364) -/

/-- The body of a command on the context that A0 names. -/
def onContext (s : State) (f : CmdArgs → Nat → Ctx → State) : Host.Outcome State Fault Refusal :=
  commanding s fun a => if Config.contexts ≤ a.a0.toNat then s.finish 3 0 else f a a.a0.toNat (s.ctx a.a0.toNat)

/-- ABORT, for a LIVE or FROZEN context: it holds the ring until the reclaim is done (R351). -/
def execHostAbort (s : State) : Host.Outcome State Fault Refusal :=
  onContext s fun _ c x =>
    if s.fresh then
      if x.st = .live || x.st = .frozen then (s.abort c).await .waiting else s.finish 2 0
    else if x.st = .retiring then s
    else s.finish 0 0

/-- RESUME, for a context held FROZEN under FLAGS[1]. -/
def execHostResume (s : State) : Host.Outcome State Fault Refusal :=
  onContext s fun _ c x =>
    if x.st = .frozen && x.why = .fault then ((s.unfreeze c).progressed c).finish 0 0 else s.finish 2 0

/-- PREEMPT: the context's bells ring, and the command ends when it is SAVED or BellProtocol is raised. -/
def execHostPreempt (s : State) : Host.Outcome State Fault Refusal :=
  onContext s fun _ c x =>
    if s.dean.doing = .bell c then s
    else if x.st ≠ .live then s.finish 2 0
    else (if x.bell.isSome then s else s.ringBells c false).await (.bell c)

/-- DISCARD, for a SAVED context. -/
def execHostDiscard (s : State) : Host.Outcome State Fault Refusal :=
  onContext s fun _ c x => if x.st = .saved then (s.discard c).finish 0 0 else s.finish 2 0

/-- The regions of an image that gave way unloaded (R364). -/
def State.unloadMoved (s : State) (image : Nat) : State :=
  (s.dean.regions.filter fun r => r.image = image && r.moving).foldl State.unload s

/-- The restore of a context into its image's region, once that is laid out and has room (R322); the region that gave way to it
is unloaded (R364). -/
def State.restoreCommand (s : State) (c : Nat) (r : Region) : State :=
  if !r.laid || s.shut r then s.await (.restore c true)
  else
    match (s.unloadMoved r.image).restoreInto c r with
    | some z => (z.progressed c).reopened.finish 0 0
    | none => s.await (.restore c true)

/-- The image of a saved context that is not resident placed by search (R322). -/
def State.restorePlace (s : State) (c : Nat) (x : Ctx) : State :=
  match s.imageHeader x.queue x.image with
  | .error u => if u = 0x17 then s.finish 3 0 else s.finish 5 u
  | .ok (va, h, z) =>
    if z.reserved x.queue then s.await (.restore c false)
    else
      match z.placeImage x.queue (.restore c) x.image va h with
      | .started w => w.await (.restore c true)
      | .waits i => (s.unloading x.queue i).await (.restore c false)
      | .none_ => s.finish 2 0x14
      | .failed _ => s.finish 6 0

/-- The current region of an image marked as one that gives way (R301 step 1, R364), and last among the regions. -/
def State.moveAway (s : State) (image : Nat) : State :=
  match s.regionOf image with
  | none => s
  | some r => s.setDean { s.dean with regions := (s.dean.regions.filter fun z => z ≠ r) ++ [{ r with moving := true }] }

/-- The image of a saved context placed at a named origin (R364). The checks of R76 are made with its region resident, which a
new place therefore cannot overlap; it goes, drained, once the image has been loaded there, and stays where that fails. -/
def State.restoreAt (s : State) (c : Nat) (x : Ctx) (v : Nat) : State :=
  let region := s.regionOf x.image
  let others := (s.imageCtxs x.image fun st => st.keeps || st = .retiring).filter fun d => d ≠ c
  let fail (code detail : Nat) : State := (s.unmoved x.image).finish code detail
  let wait : State := (s.moveAway x.image).await (.restore c false)
  if others.any fun d => (s.ctx d).st.keeps then fail 2 0x15
  else
    match s.imageHeader x.queue x.image with
    | .error u => if u = 0x17 then fail 3 0 else fail 5 u
    | .ok (va, h, z) =>
      let st := s.fixedStatus x.tenant v h
      let cl := clusterOf (tileOf (bits v 6 0) (bits v 13 8))
      if st ≠ 0 then fail 2 st
      else if !others.isEmpty || s.overCap || s.reserved x.queue || (region.any fun r => !r.laid || !s.drained r) then wait
      else
        match (z.cluster cl).core.freeTask with
        | none => wait
        | some k =>
          match (z.moveAway x.image).startLoader x.queue (.restore c) x.image va cl k h (bits v 6 0) (bits v 13 8) (bits v 23 16)
              (bits v 30 24) with
          | some w => w.await (.restore c true)
          | none => fail 6 0

/-- RESTORE (R322, R364): A1 names an origin as PLACE's fixed-mode gA does, or is 0. -/
def execHostRestore (s : State) : Host.Outcome State Fault Refusal :=
  onContext s fun a c x =>
    let v := a.a1.toNat
    let placed := s.dean.doing = .restore c true
    if x.st ≠ .saved then (if s.fresh then s.finish 2 0 else (s.unmoved x.image).finish (if x.st = .live then 0 else 2) 0)
    else if v ≠ 0 && (!bit v 63 || v &&& 0x800000007FFF3F7F ≠ v) then s.finish 4 0
    else if s.dean.loading.any fun l => l.image = x.image then (if s.fresh then s.await (.restore c false) else s)
    else
      match s.regionOf x.image with
      | some r =>
        if v = 0 || (placed && !r.moving) then s.restoreCommand c r else s.restoreAt c x v
      | none => if v = 0 then s.restorePlace c x else s.restoreAt c x v

/-! ## Reports (R318, R345) -/

/-- METER (R345). -/
def execHostMeter (s : State) : Host.Outcome State Fault Refusal :=
  commanding s fun a =>
    let tenant := a.a0.toNat
    let at_ := a.a2.toNat
    if 4096 ≤ tenant || 2 ≤ a.a1.toNat || at_ % 64 ≠ 0 then s.finish 4 0
    else
      match s.physRead tenant (at_ + 0x80) 32 with
      | none => s.finish 6 0
      | some (nonce, z) =>
        match z.physWrite tenant at_ (z.meterReport tenant a.a1.toNat nonce) with
        | none => s.finish 6 0
        | some w => w.finish 0 0

/-- MAPGET (R318). -/
def execHostMapget (s : State) : Host.Outcome State Fault Refusal :=
  commanding s fun a =>
    if !assocHas s.dean.maps a.a0.toNat then s.finish 3 0
    else
      let m := assocGet [] s.dean.maps a.a0.toNat
      if m.length < a.a2.toNat then s.finish 4 0
      else
        match s.physWrite 0 a.a1.toNat (m.take a.a2.toNat) with
        | none => s.finish 6 0
        | some z => z.finish 0 0

/-! ## Commons banks (R301, R370) -/

/-- Whether a bank of a cluster is held by a LIVE, FROZEN or SAVED context of its owner. -/
def State.bankHeld (s : State) (c bank : Nat) : Bool :=
  s.dean.ctxs.any fun p => p.2.st.keeps && p.2.tenant = (s.cluster c).banks.getD bank 0 &&
    match s.regionOf p.2.image with
    | some r => (s.bankClusters r).contains c
    | none => false

/-- Whether banks of a cluster have drained for a BANKS command (R301): no context of an image whose region has the cluster
is LIVE, FROZEN or SAVED, and the region is empty. -/
def State.banksDrained (s : State) (c : Nat) (moves : List Nat) : Bool :=
  moves.isEmpty || (moves.all (s.bankQuiet c) && s.dean.regions.all fun r =>
    !(s.bankClusters r).contains c || ((s.imageCtxs r.image CtxState.keeps).isEmpty && s.linksEmpty r && s.enginesEmpty r))

/-- BANKS: banks that change owner are drained and scrubbed, then all of the mask assigned, and pinned or unpinned. While it
waits the Dean starts nothing in the cluster's region (R301 step 1). -/
def execHostBanks (s : State) : Host.Outcome State Fault Refusal :=
  commanding s fun a =>
    let c := a.a0.toNat
    let m := a.a1.toNat
    let tenant := a.a2.toNat
    let pin := a.a3.toNat
    if Config.clusters ≤ c || 2 ^ 16 ≤ m || 4096 ≤ tenant || 2 ≤ pin then s.finish 4 0
    else
      let moves := (List.range 16).filter fun b => bit m b && (s.cluster c).banks.getD b 0 ≠ tenant
      if moves.any fun b => s.bankHeld c b then (s.finish 2 0).reopened
      else if !s.banksDrained c moves then s.await (.draining c)
      else
        let s := moves.foldl (fun (z : State) b => z.eraseBank tenant c b) s
        let x := s.cluster c
        let s := s.setCluster c { x with pins := x.pins.zipIdx.map fun p => if bit m p.2 then decide (pin = 1) else p.1 }
        (s.finish 0 0).reopened

/-- BAD_COMMAND (R352): an unknown OP, or a nonzero zero field or unused argument. -/
def execBadCommand (_op : BitVec 16) (s : State) : Host.Outcome State Fault Refusal := commanding s fun _ => s.finish 1 0

end Sys2Proof.Machine
end

