-- ==== Sys2Proof/Machine/Boot.lean ====
section
/-! DEFINITION. The host and peers at the device's edge (R349, R350, R351, R353), and bring-up (R354, R355). -/

namespace Sys2Proof.Machine

/-! ## The Dean mailbox (R351) -/

/-- A write of TAIL: one more than the entry count ahead of HEAD is read as HEAD + entries. -/
def Mailbox.setTail (m : Mailbox) (v : BitVec 32) : Mailbox :=
  { m with tail := if m.entries < (v - m.head).toNat then m.head + BitVec.ofNat 32 m.entries else v }

/-- TAIL. -/
def execTail (v : BitVec 32) (s : State) : Host.Outcome State Fault Refusal :=
  .next (s.setDean { s.dean with mail := s.dean.mail.setTail v })

/-- A write of another mailbox field: the ring's base and entry count take effect only while HEAD equals TAIL. -/
def Mailbox.write (m : Mailbox) (off v : Nat) : Mailbox :=
  if off = 0x10 then { m with firmware := v }
  else if off = 0x20 then (if m.head = m.tail then { m with ring := v % 2 ^ 44 / 4096 * 4096 } else m)
  else if off = 0x28 then
    let n := v % 2 ^ 32
    if m.head = m.tail && (List.range 13).any (fun i => n = 2 ^ i) then { m with entries := n } else m
  else if off = 0x2C then m.setTail (BitVec.ofNat 32 v)
  else if off = 0x38 then { m with cmdIntr := v }
  else if 0x100 ≤ off && off < 0x300 && off % 8 = 0 then { m with msgIntr := assocSet m.msgIntr ((off - 0x100) / 8) v }
  else m

/-- MAILBOX_WRITE. -/
def execMailboxWrite (off : Nat) (v : Word) (s : State) : Host.Outcome State Fault Refusal :=
  .next (s.setDean { s.dean with mail := s.dean.mail.write off v.toNat })

/-- The boot status word (R355). -/
def Mailbox.bootWord (m : Mailbox) : Nat :=
  m.detail % 256 * 2 ^ 8 + m.step % 16 * 2 ^ 4 + (match m.boot with
    | .running => 0
    | .ready => 1
    | .failed => 2)

/-! ## The device aperture (R350, R353) -/

/-- A failed access from outside: a record in the Dean's own fault area. -/
def State.edgeFault (s : State) (tenant at_ cause sub : Nat) : State :=
  (s.deanFault { cause := cause, sub := sub, tenant := tenant, source := 8, address := at_ }).1

/-- Why an access of a tenant to a home address could not be performed: a hole, or no key. -/
def State.edgeCause (s : State) (tenant h : Nat) : Nat × Nat :=
  match s.spaceOf h with
  | .hole => (0x06, 0x02)
  | _ => if (s.keyFor tenant h).isNone then (0x07, 0x0C) else (0x08, 0x00)

/-- Bytes stored from outside, block by block, each at NEXT; a block that fails leaves a record. -/
def State.edgeStore (s : State) (tenant h : Nat) : Nat → List Byte → State
  | 0, _ => s
  | fuel + 1, bs =>
    if bs.isEmpty then s
    else
      let n := min bs.length (64 - h % 64)
      let s := match s.storeBytes tenant h (blocksFor n) (bs.take n) with
        | some z => z
        | none => let e := s.edgeCause tenant h; s.edgeFault tenant h e.1 e.2
      s.edgeStore tenant (h + n) fuel (bs.drop n)

/-- Bytes loaded from outside: none, and a record, where a block fails. -/
def State.edgeLoad (s : State) (tenant h n : Nat) : List Byte × State :=
  match s.loadBytes tenant h (blocksFor n) n with
  | some r => r
  | none => let e := s.edgeCause tenant h; ([], s.edgeFault tenant h e.1 e.2)

/-- Whether an access from outside must wait behind a request held at an input of one of its blocks' homes (R113, R219). -/
def State.edgeBlocked (s : State) (a n : Nat) : Bool :=
  (List.range ((a % 64 + n + 63) / 64)).any fun i => s.inputBlocked (a / 64 + i) (s.homeInput 0 (a / 64 + i))

/-- The pages of a queue that bytes at a physical address lie in (R346). -/
def Queue.pagesAt (q : Queue) (a n : Nat) : List Nat :=
  let r := q.rcd
  if r.tenant = 0 || n = 0 then []
  else
    ((List.range r.qlen).filter fun i => a < r.qbuf + 4096 * i + 4096 && r.qbuf + 4096 * i < a + n) ++
    ((List.range ((64 * r.crlen + 4095) / 4096)).filter fun j =>
      a < r.cring + 4096 * j + 4096 && r.cring + 4096 * j < a + n).map fun j => r.qlen + j

/-- The pages of queues that a host store reaches are dirty (R346, R347). -/
def State.soilPages (s : State) (a n : Nat) : State :=
  s.setDean { s.dean with queues := s.dean.queues.map fun p =>
    (p.1, (p.2.pagesAt a n).foldl (fun (z : Queue) i => z.soil i) p.2) }

/-- HOST_APERTURE_ACCESS (R353): port, offset o of the device aperture, and bytes to store, or how many to load. Offsets
past the aperture read as zero and discard writes (R350). An access waits behind a request that its home's input holds (R219). -/
def execHostApertureAccess (port off load : Nat) (data : List Byte) (s : State) : Host.Outcome State Fault Refusal :=
  if 2 ≤ port then .next s
  else
    let tenant := s.dean.portTen.getD port 0
    if 2 ^ 38 ≤ off then .next (if data.isEmpty then { s with hostRead := List.replicate load 0 } else s)
    else if s.edgeBlocked off (if data.isEmpty then load else data.length) then .next s
    else if data.isEmpty then
      let (bs, z) := s.edgeLoad tenant off load
      .next { z with hostRead := bs }
    else .next ((s.edgeStore tenant off (blocksFor data.length) data).soilPages off data.length)

/-- A peer's request of one block at its home: offset, bytes, version mode, RET and element width (R217, R226, R227). It waits at
the home as any access does. -/
def State.peerAct (s : State) (tenant off : Nat) (n : Nat) (op : AccessOp) (mode : VMode) (ret : Bool) (width : Nat) : State :=
  match s.keyFor tenant off with
  | none => s.edgeFault tenant off 0x07 0x0C
  | some key =>
    let a : Access := { block := off / 64, op := op, mode := mode, ret := ret, width := width, key := key, tenant := tenant, moved := n }
    match s.perform a noWaiter 0xFFFF none with
    | .done z _ => z
    | .waits z => z
    | .busy => s
    | .bad e u => s.edgeFault tenant off e u

/-- The bytes that a request moves at the home; a load reads n. -/
def peerBytes (n : Nat) (x : PeerOp) : Nat :=
  match x with
  | .load => n
  | .loadEq _ => n
  | .loadGe _ => n
  | .store bs _ => bs.length
  | .storeExp bs _ _ => bs.length
  | .atom _ _ w _ _ _ => w
  | .vwait _ => 0
  | .reclaim _ => 0

/-- A peer's request performed at its home. One that names a version, or asks for RET, is of one block (R220). -/
def State.peerServe (s : State) (tenant off n : Nat) (x : PeerOp) : State :=
  let o := off % 64
  let one (n : Nat) : Nat := min n (64 - o)
  let put (bs : List Byte) : AccessOp := .store ((bs.take (64 - o)).zipIdx.map fun p => (o + p.2, p.1))
  match x with
  | .load => (s.edgeLoad tenant off n).2
  | .loadEq v => s.peerAct tenant off (one n) .load (.eq v) false 4
  | .loadGe v => s.peerAct tenant off (one n) .load (.ge v) false 4
  | .store bs false => s.edgeStore tenant off (blocksFor bs.length) bs
  | .store bs true => s.peerAct tenant off (one bs.length) (put bs) .next true 4
  | .storeExp bs ret v => s.peerAct tenant off (one bs.length) (put bs) (.exp v) ret 4
  | .atom m sg w x y ret =>
    if m = 7 || !(w = 4 || w = 8) || o % w ≠ 0 then s
    else s.peerAct tenant off w (.atom (atomOf m.toNat) sg [(o, x, y)]) .next ret w
  | .vwait v => s.peerAct tenant off 0 .probe (.ge v) false 4
  | .reclaim v => s.peerAct tenant off 0 (.reclaim v) .any false 4

/-- PEER_ACCESS (R349): a peer package's access to this device's aperture, as a tenant the manual does not name (R338; log
entry 12). What it reads goes to the peer. -/
def execPeerAccess (off load : Nat) (op : PeerOp) (s : State) : Host.Outcome State Fault Refusal :=
  if 2 ^ 38 ≤ off || s.edgeBlocked off (peerBytes load op) then .next s
  else
    let tenant := Config.peerTenant s.tick % 4096
    .next (({ s with tick := s.tick + 1 } : State).peerServe tenant off load op)

/-! ## Bring-up (R354) -/

/-- The tiles of a stack domain. -/
def domainTiles (d : Nat) : List Nat :=
  ((List.range Config.clusters).filter fun c => domainOf c = d).flatMap fun c => (List.range 16).map fun l => tileIn c l

/-- A boot that stops at a step. -/
def State.bootFails (s : State) (step detail : Nat) : State :=
  s.setDean { s.dean with mail := { s.dean.mail with boot := .failed, step := step, detail := detail % 256 } }

/-- The device as the boot ROM finds it, with steps 1 and 2 done: meters, memory outside the package's commons, block
metadata, and what the host wrote to the mailbox for step 4 stay. -/
def State.bootStart (s : State) (rom : BootInputs) : State :=
  let bad := (List.range Config.domains).filter rom.failedDomains.contains
  let ports := (List.range 24).filter fun p => 2 ≤ p && !rom.failedPorts.contains p
  { agenda := s.agenda, tick := s.tick, mem := s.mem.filter fun p => p.1 < 2 ^ 52,
    blocks := (s.blocks.filter fun p => 64 * p.1 < 2 ^ 52).map fun p => (p.1, { p.2 with retained := [] }),
    egress := s.egress, intr := s.intr, hostRead := s.hostRead,
    dean := { fused := rom.fusedTiles ++ bad.flatMap domainTiles, offDomains := bad, devKey := rom.deviceKey,
              vkeys := [(0, rom.firmwareKey)], meters := s.dean.meters,
              tier2Ports := ports.length, switchPorts := ((List.range 32).filter fun p => 24 ≤ p && !rom.failedPorts.contains p),
              tier2 := if ports.isEmpty then 0 else min rom.tier2Bytes (3 * 2 ^ 40),
              mail := { firmware := s.dean.mail.firmware } } }

/-- The Dean's firmware image in host memory: its bytes, or SIGCHK's code 4 (R84, R354). -/
def State.firmwareImage (s : State) : Option (List Byte) :=
  let at_ := hostAddr (s.dean.mail.firmware % 2 ^ 44)
  let h := cellsGet s.mem at_ 32
  if field h 0 4 ≠ hdrMagic || field h 0x1C 4 < 256 then none else some (cellsGet s.mem at_ (field h 0x1C 4))

/-- RESET (R354): the boot ROM's five steps, whole. The first failure stops the boot; what step 5 scrubs is already as
the Eraser leaves it. -/
def execReset (rom : BootInputs) (s : State) : Host.Outcome State Fault Refusal :=
  let s := s.bootStart rom
  if s.dean.offDomains.length = Config.domains then
    let (w, s) := s.freshWord
    .next (s.bootFails 2 (w.toNat % 16))
  else if rom.failedPorts.contains 0 || rom.failedPorts.contains 1 then
    .next (s.bootFails 3 (if rom.failedPorts.contains 0 then 0 else 1))
  else
    match s.firmwareImage with
    | none => .next (s.bootFails 4 4)
    | some bs =>
      let st := s.sigStatus bs 0
      if st ≠ 0 then .next (s.bootFails 4 st)
      else
        let keys := (rom.installKeys.filter fun k => 1 ≤ k.1 && k.1 ≤ 7).foldl (fun m k => assocSet m k.1 k.2) s.dean.vkeys
        .next (s.setDean { s.dean with
          keys := [(0, { tenant := 0, key := rom.firmwareDataKey })], vkeys := keys,
          fwDigest := BitVec.ofNat 256 (ofBytesBE (slice bs 0xA0 32)),
          mail := { s.dean.mail with boot := .ready, step := 5, detail := 0 } })

/-- Whether a turn is left to a device whose boot has failed: the host's own, and a reset. -/
def afterFailure (a : Actor) : Bool :=
  match a with
  | .event (.reset _) _ _ => true
  | .event (.mailboxWrite _ _) _ _ => true
  | .event (.tail _) _ _ => true
  | .hostStore _ _ => true
  | .memoryError _ => true
  | .bstoreError _ _ => true
  | _ => false

end Sys2Proof.Machine
end

