-- ==== Sys2Proof/Machine/Crib.lean ====
section
/-! DEFINITION. The crib's tile recipes (R235 to R242): evaluation of a recipe, the replay unit, and the admission or
poisoning of a dropped sticky. -/

namespace Sys2Proof.Machine

/-! ## Operations of a recipe (R237) -/

/-- The element-wise instruction of an opcode that a recipe may hold. -/
def laneTable (op : Nat) (w : DWord) (sf : Nat) : Option LaneOp :=
  match op with
  | 0x20 => some (laneAdd w)
  | 0x21 => some (laneSub w)
  | 0x22 => some (laneMul w)
  | 0x23 => some (laneMulh w)
  | 0x24 => some (laneDiv w)
  | 0x25 => some (laneRem w)
  | 0x26 => some (laneMin w)
  | 0x27 => some (laneMax w)
  | 0x28 => some (laneAbs w)
  | 0x29 => some (laneNeg w)
  | 0x2A => some (laneAnd w)
  | 0x2B => some (laneOr w)
  | 0x2C => some (laneXor w)
  | 0x2D => some (laneAndn w)
  | 0x2E => some (laneNot w)
  | 0x2F => some (laneShl w)
  | 0x30 => some (laneShr w)
  | 0x31 => some (laneSar w)
  | 0x32 => some (laneRol w)
  | 0x33 => some (laneClz w)
  | 0x34 => some (lanePopc w)
  | 0x35 => some (laneCmp w)
  | 0x36 => some (laneAdds w)
  | 0x37 => some (laneSubs w)
  | 0x38 => some (laneMadk w)
  | 0x39 => some (laneAgen w)
  | 0x3A => some (laneBfx w)
  | 0x3B => some (laneMask w)
  | 0x40 => some (laneFadd w)
  | 0x41 => some (laneFsub w)
  | 0x42 => some (laneFmul w)
  | 0x43 => some (laneFmak w)
  | 0x44 => some (laneFnmsk w)
  | 0x45 => some (laneFdiv w)
  | 0x46 => some (laneFsqrt w)
  | 0x47 => some (laneFmin w)
  | 0x48 => some (laneFmax w)
  | 0x49 => some (laneFabs w)
  | 0x4A => some (laneFneg w)
  | 0x4B => some (laneFcmp w)
  | 0x4C => some (laneFclass w)
  | 0x4D => some (laneFscale w)
  | 0x4E => some (laneFcpys w)
  | 0x4F => some (laneFround w)
  | 0x60 => some (laneFrsqe w)
  | 0x61 => some (laneFrcpe w)
  | 0x62 => some (laneFexp2 w)
  | 0x63 => some (laneFlog2 w)
  | 0x64 => some (laneFsin w)
  | 0x65 => some (laneFcos w)
  | 0x66 => some (laneFtanh w)
  | 0x67 => some (laneFsigm w)
  | 0x68 => some (laneCvtl w sf)
  | _ => none

/-- Where an operation takes its third source from: SC, or SB for BFX (R236). -/
def thirdAt (op : Nat) : Option Nat :=
  if op = 0x38 || op = 0x39 || op = 0x43 || op = 0x44 then some 2 else if op = 0x3A then some 1 else none

/-- The format a constant source takes (R236). -/
def constFmt (op fmt pos : Nat) : Nat :=
  if (op = 0x39 || op = 0x80) && pos = 0 then 30
  else if op = 0x39 && pos = 2 then 28
  else if op = 0x4D && pos = 1 then 8
  else fmt

/-- A token over a dropped sticky's tags, where its MASK is set. -/
def DropRec.cover (d : DropRec) (fmt : Nat) (scale : BitVec 8) (vals : Nat → Option Nat) : Token :=
  let v (i : Nat) : Option Nat := if d.tok.has i then vals i else none
  let xs := (List.range d.tok.len).map v
  { act := .normal, fmt := BitVec.ofNat 5 fmt, len := d.tok.len, scale := scale, ctx := d.tok.ctx, itag := d.tok.itag,
    mask := BitVec.ofNat 32 (maskOf xs), data := xs.map fun x => BitVec.ofNat 64 (x.getD 0) }

/-- A source of an operation (R236): none raises Recipe Source. -/
def State.recipeSource (s : State) (t : Nat) (d : DropRec) (op fmt : Nat) (done : List Token) (pos code : Nat) : Option Token :=
  let low := code % 64
  match code / 64 with
  | 1 =>
    let f := constFmt op fmt pos
    some (d.cover f 0 fun _ => some (s.konst t (low % 16) % 2 ^ fmtBits f))
  | 2 => done[low % 4]?
  | 3 =>
    let slot := low / 2
    let here := ((s.tile t).at_ .sticky d.tok.ctx slot (low % 2)).filter fun e =>
      !e.tok.drp && agrees (s.tagMask t slot) e.tok.lo d.tok.lo
    (here.head?).map fun e => d.cover e.tok.fmt.toNat e.tok.scale e.tok.lane
  | _ => some {}

/-- An element-wise operation over the dropped sticky's elements (R238): the result and flags, or its fault. -/
def laneRecipe (d : DropRec) (o : LaneOp) (mode : Nat) (l r k : Token) (third : Bool) : Except (Nat × Nat) (Token × Nat) :=
  match o.ok l r with
  | some f => .error f
  | none =>
    match o.rule.apply l.scale.toInt (if o.two then some r.scale.toInt else none) with
    | none => .error illScale
    | some sc =>
      let one (i : Nat) : Option Nat × Nat :=
        match l.lane i, (if o.two then r.lane i else some 0), (if third then k.lane i else some 0) with
        | some a, some b, some c =>
          o.f { l := l, r := r, x := [], y := [], fwd := false, k := c, ks := k.scale.toInt, mode := mode } a b
        | _, _, _ => (none, 0)
      let rs := (List.range d.tok.len).map fun i => if d.tok.has i then one i else (none, 0)
      .ok (d.cover o.out.toNat (BitVec.ofInt 8 sc) (fun i => (rs.getD i (none, 0)).1), rs.foldl (fun n x => n ||| x.2) 0)

/-! ## Loads of a recipe (R237, R238, R242) -/

/-- What a replay comes to. -/
inductive Replay (α : Type) where
  | value (s : State) (v : α)
  | stalled (s : State)
  | bad (s : State) (cause sub : Nat)

/-- The groups of an LD in order: each read at exactly version n, once. A walk or a wait that has failed fails the first group
that has not been read. -/
def State.replayGroups (s : State) (t : Nat) (d : DropRec) (n : BitVec 16) (w : Nat) :
    List (List (Nat × Nat)) → List (Nat × Nat) → Replay (List (Nat × Nat))
  | [], got => .value s got
  | es :: rest, got =>
    let x := s.tile t
    let c := s.ctx d.tok.ctx
    let va := (es.headD (0, 0)).2
    let take (bytes : List Byte) : List (Nat × Nat) := got ++ es.map fun e => (e.1, field bytes (e.2 % 64) w)
    if es.any fun e => e.2 % w ≠ 0 then .bad s 0x0F 0x06
    else
      match x.rval.find? fun v => v.1 = va / 64 && v.2.1 = n.toNat, x.rfail with
      | some v, _ => s.replayGroups t d n w rest (take v.2.2)
      | none, some (cause, sub) => .bad s cause sub
      | none, none =>
        match translate x.rentry c.asid va .read c.priv false with
        | .miss =>
          .stalled ((s.setTile t { x with rstall := .walk }).addMiss
            { who := .replayUnit t, asid := c.asid, tenant := c.tenant, va := va, kind := .read })
        | .bad cause sub => .bad s cause sub
        | .home h =>
          let tenant := s.actingTenant c.tenant c.asid
          match s.keyFor tenant h with
          | none => .bad s 0x07 0x0C
          | some key =>
            let a : Access := { block := h / 64, mode := .eq n, key := key, tenant := tenant, moved := es.length * w }
            match s.perform a (.replay t (va / 64)) d.tok.ctx (some c.asid) with
            | .done s' o =>
              let s' := s'.updTile t fun y => { y with rval := y.rval ++ [(va / 64, n.toNat, o.bytes)] }
              s'.replayGroups t d n w rest (take o.bytes)
            | .waits s' => .stalled (s'.updTile t fun y => { y with rstall := .version })
            | .busy => .stalled s
            | .bad 0x05 _ => .bad s 0x0C 0x03
            | .bad cause sub => .bad s cause sub

/-- An LD of a recipe. -/
def State.replayLoad (s : State) (t : Nat) (d : DropRec) (fmt : Nat) (n : BitVec 16) (a : Token) : Replay Token :=
  if a.fmt ≠ 30 then .bad s 0x0B 0x02
  else
    let elems := a.present.map fun i => (i, a.elem i)
    let groups := (addressBlocks a).map fun b => elems.filter fun e => e.2 / 64 = b
    match s.replayGroups t d n (fmtBytes fmt) groups [] with
    | .value s' got => .value s' (d.cover fmt 0 fun i => (got.find? fun v => v.1 = i).map fun v => v.2)
    | .stalled s' => .stalled s'
    | .bad s' c u => .bad s' c u

/-! ## A recipe (R235 to R238) -/

/-- The words of a recipe up to its end. -/
def recipeWords (ws : List Word) : List Word := ws.takeWhile fun w => w ≠ 0

/-- The operations of a recipe in order: results so far and their flags, which stand when a later operation faults
(R133). -/
def State.replayOps (s : State) (t : Nat) (d : DropRec) : List Word → List Token → Nat → Replay (Token × Nat)
  | [], done, fl =>
    match done.getLast? with
    | some v => .value s (v, fl)
    | none => .bad s 0x0C 0x04
  | w :: rest, done, fl =>
    let op := opcodeOf w
    let fmt := (w.extractLsb' 51 5).toNat
    let src (pos : Nat) := s.recipeSource t d op fmt done pos (w.toNat / 2 ^ (40 - 8 * pos) % 256)
    match src 0, src 1, src 2 with
    | some l, some r, some c =>
      if op = 0x01 then s.replayOps t d rest (done ++ [l]) fl
      else if op = 0x80 then
        match s.replayLoad t d fmt (w.extractLsb' 8 16) l with
        | .value s' v => s'.replayOps t d rest (done ++ [v]) fl
        | .stalled s' => .stalled s'
        | .bad s' c u => .bad (s'.addFlags d.tok.ctx fl) c u
      else
        match laneTable op { fmt := w.extractLsb' 51 5, mod := w.extractLsb' 48 3 } l.fmt.toNat with
        | none => .bad (s.addFlags d.tok.ctx fl) 0x0C 0x04
        | some o =>
          let k := match thirdAt op with
            | some 2 => c
            | _ => r
          match laneRecipe d o (s.ctx d.tok.ctx).mode.toNat l r k (thirdAt op).isSome with
          | .error (c, u) => .bad (s.addFlags d.tok.ctx fl) c u
          | .ok (v, g) => s.replayOps t d rest (done ++ [v]) (fl ||| g)
    | _, _, _ => .bad (s.addFlags d.tok.ctx fl) 0x0C 0x02

/-! ## What follows a replay (R241, R242, R244) -/

/-- L of a RECALL emitted, which has held the datapath at its firing (R244). -/
def State.recallDone (s : State) (t : Nat) (p : Pairing) : State :=
  let last := (s.tile t).lastRound
  (s.onLeft t p (unpackD ((s.blockOf t).slots.getD p.slot 0)) p.left.fmt fun s ts z => s.emitRes t p ts z.fwd (z.asL z.x)).updTile t
    fun x => { x with lastRound := last }

/-- A record's replay over: RECALLs that asked for it may emit (R244), and the replay unit is free. -/
def State.replayOver (s : State) (t id : Nat) : State :=
  let x := s.tile t
  let rs := x.recalls.map fun r => (r.1, r.2.filter fun i => i ≠ id)
  let s := s.setTile t { x with recalls := rs.filter fun r => !r.2.isEmpty, replayQ := x.replayQ.filter fun i => i ≠ id,
                                rcur := none, rval := [], rfail := none, rrun := none }
  (rs.filter fun r => r.2.isEmpty).foldl (fun (z : State) r => z.recallDone t r.1) s

/-- A replay fault (R242): the record is poisoned, and its pairings fault. -/
def State.poison (s : State) (t : Nat) (d : DropRec) (cause sub : Nat) : State :=
  let alone := !((s.tile t).pairings.any fun p => p.uses d.id)
  let s := if alone then
      (s.raise { s.slotRecord t d.tok.slot d.tok.ctx d.tok.lo cause (sub + 128) 0 0 0 with source := 7 }).1
    else s
  let s := (s.updTile t fun x =>
    { x with drops := x.drops.map fun e => if e.id = d.id then { e with poisoned := some (cause, sub) } else e }).wantReplays t
  let s := if d.purged then s.updTile t fun x => { x with drops := x.drops.filter fun e => e.id ≠ d.id } else s
  s.replayOver t d.id

/-- The dropped sticky with the recipe's value as its payload (R238): an element that the value does not hold is zero
there, as in the payload of any run (R19; log entry 140). -/
def DropRec.restored (d : DropRec) (v : Token) : Token :=
  { d.tok with data := (List.range d.tok.len).map fun i => BitVec.ofNat 64 ((v.lane i).getD 0) }

/-- Whether a token that waits at a tile's input ports is admitted before a replayed value that came in a cycle (R90): it came
no later, and the value waits too, or the token would be taken now. -/
def State.waitersBefore (s : State) (t since : Nat) : Bool :=
  (List.range 5).any fun q => match s.inputHead t q with
    | some (z, i) => z.stalled && !z.collided && z.since ≤ since && ((s.tile t).rrun.isSome || s.goesNow t z i)
    | none => false

/-- The value admitted (R241), or, after a PURGE, given to the pairings formed before it (R242). While no entry can be
freed the run waits in the replay unit. From the save point of a bell on it takes no entry: what is saved is the record
(R245, R319; log entry 141). -/
def State.readmit (s : State) (t : Nat) (d : DropRec) (tok : Token) : State :=
  let x := s.tile t
  let free (y : Tile) : Tile := { y with drops := y.drops.filter fun e => e.id ≠ d.id }
  let since := if x.rrun.isSome then x.rsince else s.cycle
  if x.belled d.tok.ctx then s.replayOver t d.id
  else if d.purged then
    (s.setTile t (free { x with pairings := x.pairings.map fun p => p.give d.id tok })).replayOver t d.id
  else
    if s.waitersBefore t since then s.setTile t { x with rrun := some tok, rsince := since }
    else match Tile.admission (Tile.readmission d tok s.cycle) (Config.matchEntries + 1) x with
    | (y, none) => s.setTile t { y with rrun := some tok, rsince := since }
    | (y, some _) => ((s.setTile t y).progressed d.tok.ctx).replayOver t d.id

/-- A free replay unit turns to the first request in its queue whose context it may work for (R241). -/
def State.replayTurn (s : State) (t : Nat) : State :=
  let x := s.tile t
  if x.replayHead.isSome then s
  else
    s.setTile t { x with rcur := x.replayQ.find? fun id => x.drops.any fun d => d.id = id && s.replays d.tok.ctx }

/-- The recipe of a record evaluated, and what comes of it (R238, R242). -/
def State.replayRecord (s : State) (t : Nat) (d : DropRec) : State :=
  match s.replayOps t d (recipeWords ((s.blockOf t).recipes.getD d.tok.crib.toNat [])) [] 0 with
  | .stalled s' => s'
  | .bad s' c u => s'.poison t d c u
  | .value s' (v, fl) =>
    let s' := s'.addFlags d.tok.ctx fl
    if v.fmt ≠ d.tok.fmt || v.scale ≠ d.tok.scale then s'.poison t d 0x0C 0x01 else s'.readmit t d (d.restored v)

/-- One move of a tile's replay unit (R241, R242). -/
def State.replayUnit (s : State) (t : Nat) : State :=
  let s := s.replayTurn t
  let x := s.tile t
  match x.replayHead with
  | none => s
  | some d =>
    if x.rstall ≠ .none || !s.replays d.tok.ctx then s
    else
      match x.rrun with
      | some tok => s.readmit t d tok
      | none => s.replayRecord t d

/-- REPLAY (R241): tile u's replay unit works on the head of its queue. -/
def execReplay (s : State) : Host.Outcome State Fault Refusal :=
  match s.focus with
  | .event u _ => .next (s.replayUnit u)
  | _ => .next s

end Sys2Proof.Machine
end

