-- ==== Sys2Proof/Machine/Debug.lean ====
section
/-! DEFINITION. The fabric debug instructions (R326, R327). -/

namespace Sys2Proof.Machine

/-- TRAP: a record, and a FAULT token over L's tags whatever L's MASK. -/
def execTrap (w : DWord) (s : State) : Host.Outcome State Fault Refusal :=
  firing s fun t p =>
    let ts := s.targets t w.nt w.t1 w.t0
    let s := s.hold t 1
    if p.left.act = .fault then s.passFault t p ts p.left.fmt p.left
    else s.fireFault t p ts p.left.fmt p.itag.toNat 0x10 (s.konst t w.kidx.toNat % 256)

/-- The 192 bytes of a probe record. -/
def State.probeBytes (s : State) (t slot : Nat) (l : Token) : List Byte :=
  toBytes 8 l.word0 ++ toBytes 8 l.word1 ++ slice l.payload 0 128 ++ toBytes 1 (tileX t) ++ toBytes 1 (tileY t) ++
  toBytes 1 slot ++ List.replicate 5 0 ++ toBytes 8 s.cycle ++ List.replicate 32 0

/-- A probe record stored in the context's ring (R313): dropped as a fault record is. -/
def State.storeProbe (s : State) (c : Nat) (bs : List Byte) : State :=
  match s.faultArea c with
  | none => s
  | some _ =>
    match s.areaStore c 4 fun n => (bs, 40 + 3 * (n % 8)) with
    | some (_, s', _) => s'
    | none => (s.deanFault { cause := 0x07, sub := 0x0D, ctx := c, tenant := (s.ctx c).tenant, source := 8 }).1

def execProbe (w : DWord) (s : State) : Host.Outcome State Fault Refusal :=
  firing s fun t p => s.onPool t p w false p.left.fmt fun s ts l _ _ =>
    (s.storeProbe p.ctx (s.probeBytes t p.slot l)).emit t p.slot p.ctx p.itag.toNat (toAll ts l)

/-- The counter that a selector names, with the state after the read: reading ME_PEAK sets it to ME_USED (R88). -/
def State.counter (s : State) (t c k : Nat) : Nat × State :=
  let x := s.tile t
  let n := x.counters
  let d := domainOf (clusterOf t)
  let priv := ((s.regionAt t).map fun r => r.priv) = some true
  let shown (v : Nat) : Nat := if priv then v else 0
  match k with
  | 0 => (x.used, s)
  | 1 => (n.mePeak.toNat, s.setTile t { x with counters := { n with mePeak := BitVec.ofNat 32 x.used } })
  | 2 => (n.meDrop.toNat, s)
  | 3 => (n.meStall.toNat, s)
  | 4 => (n.alGrant.toNat, s)
  | 5 => (n.alWait.toNat, s)
  | 6 => (n.alOver.toNat, s)
  | 7 => ((s.ctx c).mode.toNat, s)
  | 8 => (shown (s.domain d).wkWalk.toNat, s)
  | 9 => (shown (s.domain d).wkWait.toNat, s)
  | 10 => (shown (s.vbUsed d), s)
  | 11 => (shown (s.domain d).vbWait.toNat, s)
  | _ => (0, s)

def execStatq (w : DWord) (s : State) : Host.Outcome State Fault Refusal :=
  firing s fun t p => s.onPool t p w false 11 fun s ts _ _ _ =>
    let (v, s) := s.counter t p.ctx (s.konst t w.kidx.toNat % 32)
    s.emit t p.slot p.ctx p.itag.toNat (toAll ts (oneN32 p.ctx p.itag v))

/-- CENSUS: the pairing has left the match store, so that L is not counted. -/
def execCensus (w : DWord) (s : State) : Host.Outcome State Fault Refusal :=
  firing s fun t p => s.onPool t p w false 11 fun s ts _ _ _ =>
    s.emitRun t p ts
      { act := .normal, fmt := 11, len := 2, ctx := p.ctx, itag := p.itag, mask := 3,
        data := [BitVec.ofNat 64 (s.census p.ctx % 2 ^ 32), BitVec.ofNat 64 (s.engines p.ctx % 2 ^ 32)] }

/-- BELLIN: ignored while a bell of the context is in progress; L is emitted in any case. -/
def execBellin (w : DWord) (s : State) : Host.Outcome State Fault Refusal :=
  firing s fun t p => s.onPool t p w false p.left.fmt fun s ts l _ _ =>
    let s := s.emit t p.slot p.ctx p.itag.toNat (toAll ts l)
    if (s.ctx p.ctx).bell.isSome then s else s.ringBells p.ctx true

end Sys2Proof.Machine
end

