-- ==== Sys2Proof/Machine/HomeAccess.lean ====
section
/-! DEFINITION. HOME_ACCESS (R220): one access of a stream performed at its home. -/

namespace Sys2Proof.Machine

/-- The k-th issued group of a tile's port performed at its home, where the order of its port lets it (R220, R222). -/
def State.portMove (s : State) (t k : Nat) : State :=
  match (issuedGroups (s.tile t).port)[k]? with
  | none => s
  | some (p, j, g) =>
    if !s.mayPerform t p g then s
    else
      match s.perform g.acc (.group t p.seq j) p.ctx (some (s.ctx p.ctx).asid) with
      | .done s' o => s'.updTile t fun x => x.updGroup p.seq j fun m g => g.finish m.kind (fmtBytes m.fmt.toNat) o
      | .waits s' => s'.updTile t fun x => x.updGroup p.seq j fun _ g => { g with st := .waiting }
      | .busy => s
      | .bad c u => s.groupFails t p.seq j c u

/-- Waits at a peer met again: its versions change without us (R349; log entry 12). -/
def State.peerWaits (s : State) : State :=
  let atPeer (w : HomeWait) : Bool := match s.spaceOf (64 * w.acc.block) with
    | .peer _ => true
    | _ => false
  if s.waits.any atPeer then ({ s with tick := s.tick + 1 } : State).serveWaits (2 * s.waits.length) else s

/-- HOME_ACCESS (R220): an access of a tile port (the k-th issued group), an AGN, a replay unit, or a task. A task's fetch
is FETCH_BLOCK. -/
def execHomeAccess (who : StreamId) (s : State) : Host.Outcome State Fault Refusal :=
  match s.focus with
  | .event _ k =>
    match who with
    | .tilePort t => .next (s.portMove t k).peerWaits
    | .agn c a => .next (s.agnMove c a).peerWaits
    | .replayUnit t => .next (s.replayUnit t).peerWaits
    | .taskData c j => .next (s.taskPerform c j).peerWaits
    | .taskFetch _ _ => .next s.peerWaits
  | _ => .next s

end Sys2Proof.Machine
end

