-- ==== Sys2Proof/Machine/Dispatch.lean ====
section
/-! DEFINITION. What each instruction and each event of the device does: one arm per row of the opcode table. -/

namespace Sys2Proof.Machine

def exec (i : Instr) (s : State) : Host.Outcome State Fault Refusal :=
  match i with
  | .sink w => Sys2Proof.Machine.execSink w s
  | .pass w => Sys2Proof.Machine.execPass w s
  | .fanout w => Sys2Proof.Machine.execFanout w s
  | .steer w => Sys2Proof.Machine.execSteer w s
  | .merge w => Sys2Proof.Machine.execMerge w s
  | .sync w => Sys2Proof.Machine.execSync w s
  | .emit w => Sys2Proof.Machine.execEmit w s
  | .retag w => Sys2Proof.Machine.execRetag w s
  | .stick w => Sys2Proof.Machine.execStick w s
  | .purge w => Sys2Proof.Machine.execPurge w s
  | .cancel w => Sys2Proof.Machine.execCancel w s
  | .split w => Sys2Proof.Machine.execSplit w s
  | .pack w => Sys2Proof.Machine.execPack w s
  | .unpack w => Sys2Proof.Machine.execUnpack w s
  | .ctag w => Sys2Proof.Machine.execCtag w s
  | .egress w => Sys2Proof.Machine.execEgress w s
  | .alloc w => Sys2Proof.Machine.execAlloc w s
  | .release w => Sys2Proof.Machine.execRelease w s
  | .give w => Sys2Proof.Machine.execGive w s
  | .tld w => Sys2Proof.Machine.execTld w s
  | .tst w => Sys2Proof.Machine.execTst w s
  | .ticket w => Sys2Proof.Machine.execTicket w s
  | .retn w => Sys2Proof.Machine.execRetn w s
  | .poolq w => Sys2Proof.Machine.execPoolq w s
  | .recall w => Sys2Proof.Machine.execRecall w s
  | .drop w => Sys2Proof.Machine.execDrop w s
  | .add w => Sys2Proof.Machine.execAdd w s
  | .sub w => Sys2Proof.Machine.execSub w s
  | .mul w => Sys2Proof.Machine.execMul w s
  | .mulh w => Sys2Proof.Machine.execMulh w s
  | .div w => Sys2Proof.Machine.execDiv w s
  | .rem w => Sys2Proof.Machine.execRem w s
  | .min w => Sys2Proof.Machine.execMin w s
  | .max w => Sys2Proof.Machine.execMax w s
  | .abs w => Sys2Proof.Machine.execAbs w s
  | .neg w => Sys2Proof.Machine.execNeg w s
  | .and w => Sys2Proof.Machine.execAnd w s
  | .or w => Sys2Proof.Machine.execOr w s
  | .xor w => Sys2Proof.Machine.execXor w s
  | .andn w => Sys2Proof.Machine.execAndn w s
  | .not w => Sys2Proof.Machine.execNot w s
  | .shl w => Sys2Proof.Machine.execShl w s
  | .shr w => Sys2Proof.Machine.execShr w s
  | .sar w => Sys2Proof.Machine.execSar w s
  | .rol w => Sys2Proof.Machine.execRol w s
  | .clz w => Sys2Proof.Machine.execClz w s
  | .popc w => Sys2Proof.Machine.execPopc w s
  | .cmp w => Sys2Proof.Machine.execCmp w s
  | .adds w => Sys2Proof.Machine.execAdds w s
  | .subs w => Sys2Proof.Machine.execSubs w s
  | .madk w => Sys2Proof.Machine.execMadk w s
  | .agen w => Sys2Proof.Machine.execAgen w s
  | .bfx w => Sys2Proof.Machine.execBfx w s
  | .mask w => Sys2Proof.Machine.execMask w s
  | .fadd w => Sys2Proof.Machine.execFadd w s
  | .fsub w => Sys2Proof.Machine.execFsub w s
  | .fmul w => Sys2Proof.Machine.execFmul w s
  | .fmak w => Sys2Proof.Machine.execFmak w s
  | .fnmsk w => Sys2Proof.Machine.execFnmsk w s
  | .fdiv w => Sys2Proof.Machine.execFdiv w s
  | .fsqrt w => Sys2Proof.Machine.execFsqrt w s
  | .fmin w => Sys2Proof.Machine.execFmin w s
  | .fmax w => Sys2Proof.Machine.execFmax w s
  | .fabs w => Sys2Proof.Machine.execFabs w s
  | .fneg w => Sys2Proof.Machine.execFneg w s
  | .fcmp w => Sys2Proof.Machine.execFcmp w s
  | .fclass w => Sys2Proof.Machine.execFclass w s
  | .fscale w => Sys2Proof.Machine.execFscale w s
  | .fcpys w => Sys2Proof.Machine.execFcpys w s
  | .fround w => Sys2Proof.Machine.execFround w s
  | .frsqe w => Sys2Proof.Machine.execFrsqe w s
  | .frcpe w => Sys2Proof.Machine.execFrcpe w s
  | .fexp2 w => Sys2Proof.Machine.execFexp2 w s
  | .flog2 w => Sys2Proof.Machine.execFlog2 w s
  | .fsin w => Sys2Proof.Machine.execFsin w s
  | .fcos w => Sys2Proof.Machine.execFcos w s
  | .ftanh w => Sys2Proof.Machine.execFtanh w s
  | .fsigm w => Sys2Proof.Machine.execFsigm w s
  | .cvtl w => Sys2Proof.Machine.execCvtl w s
  | .narrow w => Sys2Proof.Machine.execNarrow w s
  | .widen w => Sys2Proof.Machine.execWiden w s
  | .plane w => Sys2Proof.Machine.execPlane w s
  | .bits w => Sys2Proof.Machine.execBits w s
  | .rsum w => Sys2Proof.Machine.execRsum w s
  | .rmax w => Sys2Proof.Machine.execRmax w s
  | .rmin w => Sys2Proof.Machine.execRmin w s
  | .rargmx w => Sys2Proof.Machine.execRargmx w s
  | .rscan w => Sys2Proof.Machine.execRscan w s
  | .shuf w => Sys2Proof.Machine.execShuf w s
  | .bcast w => Sys2Proof.Machine.execBcast w s
  | .rotl w => Sys2Proof.Machine.execRotl w s
  | .compact w => Sys2Proof.Machine.execCompact w s
  | .expand w => Sys2Proof.Machine.execExpand w s
  | .rpop w => Sys2Proof.Machine.execRpop w s
  | .rtop2 w => Sys2Proof.Machine.execRtop2 w s
  | .ld w => Sys2Proof.Machine.execLd w s
  | .st w => Sys2Proof.Machine.execSt w s
  | .atom w => Sys2Proof.Machine.execAtom w s
  | .cas w => Sys2Proof.Machine.execCas w s
  | .reclaim w => Sys2Proof.Machine.execReclaim w s
  | .fence w => Sys2Proof.Machine.execFence w s
  | .vwait w => Sys2Proof.Machine.execVwait w s
  | .ldb w => Sys2Proof.Machine.execLdb w s
  | .stb w => Sys2Proof.Machine.execStb w s
  | .copy w => Sys2Proof.Machine.execCopy w s
  | .arm w => Sys2Proof.Machine.execArm w s
  | .disarm w => Sys2Proof.Machine.execDisarm w s
  | .gather w => Sys2Proof.Machine.execGather w s
  | .scatter w => Sys2Proof.Machine.execScatter w s
  | .cpstat w => Sys2Proof.Machine.execCpstat w s
  | .cpstop w => Sys2Proof.Machine.execCpstop w s
  | .mma w => Sys2Proof.Machine.execMma w s
  | .mmac w => Sys2Proof.Machine.execMmac w s
  | .accz w => Sys2Proof.Machine.execAccz w s
  | .accrd w => Sys2Proof.Machine.execAccrd w s
  | .accwr w => Sys2Proof.Machine.execAccwr w s
  | .mmstat w => Sys2Proof.Machine.execMmstat w s
  | .cvt w => Sys2Proof.Machine.execCvt w s
  | .reblk w => Sys2Proof.Machine.execReblk w s
  | .qplane w => Sys2Proof.Machine.execQplane w s
  | .qunpl w => Sys2Proof.Machine.execQunpl w s
  | .scalemx w => Sys2Proof.Machine.execScalemx w s
  | .aucgo w => Sys2Proof.Machine.execAucgo w s
  | .aucstep w => Sys2Proof.Machine.execAucstep w s
  | .aucset w => Sys2Proof.Machine.execAucset w s
  | .aucget w => Sys2Proof.Machine.execAucget w s
  | .aucstop w => Sys2Proof.Machine.execAucstop w s
  | .trap w => Sys2Proof.Machine.execTrap w s
  | .probe w => Sys2Proof.Machine.execProbe w s
  | .statq w => Sys2Proof.Machine.execStatq w s
  | .census w => Sys2Proof.Machine.execCensus w s
  | .bellin w => Sys2Proof.Machine.execBellin w s
  | .ctxnew w => Sys2Proof.Machine.execCtxnew w s
  | .ctxfree w => Sys2Proof.Machine.execCtxfree w s
  | .inject w => Sys2Proof.Machine.execInject w s
  | .scrub w => Sys2Proof.Machine.execScrub w s
  | .placeh w => Sys2Proof.Machine.execPlaceh w s
  | .meter w => Sys2Proof.Machine.execMeter w s
  | .keyld w => Sys2Proof.Machine.execKeyld w s
  | .bellout w => Sys2Proof.Machine.execBellout w s
  | .addC d a b => Sys2Proof.Machine.execAddC d a b s
  | .subC d a b => Sys2Proof.Machine.execSubC d a b s
  | .andC d a b => Sys2Proof.Machine.execAndC d a b s
  | .orC d a b => Sys2Proof.Machine.execOrC d a b s
  | .xorC d a b => Sys2Proof.Machine.execXorC d a b s
  | .sll d a b => Sys2Proof.Machine.execSll d a b s
  | .srl d a b => Sys2Proof.Machine.execSrl d a b s
  | .sra d a b => Sys2Proof.Machine.execSra d a b s
  | .slt d a b => Sys2Proof.Machine.execSlt d a b s
  | .sltu d a b => Sys2Proof.Machine.execSltu d a b s
  | .mulC d a b => Sys2Proof.Machine.execMulC d a b s
  | .mulhC d a b => Sys2Proof.Machine.execMulhC d a b s
  | .mulhu d a b => Sys2Proof.Machine.execMulhu d a b s
  | .divC d a b => Sys2Proof.Machine.execDivC d a b s
  | .divu d a b => Sys2Proof.Machine.execDivu d a b s
  | .remC d a b => Sys2Proof.Machine.execRemC d a b s
  | .remu d a b => Sys2Proof.Machine.execRemu d a b s
  | .minC d a b => Sys2Proof.Machine.execMinC d a b s
  | .maxC d a b => Sys2Proof.Machine.execMaxC d a b s
  | .clzC d a => Sys2Proof.Machine.execClzC d a s
  | .popcC d a => Sys2Proof.Machine.execPopcC d a s
  | .addi d a m => Sys2Proof.Machine.execAddi d a m s
  | .andi d a m => Sys2Proof.Machine.execAndi d a m s
  | .ori d a m => Sys2Proof.Machine.execOri d a m s
  | .xori d a m => Sys2Proof.Machine.execXori d a m s
  | .slli d a m => Sys2Proof.Machine.execSlli d a m s
  | .srli d a m => Sys2Proof.Machine.execSrli d a m s
  | .srai d a m => Sys2Proof.Machine.execSrai d a m s
  | .slti d a m => Sys2Proof.Machine.execSlti d a m s
  | .lui d m => Sys2Proof.Machine.execLui d m s
  | .ldC d a v m sc z q => Sys2Proof.Machine.execLdC d a v m sc z q s
  | .lds d a v m sc z q => Sys2Proof.Machine.execLds d a v m sc z q s
  | .stC d a v m sc z q => Sys2Proof.Machine.execStC d a v m sc z q s
  | .aadd d a v m sc z q => Sys2Proof.Machine.execAadd d a v m sc z q s
  | .amin d a v m sc z q => Sys2Proof.Machine.execAmin d a v m sc z q s
  | .amax d a v m sc z q => Sys2Proof.Machine.execAmax d a v m sc z q s
  | .axchg d a v m sc z q => Sys2Proof.Machine.execAxchg d a v m sc z q s
  | .casC d a v m sc z q => Sys2Proof.Machine.execCasC d a v m sc z q s
  | .fenceC sc => Sys2Proof.Machine.execFenceC sc s
  | .reclaimC d a b => Sys2Proof.Machine.execReclaimC d a b s
  | .vwaitC d a b => Sys2Proof.Machine.execVwaitC d a b s
  | .beq a b f => Sys2Proof.Machine.execBeq a b f s
  | .bne a b f => Sys2Proof.Machine.execBne a b f s
  | .blt a b f => Sys2Proof.Machine.execBlt a b f s
  | .bge a b f => Sys2Proof.Machine.execBge a b f s
  | .bltu a b f => Sys2Proof.Machine.execBltu a b f s
  | .bgeu a b f => Sys2Proof.Machine.execBgeu a b f s
  | .jal d f => Sys2Proof.Machine.execJal d f s
  | .jalr d a m => Sys2Proof.Machine.execJalr d a m s
  | .recv d a b => Sys2Proof.Machine.execRecv d a b s
  | .send d a => Sys2Proof.Machine.execSend d a s
  | .bind d a => Sys2Proof.Machine.execBind d a s
  | .spawn d a b => Sys2Proof.Machine.execSpawn d a b s
  | .sleep a => Sys2Proof.Machine.execSleep a s
  | .kill d a => Sys2Proof.Machine.execKill d a s
  | .cfgw d a b => Sys2Proof.Machine.execCfgw d a b s
  | .cfgmc d a b => Sys2Proof.Machine.execCfgmc d a b s
  | .cfgcrc d a => Sys2Proof.Machine.execCfgcrc d a s
  | .cfgcom d => Sys2Proof.Machine.execCfgcom d s
  | .cfgrb d => Sys2Proof.Machine.execCfgrb d s
  | .place d a b => Sys2Proof.Machine.execPlace d a b s
  | .fuseq d a => Sys2Proof.Machine.execFuseq d a s
  | .sigchk d a b => Sys2Proof.Machine.execSigchk d a b s
  | .copyC d a q r sc f => Sys2Proof.Machine.execCopyC d a q r sc f s
  | .gatherC d a b q r sc f => Sys2Proof.Machine.execGatherC d a b q r sc f s
  | .armC d a q r sc => Sys2Proof.Machine.execArmC d a q r sc s
  | .disarmC d a => Sys2Proof.Machine.execDisarmC d a s
  | .mmaC d a q sc => Sys2Proof.Machine.execMmaC d a q sc s
  | .aucgoC d a q sc => Sys2Proof.Machine.execAucgoC d a q sc s
  | .aucgetC d => Sys2Proof.Machine.execAucgetC d s
  | .crc32c d a b => Sys2Proof.Machine.execCrc32c d a b s
  | .rtag d a b => Sys2Proof.Machine.execRtag d a b s
  | .runtag d => Sys2Proof.Machine.execRuntag d s
  | .resume d a => Sys2Proof.Machine.execResume d a s
  | .csrr d c => Sys2Proof.Machine.execCsrr d c s
  | .csrw d a c => Sys2Proof.Machine.execCsrw d a c s
  | .trapC c => Sys2Proof.Machine.execTrapC c s
  | .halt d a => Sys2Proof.Machine.execHalt d a s
  | .bell d a => Sys2Proof.Machine.execBell d a s
  | .quiesce d a => Sys2Proof.Machine.execQuiesce d a s
  | .xinv asid => Sys2Proof.Machine.execXinv asid s
  | .homeAccess who => Sys2Proof.Machine.execHomeAccess who s
  | .ingressWrite window image => Sys2Proof.Machine.execIngressWrite window image s
  | .hostApertureAccess port off load data => Sys2Proof.Machine.execHostApertureAccess port off load data s
  | .tail v => Sys2Proof.Machine.execTail v s
  | .mailboxWrite off v => Sys2Proof.Machine.execMailboxWrite off v s
  | .badCommand op => Sys2Proof.Machine.execBadCommand op s
  | .reset rom => Sys2Proof.Machine.execReset rom s
  | .badOp w => Sys2Proof.Machine.execBadOp w s
  | .peerAccess off load op => Sys2Proof.Machine.execPeerAccess off load op s
  | .yield => Sys2Proof.Machine.execYield s
  | .eret => Sys2Proof.Machine.execEret s
  | .wfi => Sys2Proof.Machine.execWfi s
  | .tokenArrival => Sys2Proof.Machine.execTokenArrival s
  | .poolOp => Sys2Proof.Machine.execPoolOp s
  | .grantArrival => Sys2Proof.Machine.execGrantArrival s
  | .replay => Sys2Proof.Machine.execReplay s
  | .converterPairing => Sys2Proof.Machine.execConverterPairing s
  | .agnAssign => Sys2Proof.Machine.execAgnAssign s
  | .streamComplete => Sys2Proof.Machine.execStreamComplete s
  | .triggerToken => Sys2Proof.Machine.execTriggerToken s
  | .transformReturn => Sys2Proof.Machine.execTransformReturn s
  | .arrayCommandStart => Sys2Proof.Machine.execArrayCommandStart s
  | .mmacRowStart => Sys2Proof.Machine.execMmacRowStart s
  | .arrayCommandComplete => Sys2Proof.Machine.execArrayCommandComplete s
  | .registrarServe => Sys2Proof.Machine.execRegistrarServe s
  | .auctionRound => Sys2Proof.Machine.execAuctionRound s
  | .gateToken => Sys2Proof.Machine.execGateToken s
  | .walkStart => Sys2Proof.Machine.execWalkStart s
  | .walkStep => Sys2Proof.Machine.execWalkStep s
  | .memoryResponse => Sys2Proof.Machine.execMemoryResponse s
  | .contextReclaim => Sys2Proof.Machine.execContextReclaim s
  | .deanSelect => Sys2Proof.Machine.execDeanSelect s
  | .loaderReport => Sys2Proof.Machine.execLoaderReport s
  | .bankAssign => Sys2Proof.Machine.execBankAssign s
  | .drain => Sys2Proof.Machine.execDrain s
  | .imageUnload => Sys2Proof.Machine.execImageUnload s
  | .timetableSample => Sys2Proof.Machine.execTimetableSample s
  | .powerEstimate => Sys2Proof.Machine.execPowerEstimate s
  | .thermalTrip => Sys2Proof.Machine.execThermalTrip s
  | .thermalRecovery => Sys2Proof.Machine.execThermalRecovery s
  | .proctorExpiry => Sys2Proof.Machine.execProctorExpiry s
  | .tileSave => Sys2Proof.Machine.execTileSave s
  | .bellStuck => Sys2Proof.Machine.execBellStuck s
  | .eraserDone => Sys2Proof.Machine.execEraserDone s
  | .bucketRequest => Sys2Proof.Machine.execBucketRequest s
  | .bucketCompletion => Sys2Proof.Machine.execBucketCompletion s
  | .hostMessage => Sys2Proof.Machine.execHostMessage s
  | .childLaunch => Sys2Proof.Machine.execChildLaunch s
  | .deanChannelReserved => Sys2Proof.Machine.execDeanChannelReserved s
  | .vcDelivery => Sys2Proof.Machine.execVcDelivery s
  | .quantumExpiry => Sys2Proof.Machine.execQuantumExpiry s
  | .sleepExpiry => Sys2Proof.Machine.execSleepExpiry s
  | .fetchBlock => Sys2Proof.Machine.execFetchBlock s
  | .packetHop => Sys2Proof.Machine.execPacketHop s
  | .flitRetry => Sys2Proof.Machine.execFlitRetry s
  | .hostQset => Sys2Proof.Machine.execHostQset s
  | .hostWbind => Sys2Proof.Machine.execHostWbind s
  | .hostPortten => Sys2Proof.Machine.execHostPortten s
  | .hostPowcap => Sys2Proof.Machine.execHostPowcap s
  | .hostMcast => Sys2Proof.Machine.execHostMcast s
  | .hostAsid => Sys2Proof.Machine.execHostAsid s
  | .hostGate => Sys2Proof.Machine.execHostGate s
  | .hostKey => Sys2Proof.Machine.execHostKey s
  | .hostUnload => Sys2Proof.Machine.execHostUnload s
  | .hostAbort => Sys2Proof.Machine.execHostAbort s
  | .hostResume => Sys2Proof.Machine.execHostResume s
  | .hostPreempt => Sys2Proof.Machine.execHostPreempt s
  | .hostRestore => Sys2Proof.Machine.execHostRestore s
  | .hostDiscard => Sys2Proof.Machine.execHostDiscard s
  | .hostMeter => Sys2Proof.Machine.execHostMeter s
  | .hostExport => Sys2Proof.Machine.execHostExport s
  | .hostImport => Sys2Proof.Machine.execHostImport s
  | .hostProctor => Sys2Proof.Machine.execHostProctor s
  | .hostMapget => Sys2Proof.Machine.execHostMapget s
  | .hostBanks => Sys2Proof.Machine.execHostBanks s

end Sys2Proof.Machine
end

