-- ==== Sys2Proof/Machine/Step.lean ====
section
/-! DEFINITION. One step of the machine: the next turn of the agenda runs one firing, one control-core instruction, one
event or one host command; and the placing of an instruction where the next step runs it. -/

namespace Sys2Proof.Machine

/-- One step (log entry 1). A turn whose actor has nothing to do passes time and changes nothing else. Once a boot has
failed only the host's stores, its mailbox and a reset are left (R354). -/
def step (s : State) : Host.Outcome State Fault Refusal :=
  let (turn, s1) := s.nextTurn
  if s.dean.mail.boot = .failed && !afterFailure turn.actor then .fault .bootFailed
  else
    let s2 := s1.passTime turn.delay
    match turn.actor with
    | .fire t =>
      match s2.takeFiring t with
      | none => .next s2.close
      | some (s3, i) => closeOutcome (exec i s3)
    | .core c =>
      match s2.coreTurn c with
      | .idle s3 => .next s3.close
      | .run s3 i => closeOutcome (exec i s3)
    | .event i u k =>
      if isEvent i then closeOutcome (exec i { s2 with focus := .event u k }) else .next s2.close
    | .deanCommand =>
      match s2.nextCommand with
      | none => .next s2.close
      | some (s3, i) => closeOutcome (exec i s3)
    | .hostStore a bs => .next (s2.hostStore a (blocksFor bs.length) bs).close
    | .memoryError b => .next (s2.poisonBlock b).close
    | .bstoreError c b => .next (s2.poisonColumn c b).close

/-- The state with an instruction placed where the next step runs it (log entry 17): a control-core word in the fetch
line of the running task 0 of cluster 0, a slot word in slot 0 of tile 0 with a pairing ready there. -/
def State.withFetchWord (s : State) (nbits w : Nat) : State :=
  if nbits ≤ 32 then
    let t : Task := { s.task 0 0 with st := .running }
    let off := t.pc.toNat % 64
    let line := List.replicate off (0 : Byte) ++ toBytes 4 w ++ List.replicate (64 - off - 4) 0
    let core := { (s.cluster 0).core with running := some 0, retired := t.instret.toNat }
    let s := (s.setCore 0 core).setTask 0 0 { t with line := some (t.pc.toNat / 64, line) }
    { s with agenda := [{ delay := 1, actor := .core 0 }] }
  else
    let x := s.tile 0
    let blk : Block := { (x.block.getD {}) with slots := [BitVec.ofNat 64 w], consts := List.replicate 16 0 }
    let tok : Token := { len := 1, mask := 1, data := [0] }
    let p : Pairing := { l := .run tok, r := .run tok, born := s.cycle }
    let s := s.setTile 0 { x with status := .resident, block := some blk, pairings := [p] }
    let s := s.updCtx 0 fun c => { c with st := .live }
    { s with agenda := [{ delay := 1, actor := .fire 0 }] }

end Sys2Proof.Machine
end

