-- ==== Sys2Proof/Laws/State.lean ====
section
/-! SUPPORT. What each update of the state leaves alone, field by field, and what it gives back. -/

namespace Sys2Proof.Machine

@[simp] theorem State.setTile_agenda (s : State) (t : Nat) (x : Tile) : (s.setTile t x).agenda = s.agenda := rfl
@[simp] theorem State.setTile_tick (s : State) (t : Nat) (x : Tile) : (s.setTile t x).tick = s.tick := rfl
@[simp] theorem State.setTile_focus (s : State) (t : Nat) (x : Tile) : (s.setTile t x).focus = s.focus := rfl
@[simp] theorem State.setTile_cycle (s : State) (t : Nat) (x : Tile) : (s.setTile t x).cycle = s.cycle := rfl
@[simp] theorem State.setTile_mem (s : State) (t : Nat) (x : Tile) : (s.setTile t x).mem = s.mem := rfl
@[simp] theorem State.setTile_blocks (s : State) (t : Nat) (x : Tile) : (s.setTile t x).blocks = s.blocks := rfl
@[simp] theorem State.setTile_waits (s : State) (t : Nat) (x : Tile) : (s.setTile t x).waits = s.waits := rfl
@[simp] theorem State.setTile_misses (s : State) (t : Nat) (x : Tile) : (s.setTile t x).misses = s.misses := rfl
@[simp] theorem State.setTile_walks (s : State) (t : Nat) (x : Tile) : (s.setTile t x).walks = s.walks := rfl
@[simp] theorem State.setTile_net (s : State) (t : Nat) (x : Tile) : (s.setTile t x).net = s.net := rfl
@[simp] theorem State.setTile_outputs (s : State) (t : Nat) (x : Tile) : (s.setTile t x).outputs = s.outputs := rfl
@[simp] theorem State.setTile_clusters (s : State) (t : Nat) (x : Tile) : (s.setTile t x).clusters = s.clusters := rfl
@[simp] theorem State.setTile_domains (s : State) (t : Nat) (x : Tile) : (s.setTile t x).domains = s.domains := rfl
@[simp] theorem State.setTile_dean (s : State) (t : Nat) (x : Tile) : (s.setTile t x).dean = s.dean := rfl
@[simp] theorem State.setTile_egress (s : State) (t : Nat) (x : Tile) : (s.setTile t x).egress = s.egress := rfl
@[simp] theorem State.setTile_intr (s : State) (t : Nat) (x : Tile) : (s.setTile t x).intr = s.intr := rfl
@[simp] theorem State.setTile_hostRead (s : State) (t : Nat) (x : Tile) : (s.setTile t x).hostRead = s.hostRead := rfl

@[simp] theorem State.setCluster_agenda (s : State) (c : Nat) (x : Cluster) : (s.setCluster c x).agenda = s.agenda := rfl
@[simp] theorem State.setCluster_tick (s : State) (c : Nat) (x : Cluster) : (s.setCluster c x).tick = s.tick := rfl
@[simp] theorem State.setCluster_focus (s : State) (c : Nat) (x : Cluster) : (s.setCluster c x).focus = s.focus := rfl
@[simp] theorem State.setCluster_cycle (s : State) (c : Nat) (x : Cluster) : (s.setCluster c x).cycle = s.cycle := rfl
@[simp] theorem State.setCluster_mem (s : State) (c : Nat) (x : Cluster) : (s.setCluster c x).mem = s.mem := rfl
@[simp] theorem State.setCluster_blocks (s : State) (c : Nat) (x : Cluster) : (s.setCluster c x).blocks = s.blocks := rfl
@[simp] theorem State.setCluster_waits (s : State) (c : Nat) (x : Cluster) : (s.setCluster c x).waits = s.waits := rfl
@[simp] theorem State.setCluster_misses (s : State) (c : Nat) (x : Cluster) : (s.setCluster c x).misses = s.misses := rfl
@[simp] theorem State.setCluster_walks (s : State) (c : Nat) (x : Cluster) : (s.setCluster c x).walks = s.walks := rfl
@[simp] theorem State.setCluster_net (s : State) (c : Nat) (x : Cluster) : (s.setCluster c x).net = s.net := rfl
@[simp] theorem State.setCluster_outputs (s : State) (c : Nat) (x : Cluster) : (s.setCluster c x).outputs = s.outputs := rfl
@[simp] theorem State.setCluster_tiles (s : State) (c : Nat) (x : Cluster) : (s.setCluster c x).tiles = s.tiles := rfl
@[simp] theorem State.setCluster_domains (s : State) (c : Nat) (x : Cluster) : (s.setCluster c x).domains = s.domains := rfl
@[simp] theorem State.setCluster_dean (s : State) (c : Nat) (x : Cluster) : (s.setCluster c x).dean = s.dean := rfl
@[simp] theorem State.setCluster_egress (s : State) (c : Nat) (x : Cluster) : (s.setCluster c x).egress = s.egress := rfl
@[simp] theorem State.setCluster_intr (s : State) (c : Nat) (x : Cluster) : (s.setCluster c x).intr = s.intr := rfl
@[simp] theorem State.setCluster_hostRead (s : State) (c : Nat) (x : Cluster) : (s.setCluster c x).hostRead = s.hostRead := rfl

@[simp] theorem State.setDomain_agenda (s : State) (d : Nat) (x : Domain) : (s.setDomain d x).agenda = s.agenda := rfl
@[simp] theorem State.setDomain_tick (s : State) (d : Nat) (x : Domain) : (s.setDomain d x).tick = s.tick := rfl
@[simp] theorem State.setDomain_focus (s : State) (d : Nat) (x : Domain) : (s.setDomain d x).focus = s.focus := rfl
@[simp] theorem State.setDomain_cycle (s : State) (d : Nat) (x : Domain) : (s.setDomain d x).cycle = s.cycle := rfl
@[simp] theorem State.setDomain_mem (s : State) (d : Nat) (x : Domain) : (s.setDomain d x).mem = s.mem := rfl
@[simp] theorem State.setDomain_blocks (s : State) (d : Nat) (x : Domain) : (s.setDomain d x).blocks = s.blocks := rfl
@[simp] theorem State.setDomain_waits (s : State) (d : Nat) (x : Domain) : (s.setDomain d x).waits = s.waits := rfl
@[simp] theorem State.setDomain_misses (s : State) (d : Nat) (x : Domain) : (s.setDomain d x).misses = s.misses := rfl
@[simp] theorem State.setDomain_walks (s : State) (d : Nat) (x : Domain) : (s.setDomain d x).walks = s.walks := rfl
@[simp] theorem State.setDomain_net (s : State) (d : Nat) (x : Domain) : (s.setDomain d x).net = s.net := rfl
@[simp] theorem State.setDomain_outputs (s : State) (d : Nat) (x : Domain) : (s.setDomain d x).outputs = s.outputs := rfl
@[simp] theorem State.setDomain_tiles (s : State) (d : Nat) (x : Domain) : (s.setDomain d x).tiles = s.tiles := rfl
@[simp] theorem State.setDomain_clusters (s : State) (d : Nat) (x : Domain) : (s.setDomain d x).clusters = s.clusters := rfl
@[simp] theorem State.setDomain_dean (s : State) (d : Nat) (x : Domain) : (s.setDomain d x).dean = s.dean := rfl
@[simp] theorem State.setDomain_egress (s : State) (d : Nat) (x : Domain) : (s.setDomain d x).egress = s.egress := rfl
@[simp] theorem State.setDomain_intr (s : State) (d : Nat) (x : Domain) : (s.setDomain d x).intr = s.intr := rfl
@[simp] theorem State.setDomain_hostRead (s : State) (d : Nat) (x : Domain) : (s.setDomain d x).hostRead = s.hostRead := rfl

@[simp] theorem State.setDean_agenda (s : State) (d : Dean) : (s.setDean d).agenda = s.agenda := rfl
@[simp] theorem State.setDean_tick (s : State) (d : Dean) : (s.setDean d).tick = s.tick := rfl
@[simp] theorem State.setDean_focus (s : State) (d : Dean) : (s.setDean d).focus = s.focus := rfl
@[simp] theorem State.setDean_cycle (s : State) (d : Dean) : (s.setDean d).cycle = s.cycle := rfl
@[simp] theorem State.setDean_mem (s : State) (d : Dean) : (s.setDean d).mem = s.mem := rfl
@[simp] theorem State.setDean_blocks (s : State) (d : Dean) : (s.setDean d).blocks = s.blocks := rfl
@[simp] theorem State.setDean_waits (s : State) (d : Dean) : (s.setDean d).waits = s.waits := rfl
@[simp] theorem State.setDean_misses (s : State) (d : Dean) : (s.setDean d).misses = s.misses := rfl
@[simp] theorem State.setDean_walks (s : State) (d : Dean) : (s.setDean d).walks = s.walks := rfl
@[simp] theorem State.setDean_net (s : State) (d : Dean) : (s.setDean d).net = s.net := rfl
@[simp] theorem State.setDean_outputs (s : State) (d : Dean) : (s.setDean d).outputs = s.outputs := rfl
@[simp] theorem State.setDean_tiles (s : State) (d : Dean) : (s.setDean d).tiles = s.tiles := rfl
@[simp] theorem State.setDean_clusters (s : State) (d : Dean) : (s.setDean d).clusters = s.clusters := rfl
@[simp] theorem State.setDean_domains (s : State) (d : Dean) : (s.setDean d).domains = s.domains := rfl
@[simp] theorem State.setDean_egress (s : State) (d : Dean) : (s.setDean d).egress = s.egress := rfl
@[simp] theorem State.setDean_intr (s : State) (d : Dean) : (s.setDean d).intr = s.intr := rfl
@[simp] theorem State.setDean_hostRead (s : State) (d : Dean) : (s.setDean d).hostRead = s.hostRead := rfl

@[simp] theorem State.setCtx_agenda (s : State) (c : Nat) (x : Ctx) : (s.setCtx c x).agenda = s.agenda := rfl
@[simp] theorem State.setCtx_tick (s : State) (c : Nat) (x : Ctx) : (s.setCtx c x).tick = s.tick := rfl
@[simp] theorem State.setCtx_focus (s : State) (c : Nat) (x : Ctx) : (s.setCtx c x).focus = s.focus := rfl
@[simp] theorem State.setCtx_cycle (s : State) (c : Nat) (x : Ctx) : (s.setCtx c x).cycle = s.cycle := rfl
@[simp] theorem State.setCtx_mem (s : State) (c : Nat) (x : Ctx) : (s.setCtx c x).mem = s.mem := rfl
@[simp] theorem State.setCtx_blocks (s : State) (c : Nat) (x : Ctx) : (s.setCtx c x).blocks = s.blocks := rfl
@[simp] theorem State.setCtx_waits (s : State) (c : Nat) (x : Ctx) : (s.setCtx c x).waits = s.waits := rfl
@[simp] theorem State.setCtx_misses (s : State) (c : Nat) (x : Ctx) : (s.setCtx c x).misses = s.misses := rfl
@[simp] theorem State.setCtx_walks (s : State) (c : Nat) (x : Ctx) : (s.setCtx c x).walks = s.walks := rfl
@[simp] theorem State.setCtx_net (s : State) (c : Nat) (x : Ctx) : (s.setCtx c x).net = s.net := rfl
@[simp] theorem State.setCtx_outputs (s : State) (c : Nat) (x : Ctx) : (s.setCtx c x).outputs = s.outputs := rfl
@[simp] theorem State.setCtx_tiles (s : State) (c : Nat) (x : Ctx) : (s.setCtx c x).tiles = s.tiles := rfl
@[simp] theorem State.setCtx_clusters (s : State) (c : Nat) (x : Ctx) : (s.setCtx c x).clusters = s.clusters := rfl
@[simp] theorem State.setCtx_domains (s : State) (c : Nat) (x : Ctx) : (s.setCtx c x).domains = s.domains := rfl
@[simp] theorem State.setCtx_egress (s : State) (c : Nat) (x : Ctx) : (s.setCtx c x).egress = s.egress := rfl
@[simp] theorem State.setCtx_intr (s : State) (c : Nat) (x : Ctx) : (s.setCtx c x).intr = s.intr := rfl
@[simp] theorem State.setCtx_hostRead (s : State) (c : Nat) (x : Ctx) : (s.setCtx c x).hostRead = s.hostRead := rfl

@[simp] theorem State.setQueue_agenda (s : State) (q : Nat) (x : Queue) : (s.setQueue q x).agenda = s.agenda := rfl
@[simp] theorem State.setQueue_tick (s : State) (q : Nat) (x : Queue) : (s.setQueue q x).tick = s.tick := rfl
@[simp] theorem State.setQueue_focus (s : State) (q : Nat) (x : Queue) : (s.setQueue q x).focus = s.focus := rfl
@[simp] theorem State.setQueue_cycle (s : State) (q : Nat) (x : Queue) : (s.setQueue q x).cycle = s.cycle := rfl
@[simp] theorem State.setQueue_mem (s : State) (q : Nat) (x : Queue) : (s.setQueue q x).mem = s.mem := rfl
@[simp] theorem State.setQueue_blocks (s : State) (q : Nat) (x : Queue) : (s.setQueue q x).blocks = s.blocks := rfl
@[simp] theorem State.setQueue_waits (s : State) (q : Nat) (x : Queue) : (s.setQueue q x).waits = s.waits := rfl
@[simp] theorem State.setQueue_misses (s : State) (q : Nat) (x : Queue) : (s.setQueue q x).misses = s.misses := rfl
@[simp] theorem State.setQueue_walks (s : State) (q : Nat) (x : Queue) : (s.setQueue q x).walks = s.walks := rfl
@[simp] theorem State.setQueue_net (s : State) (q : Nat) (x : Queue) : (s.setQueue q x).net = s.net := rfl
@[simp] theorem State.setQueue_outputs (s : State) (q : Nat) (x : Queue) : (s.setQueue q x).outputs = s.outputs := rfl
@[simp] theorem State.setQueue_tiles (s : State) (q : Nat) (x : Queue) : (s.setQueue q x).tiles = s.tiles := rfl
@[simp] theorem State.setQueue_clusters (s : State) (q : Nat) (x : Queue) : (s.setQueue q x).clusters = s.clusters := rfl
@[simp] theorem State.setQueue_domains (s : State) (q : Nat) (x : Queue) : (s.setQueue q x).domains = s.domains := rfl
@[simp] theorem State.setQueue_egress (s : State) (q : Nat) (x : Queue) : (s.setQueue q x).egress = s.egress := rfl
@[simp] theorem State.setQueue_intr (s : State) (q : Nat) (x : Queue) : (s.setQueue q x).intr = s.intr := rfl
@[simp] theorem State.setQueue_hostRead (s : State) (q : Nat) (x : Queue) : (s.setQueue q x).hostRead = s.hostRead := rfl

@[simp] theorem State.setCore_agenda (s : State) (c : Nat) (x : Core) : (s.setCore c x).agenda = s.agenda := rfl
@[simp] theorem State.setCore_tick (s : State) (c : Nat) (x : Core) : (s.setCore c x).tick = s.tick := rfl
@[simp] theorem State.setCore_focus (s : State) (c : Nat) (x : Core) : (s.setCore c x).focus = s.focus := rfl
@[simp] theorem State.setCore_cycle (s : State) (c : Nat) (x : Core) : (s.setCore c x).cycle = s.cycle := rfl
@[simp] theorem State.setCore_mem (s : State) (c : Nat) (x : Core) : (s.setCore c x).mem = s.mem := rfl
@[simp] theorem State.setCore_blocks (s : State) (c : Nat) (x : Core) : (s.setCore c x).blocks = s.blocks := rfl
@[simp] theorem State.setCore_waits (s : State) (c : Nat) (x : Core) : (s.setCore c x).waits = s.waits := rfl
@[simp] theorem State.setCore_misses (s : State) (c : Nat) (x : Core) : (s.setCore c x).misses = s.misses := rfl
@[simp] theorem State.setCore_walks (s : State) (c : Nat) (x : Core) : (s.setCore c x).walks = s.walks := rfl
@[simp] theorem State.setCore_net (s : State) (c : Nat) (x : Core) : (s.setCore c x).net = s.net := rfl
@[simp] theorem State.setCore_outputs (s : State) (c : Nat) (x : Core) : (s.setCore c x).outputs = s.outputs := rfl
@[simp] theorem State.setCore_tiles (s : State) (c : Nat) (x : Core) : (s.setCore c x).tiles = s.tiles := rfl
@[simp] theorem State.setCore_domains (s : State) (c : Nat) (x : Core) : (s.setCore c x).domains = s.domains := rfl
@[simp] theorem State.setCore_dean (s : State) (c : Nat) (x : Core) : (s.setCore c x).dean = s.dean := rfl
@[simp] theorem State.setCore_egress (s : State) (c : Nat) (x : Core) : (s.setCore c x).egress = s.egress := rfl
@[simp] theorem State.setCore_intr (s : State) (c : Nat) (x : Core) : (s.setCore c x).intr = s.intr := rfl
@[simp] theorem State.setCore_hostRead (s : State) (c : Nat) (x : Core) : (s.setCore c x).hostRead = s.hostRead := rfl

@[simp] theorem State.setTask_agenda (s : State) (c k : Nat) (x : Task) : (s.setTask c k x).agenda = s.agenda := rfl
@[simp] theorem State.setTask_tick (s : State) (c k : Nat) (x : Task) : (s.setTask c k x).tick = s.tick := rfl
@[simp] theorem State.setTask_focus (s : State) (c k : Nat) (x : Task) : (s.setTask c k x).focus = s.focus := rfl
@[simp] theorem State.setTask_cycle (s : State) (c k : Nat) (x : Task) : (s.setTask c k x).cycle = s.cycle := rfl
@[simp] theorem State.setTask_mem (s : State) (c k : Nat) (x : Task) : (s.setTask c k x).mem = s.mem := rfl
@[simp] theorem State.setTask_blocks (s : State) (c k : Nat) (x : Task) : (s.setTask c k x).blocks = s.blocks := rfl
@[simp] theorem State.setTask_waits (s : State) (c k : Nat) (x : Task) : (s.setTask c k x).waits = s.waits := rfl
@[simp] theorem State.setTask_misses (s : State) (c k : Nat) (x : Task) : (s.setTask c k x).misses = s.misses := rfl
@[simp] theorem State.setTask_walks (s : State) (c k : Nat) (x : Task) : (s.setTask c k x).walks = s.walks := rfl
@[simp] theorem State.setTask_net (s : State) (c k : Nat) (x : Task) : (s.setTask c k x).net = s.net := rfl
@[simp] theorem State.setTask_outputs (s : State) (c k : Nat) (x : Task) : (s.setTask c k x).outputs = s.outputs := rfl
@[simp] theorem State.setTask_tiles (s : State) (c k : Nat) (x : Task) : (s.setTask c k x).tiles = s.tiles := rfl
@[simp] theorem State.setTask_domains (s : State) (c k : Nat) (x : Task) : (s.setTask c k x).domains = s.domains := rfl
@[simp] theorem State.setTask_dean (s : State) (c k : Nat) (x : Task) : (s.setTask c k x).dean = s.dean := rfl
@[simp] theorem State.setTask_egress (s : State) (c k : Nat) (x : Task) : (s.setTask c k x).egress = s.egress := rfl
@[simp] theorem State.setTask_intr (s : State) (c k : Nat) (x : Task) : (s.setTask c k x).intr = s.intr := rfl
@[simp] theorem State.setTask_hostRead (s : State) (c k : Nat) (x : Task) : (s.setTask c k x).hostRead = s.hostRead := rfl

@[simp] theorem State.setStreamer_agenda (s : State) (c : Nat) (x : Streamer) : (s.setStreamer c x).agenda = s.agenda := rfl
@[simp] theorem State.setStreamer_tick (s : State) (c : Nat) (x : Streamer) : (s.setStreamer c x).tick = s.tick := rfl
@[simp] theorem State.setStreamer_focus (s : State) (c : Nat) (x : Streamer) : (s.setStreamer c x).focus = s.focus := rfl
@[simp] theorem State.setStreamer_cycle (s : State) (c : Nat) (x : Streamer) : (s.setStreamer c x).cycle = s.cycle := rfl
@[simp] theorem State.setStreamer_mem (s : State) (c : Nat) (x : Streamer) : (s.setStreamer c x).mem = s.mem := rfl
@[simp] theorem State.setStreamer_blocks (s : State) (c : Nat) (x : Streamer) : (s.setStreamer c x).blocks = s.blocks := rfl
@[simp] theorem State.setStreamer_waits (s : State) (c : Nat) (x : Streamer) : (s.setStreamer c x).waits = s.waits := rfl
@[simp] theorem State.setStreamer_misses (s : State) (c : Nat) (x : Streamer) : (s.setStreamer c x).misses = s.misses := rfl
@[simp] theorem State.setStreamer_walks (s : State) (c : Nat) (x : Streamer) : (s.setStreamer c x).walks = s.walks := rfl
@[simp] theorem State.setStreamer_net (s : State) (c : Nat) (x : Streamer) : (s.setStreamer c x).net = s.net := rfl
@[simp] theorem State.setStreamer_outputs (s : State) (c : Nat) (x : Streamer) : (s.setStreamer c x).outputs = s.outputs := rfl
@[simp] theorem State.setStreamer_tiles (s : State) (c : Nat) (x : Streamer) : (s.setStreamer c x).tiles = s.tiles := rfl
@[simp] theorem State.setStreamer_domains (s : State) (c : Nat) (x : Streamer) : (s.setStreamer c x).domains = s.domains := rfl
@[simp] theorem State.setStreamer_dean (s : State) (c : Nat) (x : Streamer) : (s.setStreamer c x).dean = s.dean := rfl
@[simp] theorem State.setStreamer_egress (s : State) (c : Nat) (x : Streamer) : (s.setStreamer c x).egress = s.egress := rfl
@[simp] theorem State.setStreamer_intr (s : State) (c : Nat) (x : Streamer) : (s.setStreamer c x).intr = s.intr := rfl
@[simp] theorem State.setStreamer_hostRead (s : State) (c : Nat) (x : Streamer) : (s.setStreamer c x).hostRead = s.hostRead := rfl

@[simp] theorem State.setArray_agenda (s : State) (c : Nat) (x : MArray) : (s.setArray c x).agenda = s.agenda := rfl
@[simp] theorem State.setArray_tick (s : State) (c : Nat) (x : MArray) : (s.setArray c x).tick = s.tick := rfl
@[simp] theorem State.setArray_focus (s : State) (c : Nat) (x : MArray) : (s.setArray c x).focus = s.focus := rfl
@[simp] theorem State.setArray_cycle (s : State) (c : Nat) (x : MArray) : (s.setArray c x).cycle = s.cycle := rfl
@[simp] theorem State.setArray_mem (s : State) (c : Nat) (x : MArray) : (s.setArray c x).mem = s.mem := rfl
@[simp] theorem State.setArray_blocks (s : State) (c : Nat) (x : MArray) : (s.setArray c x).blocks = s.blocks := rfl
@[simp] theorem State.setArray_waits (s : State) (c : Nat) (x : MArray) : (s.setArray c x).waits = s.waits := rfl
@[simp] theorem State.setArray_misses (s : State) (c : Nat) (x : MArray) : (s.setArray c x).misses = s.misses := rfl
@[simp] theorem State.setArray_walks (s : State) (c : Nat) (x : MArray) : (s.setArray c x).walks = s.walks := rfl
@[simp] theorem State.setArray_net (s : State) (c : Nat) (x : MArray) : (s.setArray c x).net = s.net := rfl
@[simp] theorem State.setArray_outputs (s : State) (c : Nat) (x : MArray) : (s.setArray c x).outputs = s.outputs := rfl
@[simp] theorem State.setArray_tiles (s : State) (c : Nat) (x : MArray) : (s.setArray c x).tiles = s.tiles := rfl
@[simp] theorem State.setArray_domains (s : State) (c : Nat) (x : MArray) : (s.setArray c x).domains = s.domains := rfl
@[simp] theorem State.setArray_dean (s : State) (c : Nat) (x : MArray) : (s.setArray c x).dean = s.dean := rfl
@[simp] theorem State.setArray_egress (s : State) (c : Nat) (x : MArray) : (s.setArray c x).egress = s.egress := rfl
@[simp] theorem State.setArray_intr (s : State) (c : Nat) (x : MArray) : (s.setArray c x).intr = s.intr := rfl
@[simp] theorem State.setArray_hostRead (s : State) (c : Nat) (x : MArray) : (s.setArray c x).hostRead = s.hostRead := rfl

@[simp] theorem State.setRegistrar_agenda (s : State) (c : Nat) (x : Registrar) : (s.setRegistrar c x).agenda = s.agenda := rfl
@[simp] theorem State.setRegistrar_tick (s : State) (c : Nat) (x : Registrar) : (s.setRegistrar c x).tick = s.tick := rfl
@[simp] theorem State.setRegistrar_focus (s : State) (c : Nat) (x : Registrar) : (s.setRegistrar c x).focus = s.focus := rfl
@[simp] theorem State.setRegistrar_cycle (s : State) (c : Nat) (x : Registrar) : (s.setRegistrar c x).cycle = s.cycle := rfl
@[simp] theorem State.setRegistrar_mem (s : State) (c : Nat) (x : Registrar) : (s.setRegistrar c x).mem = s.mem := rfl
@[simp] theorem State.setRegistrar_blocks (s : State) (c : Nat) (x : Registrar) : (s.setRegistrar c x).blocks = s.blocks := rfl
@[simp] theorem State.setRegistrar_waits (s : State) (c : Nat) (x : Registrar) : (s.setRegistrar c x).waits = s.waits := rfl
@[simp] theorem State.setRegistrar_misses (s : State) (c : Nat) (x : Registrar) : (s.setRegistrar c x).misses = s.misses := rfl
@[simp] theorem State.setRegistrar_walks (s : State) (c : Nat) (x : Registrar) : (s.setRegistrar c x).walks = s.walks := rfl
@[simp] theorem State.setRegistrar_net (s : State) (c : Nat) (x : Registrar) : (s.setRegistrar c x).net = s.net := rfl
@[simp] theorem State.setRegistrar_outputs (s : State) (c : Nat) (x : Registrar) : (s.setRegistrar c x).outputs = s.outputs := rfl
@[simp] theorem State.setRegistrar_tiles (s : State) (c : Nat) (x : Registrar) : (s.setRegistrar c x).tiles = s.tiles := rfl
@[simp] theorem State.setRegistrar_domains (s : State) (c : Nat) (x : Registrar) : (s.setRegistrar c x).domains = s.domains := rfl
@[simp] theorem State.setRegistrar_dean (s : State) (c : Nat) (x : Registrar) : (s.setRegistrar c x).dean = s.dean := rfl
@[simp] theorem State.setRegistrar_egress (s : State) (c : Nat) (x : Registrar) : (s.setRegistrar c x).egress = s.egress := rfl
@[simp] theorem State.setRegistrar_intr (s : State) (c : Nat) (x : Registrar) : (s.setRegistrar c x).intr = s.intr := rfl
@[simp] theorem State.setRegistrar_hostRead (s : State) (c : Nat) (x : Registrar) : (s.setRegistrar c x).hostRead = s.hostRead := rfl

@[simp] theorem State.setBlockMeta_agenda (s : State) (b : Nat) (m : BlockMeta) : (s.setBlockMeta b m).agenda = s.agenda := rfl
@[simp] theorem State.setBlockMeta_tick (s : State) (b : Nat) (m : BlockMeta) : (s.setBlockMeta b m).tick = s.tick := rfl
@[simp] theorem State.setBlockMeta_focus (s : State) (b : Nat) (m : BlockMeta) : (s.setBlockMeta b m).focus = s.focus := rfl
@[simp] theorem State.setBlockMeta_cycle (s : State) (b : Nat) (m : BlockMeta) : (s.setBlockMeta b m).cycle = s.cycle := rfl
@[simp] theorem State.setBlockMeta_mem (s : State) (b : Nat) (m : BlockMeta) : (s.setBlockMeta b m).mem = s.mem := rfl
@[simp] theorem State.setBlockMeta_waits (s : State) (b : Nat) (m : BlockMeta) : (s.setBlockMeta b m).waits = s.waits := rfl
@[simp] theorem State.setBlockMeta_misses (s : State) (b : Nat) (m : BlockMeta) : (s.setBlockMeta b m).misses = s.misses := rfl
@[simp] theorem State.setBlockMeta_walks (s : State) (b : Nat) (m : BlockMeta) : (s.setBlockMeta b m).walks = s.walks := rfl
@[simp] theorem State.setBlockMeta_net (s : State) (b : Nat) (m : BlockMeta) : (s.setBlockMeta b m).net = s.net := rfl
@[simp] theorem State.setBlockMeta_outputs (s : State) (b : Nat) (m : BlockMeta) : (s.setBlockMeta b m).outputs = s.outputs := rfl
@[simp] theorem State.setBlockMeta_tiles (s : State) (b : Nat) (m : BlockMeta) : (s.setBlockMeta b m).tiles = s.tiles := rfl
@[simp] theorem State.setBlockMeta_clusters (s : State) (b : Nat) (m : BlockMeta) : (s.setBlockMeta b m).clusters = s.clusters := rfl
@[simp] theorem State.setBlockMeta_domains (s : State) (b : Nat) (m : BlockMeta) : (s.setBlockMeta b m).domains = s.domains := rfl
@[simp] theorem State.setBlockMeta_dean (s : State) (b : Nat) (m : BlockMeta) : (s.setBlockMeta b m).dean = s.dean := rfl
@[simp] theorem State.setBlockMeta_egress (s : State) (b : Nat) (m : BlockMeta) : (s.setBlockMeta b m).egress = s.egress := rfl
@[simp] theorem State.setBlockMeta_intr (s : State) (b : Nat) (m : BlockMeta) : (s.setBlockMeta b m).intr = s.intr := rfl
@[simp] theorem State.setBlockMeta_hostRead (s : State) (b : Nat) (m : BlockMeta) : (s.setBlockMeta b m).hostRead = s.hostRead := rfl

@[simp] theorem State.setTile_tiles (s : State) (t : Nat) (x : Tile) : (s.setTile t x).tiles = assocSet s.tiles t x := rfl
@[simp] theorem State.setCluster_clusters (s : State) (c : Nat) (x : Cluster) : (s.setCluster c x).clusters = assocSet s.clusters c x := rfl
@[simp] theorem State.setDomain_domains (s : State) (d : Nat) (x : Domain) : (s.setDomain d x).domains = assocSet s.domains d x := rfl
@[simp] theorem State.setDean_dean (s : State) (d : Dean) : (s.setDean d).dean = d := rfl
@[simp] theorem State.setBlockMeta_blocks (s : State) (b : Nat) (m : BlockMeta) : (s.setBlockMeta b m).blocks = assocSet s.blocks b m := rfl

@[simp] theorem State.setCtx_dean_fused (s : State) (c : Nat) (x : Ctx) : (s.setCtx c x).dean.fused = s.dean.fused := rfl
@[simp] theorem State.setCtx_dean_queues (s : State) (c : Nat) (x : Ctx) : (s.setCtx c x).dean.queues = s.dean.queues := rfl
@[simp] theorem State.setCtx_dean_vtime (s : State) (c : Nat) (x : Ctx) : (s.setCtx c x).dean.vtime = s.dean.vtime := rfl
@[simp] theorem State.setCtx_dean_reserve (s : State) (c : Nat) (x : Ctx) : (s.setCtx c x).dean.reserve = s.dean.reserve := rfl
@[simp] theorem State.setCtx_dean_newWaits (s : State) (c : Nat) (x : Ctx) : (s.setCtx c x).dean.newWaits = s.dean.newWaits := rfl
@[simp] theorem State.setCtx_dean_afters (s : State) (c : Nat) (x : Ctx) : (s.setCtx c x).dean.afters = s.dean.afters := rfl
@[simp] theorem State.setCtx_dean_windows (s : State) (c : Nat) (x : Ctx) : (s.setCtx c x).dean.windows = s.dean.windows := rfl
@[simp] theorem State.setCtx_dean_regions (s : State) (c : Nat) (x : Ctx) : (s.setCtx c x).dean.regions = s.dean.regions := rfl
@[simp] theorem State.setCtx_dean_sessions (s : State) (c : Nat) (x : Ctx) : (s.setCtx c x).dean.sessions = s.dean.sessions := rfl
@[simp] theorem State.setCtx_dean_loading (s : State) (c : Nat) (x : Ctx) : (s.setCtx c x).dean.loading = s.dean.loading := rfl
@[simp] theorem State.setCtx_dean_buckets (s : State) (c : Nat) (x : Ctx) : (s.setCtx c x).dean.buckets = s.dean.buckets := rfl
@[simp] theorem State.setCtx_dean_nextBucket (s : State) (c : Nat) (x : Ctx) : (s.setCtx c x).dean.nextBucket = s.dean.nextBucket := rfl
@[simp] theorem State.setCtx_dean_asids (s : State) (c : Nat) (x : Ctx) : (s.setCtx c x).dean.asids = s.dean.asids := rfl
@[simp] theorem State.setCtx_dean_keys (s : State) (c : Nat) (x : Ctx) : (s.setCtx c x).dean.keys = s.dean.keys := rfl
@[simp] theorem State.setCtx_dean_vkeys (s : State) (c : Nat) (x : Ctx) : (s.setCtx c x).dean.vkeys = s.dean.vkeys := rfl
@[simp] theorem State.setCtx_dean_devKey (s : State) (c : Nat) (x : Ctx) : (s.setCtx c x).dean.devKey = s.dean.devKey := rfl
@[simp] theorem State.setCtx_dean_meters (s : State) (c : Nat) (x : Ctx) : (s.setCtx c x).dean.meters = s.dean.meters := rfl
@[simp] theorem State.setCtx_dean_lastPower (s : State) (c : Nat) (x : Ctx) : (s.setCtx c x).dean.lastPower = s.dean.lastPower := rfl
@[simp] theorem State.setCtx_dean_cap (s : State) (c : Nat) (x : Ctx) : (s.setCtx c x).dean.cap = s.dean.cap := rfl
@[simp] theorem State.setCtx_dean_hot (s : State) (c : Nat) (x : Ctx) : (s.setCtx c x).dean.hot = s.dean.hot := rfl
@[simp] theorem State.setCtx_dean_portTen (s : State) (c : Nat) (x : Ctx) : (s.setCtx c x).dean.portTen = s.dean.portTen := rfl
@[simp] theorem State.setCtx_dean_mcast (s : State) (c : Nat) (x : Ctx) : (s.setCtx c x).dean.mcast = s.dean.mcast := rfl
@[simp] theorem State.setCtx_dean_mail (s : State) (c : Nat) (x : Ctx) : (s.setCtx c x).dean.mail = s.dean.mail := rfl
@[simp] theorem State.setCtx_dean_saves (s : State) (c : Nat) (x : Ctx) : (s.setCtx c x).dean.saves = s.dean.saves := rfl
@[simp] theorem State.setCtx_dean_maps (s : State) (c : Nat) (x : Ctx) : (s.setCtx c x).dean.maps = s.dean.maps := rfl
@[simp] theorem State.setCtx_dean_nextMap (s : State) (c : Nat) (x : Ctx) : (s.setCtx c x).dean.nextMap = s.dean.nextMap := rfl
@[simp] theorem State.setCtx_dean_faults (s : State) (c : Nat) (x : Ctx) : (s.setCtx c x).dean.faults = s.dean.faults := rfl
@[simp] theorem State.setCtx_dean_faultN (s : State) (c : Nat) (x : Ctx) : (s.setCtx c x).dean.faultN = s.dean.faultN := rfl
@[simp] theorem State.setCtx_dean_scrubs (s : State) (c : Nat) (x : Ctx) : (s.setCtx c x).dean.scrubs = s.dean.scrubs := rfl
@[simp] theorem State.setCtx_dean_bellWaits (s : State) (c : Nat) (x : Ctx) : (s.setCtx c x).dean.bellWaits = s.dean.bellWaits := rfl
@[simp] theorem State.setCtx_dean_doing (s : State) (c : Nat) (x : Ctx) : (s.setCtx c x).dean.doing = s.dean.doing := rfl
@[simp] theorem State.setCtx_dean_fwDigest (s : State) (c : Nat) (x : Ctx) : (s.setCtx c x).dean.fwDigest = s.dean.fwDigest := rfl
@[simp] theorem State.setCtx_dean_offDomains (s : State) (c : Nat) (x : Ctx) : (s.setCtx c x).dean.offDomains = s.dean.offDomains := rfl
@[simp] theorem State.setCtx_dean_tier2 (s : State) (c : Nat) (x : Ctx) : (s.setCtx c x).dean.tier2 = s.dean.tier2 := rfl
@[simp] theorem State.setCtx_dean_lastSample (s : State) (c : Nat) (x : Ctx) : (s.setCtx c x).dean.lastSample = s.dean.lastSample := rfl
@[simp] theorem State.setCtx_dean_estimate (s : State) (c : Nat) (x : Ctx) : (s.setCtx c x).dean.estimate = s.dean.estimate := rfl
@[simp] theorem State.setCtx_dean_idlePass (s : State) (c : Nat) (x : Ctx) : (s.setCtx c x).dean.idlePass = s.dean.idlePass := rfl
@[simp] theorem State.setCtx_dean_tier2Ports (s : State) (c : Nat) (x : Ctx) : (s.setCtx c x).dean.tier2Ports = s.dean.tier2Ports := rfl
@[simp] theorem State.setCtx_dean_switchPorts (s : State) (c : Nat) (x : Ctx) : (s.setCtx c x).dean.switchPorts = s.dean.switchPorts := rfl
@[simp] theorem State.setCtx_dean_placedAt (s : State) (c : Nat) (x : Ctx) : (s.setCtx c x).dean.placedAt = s.dean.placedAt := rfl
@[simp] theorem State.setCtx_dean_placedBy (s : State) (c : Nat) (x : Ctx) : (s.setCtx c x).dean.placedBy = s.dean.placedBy := rfl
@[simp] theorem State.setCtx_dean_ctxs (s : State) (c : Nat) (x : Ctx) : (s.setCtx c x).dean.ctxs = assocSet s.dean.ctxs c x := rfl

@[simp] theorem State.setQueue_dean_fused (s : State) (q : Nat) (x : Queue) : (s.setQueue q x).dean.fused = s.dean.fused := rfl
@[simp] theorem State.setQueue_dean_ctxs (s : State) (q : Nat) (x : Queue) : (s.setQueue q x).dean.ctxs = s.dean.ctxs := rfl
@[simp] theorem State.setQueue_dean_vtime (s : State) (q : Nat) (x : Queue) : (s.setQueue q x).dean.vtime = s.dean.vtime := rfl
@[simp] theorem State.setQueue_dean_reserve (s : State) (q : Nat) (x : Queue) : (s.setQueue q x).dean.reserve = s.dean.reserve := rfl
@[simp] theorem State.setQueue_dean_newWaits (s : State) (q : Nat) (x : Queue) : (s.setQueue q x).dean.newWaits = s.dean.newWaits := rfl
@[simp] theorem State.setQueue_dean_afters (s : State) (q : Nat) (x : Queue) : (s.setQueue q x).dean.afters = s.dean.afters := rfl
@[simp] theorem State.setQueue_dean_windows (s : State) (q : Nat) (x : Queue) : (s.setQueue q x).dean.windows = s.dean.windows := rfl
@[simp] theorem State.setQueue_dean_regions (s : State) (q : Nat) (x : Queue) : (s.setQueue q x).dean.regions = s.dean.regions := rfl
@[simp] theorem State.setQueue_dean_sessions (s : State) (q : Nat) (x : Queue) : (s.setQueue q x).dean.sessions = s.dean.sessions := rfl
@[simp] theorem State.setQueue_dean_loading (s : State) (q : Nat) (x : Queue) : (s.setQueue q x).dean.loading = s.dean.loading := rfl
@[simp] theorem State.setQueue_dean_buckets (s : State) (q : Nat) (x : Queue) : (s.setQueue q x).dean.buckets = s.dean.buckets := rfl
@[simp] theorem State.setQueue_dean_nextBucket (s : State) (q : Nat) (x : Queue) : (s.setQueue q x).dean.nextBucket = s.dean.nextBucket := rfl
@[simp] theorem State.setQueue_dean_asids (s : State) (q : Nat) (x : Queue) : (s.setQueue q x).dean.asids = s.dean.asids := rfl
@[simp] theorem State.setQueue_dean_keys (s : State) (q : Nat) (x : Queue) : (s.setQueue q x).dean.keys = s.dean.keys := rfl
@[simp] theorem State.setQueue_dean_vkeys (s : State) (q : Nat) (x : Queue) : (s.setQueue q x).dean.vkeys = s.dean.vkeys := rfl
@[simp] theorem State.setQueue_dean_devKey (s : State) (q : Nat) (x : Queue) : (s.setQueue q x).dean.devKey = s.dean.devKey := rfl
@[simp] theorem State.setQueue_dean_meters (s : State) (q : Nat) (x : Queue) : (s.setQueue q x).dean.meters = s.dean.meters := rfl
@[simp] theorem State.setQueue_dean_lastPower (s : State) (q : Nat) (x : Queue) : (s.setQueue q x).dean.lastPower = s.dean.lastPower := rfl
@[simp] theorem State.setQueue_dean_cap (s : State) (q : Nat) (x : Queue) : (s.setQueue q x).dean.cap = s.dean.cap := rfl
@[simp] theorem State.setQueue_dean_hot (s : State) (q : Nat) (x : Queue) : (s.setQueue q x).dean.hot = s.dean.hot := rfl
@[simp] theorem State.setQueue_dean_portTen (s : State) (q : Nat) (x : Queue) : (s.setQueue q x).dean.portTen = s.dean.portTen := rfl
@[simp] theorem State.setQueue_dean_mcast (s : State) (q : Nat) (x : Queue) : (s.setQueue q x).dean.mcast = s.dean.mcast := rfl
@[simp] theorem State.setQueue_dean_mail (s : State) (q : Nat) (x : Queue) : (s.setQueue q x).dean.mail = s.dean.mail := rfl
@[simp] theorem State.setQueue_dean_saves (s : State) (q : Nat) (x : Queue) : (s.setQueue q x).dean.saves = s.dean.saves := rfl
@[simp] theorem State.setQueue_dean_maps (s : State) (q : Nat) (x : Queue) : (s.setQueue q x).dean.maps = s.dean.maps := rfl
@[simp] theorem State.setQueue_dean_nextMap (s : State) (q : Nat) (x : Queue) : (s.setQueue q x).dean.nextMap = s.dean.nextMap := rfl
@[simp] theorem State.setQueue_dean_faults (s : State) (q : Nat) (x : Queue) : (s.setQueue q x).dean.faults = s.dean.faults := rfl
@[simp] theorem State.setQueue_dean_faultN (s : State) (q : Nat) (x : Queue) : (s.setQueue q x).dean.faultN = s.dean.faultN := rfl
@[simp] theorem State.setQueue_dean_scrubs (s : State) (q : Nat) (x : Queue) : (s.setQueue q x).dean.scrubs = s.dean.scrubs := rfl
@[simp] theorem State.setQueue_dean_bellWaits (s : State) (q : Nat) (x : Queue) : (s.setQueue q x).dean.bellWaits = s.dean.bellWaits := rfl
@[simp] theorem State.setQueue_dean_doing (s : State) (q : Nat) (x : Queue) : (s.setQueue q x).dean.doing = s.dean.doing := rfl
@[simp] theorem State.setQueue_dean_fwDigest (s : State) (q : Nat) (x : Queue) : (s.setQueue q x).dean.fwDigest = s.dean.fwDigest := rfl
@[simp] theorem State.setQueue_dean_offDomains (s : State) (q : Nat) (x : Queue) : (s.setQueue q x).dean.offDomains = s.dean.offDomains := rfl
@[simp] theorem State.setQueue_dean_tier2 (s : State) (q : Nat) (x : Queue) : (s.setQueue q x).dean.tier2 = s.dean.tier2 := rfl
@[simp] theorem State.setQueue_dean_lastSample (s : State) (q : Nat) (x : Queue) : (s.setQueue q x).dean.lastSample = s.dean.lastSample := rfl
@[simp] theorem State.setQueue_dean_estimate (s : State) (q : Nat) (x : Queue) : (s.setQueue q x).dean.estimate = s.dean.estimate := rfl
@[simp] theorem State.setQueue_dean_idlePass (s : State) (q : Nat) (x : Queue) : (s.setQueue q x).dean.idlePass = s.dean.idlePass := rfl
@[simp] theorem State.setQueue_dean_tier2Ports (s : State) (q : Nat) (x : Queue) : (s.setQueue q x).dean.tier2Ports = s.dean.tier2Ports := rfl
@[simp] theorem State.setQueue_dean_switchPorts (s : State) (q : Nat) (x : Queue) : (s.setQueue q x).dean.switchPorts = s.dean.switchPorts := rfl
@[simp] theorem State.setQueue_dean_placedAt (s : State) (q : Nat) (x : Queue) : (s.setQueue q x).dean.placedAt = s.dean.placedAt := rfl
@[simp] theorem State.setQueue_dean_placedBy (s : State) (q : Nat) (x : Queue) : (s.setQueue q x).dean.placedBy = s.dean.placedBy := rfl
@[simp] theorem State.setQueue_dean_queues (s : State) (q : Nat) (x : Queue) : (s.setQueue q x).dean.queues = assocSet s.dean.queues q x := rfl

/-! ## The record updates are their set with a function -/

theorem State.updTile_eq (s : State) (t : Nat) (f : Tile → Tile) : s.updTile t f = s.setTile t (f (s.tile t)) := rfl
theorem State.updCtx_eq (s : State) (c : Nat) (f : Ctx → Ctx) : s.updCtx c f = s.setCtx c (f (s.ctx c)) := rfl
theorem State.updTask_eq (s : State) (c k : Nat) (f : Task → Task) : s.updTask c k f = s.setTask c k (f (s.task c k)) := rfl
theorem State.updQueue_eq (s : State) (q : Nat) (f : Queue → Queue) : s.updQueue q f = s.setQueue q (f (s.queue q)) := rfl

/-! ## Sparse arrays -/

@[simp] theorem assocGet_set_self {α : Type} (d : α) (a : Assoc α) (i : Nat) (v : α) : assocGet d (assocSet a i v) i = v := by
  induction a with
  | nil => simp [assocSet, assocGet]
  | cons p t ih =>
    obtain ⟨k, w⟩ := p
    simp only [assocSet]
    split
    · simp [assocGet]
    · split
      · simp [assocGet]
      · simp [assocGet, *]

theorem assocGet_set_other {α : Type} (d : α) (a : Assoc α) (i j : Nat) (v : α) (h : i ≠ j) :
    assocGet d (assocSet a i v) j = assocGet d a j := by
  induction a with
  | nil => simp [assocSet, assocGet, h]
  | cons p t ih =>
    obtain ⟨k, w⟩ := p
    simp only [assocSet]
    split
    · next hk => subst hk; simp [assocGet, h]
    · split
      · simp [assocGet, h]
      · simp [assocGet, ih]

/-! ## Reading a unit back -/

@[simp] theorem State.tile_setTile (s : State) (t : Nat) (x : Tile) : (s.setTile t x).tile t = x := by simp [State.tile]
@[simp] theorem State.cluster_setCluster (s : State) (c : Nat) (x : Cluster) : (s.setCluster c x).cluster c = x := by
  simp [State.cluster]
@[simp] theorem State.domain_setDomain (s : State) (d : Nat) (x : Domain) : (s.setDomain d x).domain d = x := by
  simp [State.domain]
@[simp] theorem State.ctx_setCtx (s : State) (c : Nat) (x : Ctx) : (s.setCtx c x).ctx c = x := by simp [State.ctx]
@[simp] theorem State.queue_setQueue (s : State) (q : Nat) (x : Queue) : (s.setQueue q x).queue q = x := by simp [State.queue]
@[simp] theorem State.task_setTask (s : State) (c k : Nat) (x : Task) : (s.setTask c k x).task c k = x := by
  simp [State.setTask, State.setCore, State.task]

theorem State.tile_setTile_other (s : State) (t u : Nat) (x : Tile) (h : t ≠ u) : (s.setTile t x).tile u = s.tile u := by
  simp [State.tile, assocGet_set_other _ _ _ _ _ h]
theorem State.cluster_setCluster_other (s : State) (c d : Nat) (x : Cluster) (h : c ≠ d) :
    (s.setCluster c x).cluster d = s.cluster d := by
  simp [State.cluster, assocGet_set_other _ _ _ _ _ h]
theorem State.ctx_setCtx_other (s : State) (c d : Nat) (x : Ctx) (h : c ≠ d) : (s.setCtx c x).ctx d = s.ctx d := by
  simp [State.ctx, assocGet_set_other _ _ _ _ _ h]
theorem State.queue_setQueue_other (s : State) (c d : Nat) (x : Queue) (h : c ≠ d) : (s.setQueue c x).queue d = s.queue d := by
  simp [State.queue, assocGet_set_other _ _ _ _ _ h]
theorem State.task_setTask_other (s : State) (c k j : Nat) (x : Task) (h : k ≠ j) : (s.setTask c k x).task c j = s.task c j := by
  simp [State.setTask, State.setCore, State.task, assocGet_set_other _ _ _ _ _ h]
theorem State.task_setTask_cluster (s : State) (c d k j : Nat) (x : Task) (h : c ≠ d) : (s.setTask c k x).task d j = s.task d j := by
  simp [State.setTask, State.setCore, State.task, State.cluster_setCluster_other _ _ _ _ h]

@[simp] theorem State.tile_setTask (s : State) (c k t : Nat) (x : Task) : (s.setTask c k x).tile t = s.tile t := rfl
@[simp] theorem State.ctx_setTask (s : State) (c k d : Nat) (x : Task) : (s.setTask c k x).ctx d = s.ctx d := rfl
@[simp] theorem State.tile_setCtx (s : State) (c t : Nat) (x : Ctx) : (s.setCtx c x).tile t = s.tile t := rfl
@[simp] theorem State.cluster_setCtx (s : State) (c d : Nat) (x : Ctx) : (s.setCtx c x).cluster d = s.cluster d := rfl
@[simp] theorem State.cluster_setTile (s : State) (t d : Nat) (x : Tile) : (s.setTile t x).cluster d = s.cluster d := rfl
@[simp] theorem State.ctx_setTile (s : State) (t d : Nat) (x : Tile) : (s.setTile t x).ctx d = s.ctx d := rfl
@[simp] theorem State.queue_setTile (s : State) (t d : Nat) (x : Tile) : (s.setTile t x).queue d = s.queue d := rfl
@[simp] theorem State.task_setTile (s : State) (t c k : Nat) (x : Tile) : (s.setTile t x).task c k = s.task c k := rfl

/-! ## Registers of a task (R272) -/

@[simp] theorem Task.reg_zero (t : Task) : t.reg 0 = 0 := by simp [Task.reg]
@[simp] theorem Task.setReg_zero (t : Task) (v : Word) : t.setReg 0 v = t := by simp [Task.setReg]

@[simp] theorem Task.setReg_st (t : Task) (r : BitVec 5) (v : Word) : (t.setReg r v).st = t.st := by
  unfold Task.setReg; split <;> rfl
@[simp] theorem Task.setReg_pc (t : Task) (r : BitVec 5) (v : Word) : (t.setReg r v).pc = t.pc := by
  unfold Task.setReg; split <;> rfl
@[simp] theorem Task.setReg_tenant (t : Task) (r : BitVec 5) (v : Word) : (t.setReg r v).tenant = t.tenant := by
  unfold Task.setReg; split <;> rfl
@[simp] theorem Task.setReg_ctx (t : Task) (r : BitVec 5) (v : Word) : (t.setReg r v).ctx = t.ctx := by
  unfold Task.setReg; split <;> rfl
@[simp] theorem Task.setReg_inh (t : Task) (r : BitVec 5) (v : Word) : (t.setReg r v).inh = t.inh := by
  unfold Task.setReg; split <;> rfl
@[simp] theorem Task.setReg_priv (t : Task) (r : BitVec 5) (v : Word) : (t.setReg r v).priv = t.priv := by
  unfold Task.setReg; split <;> rfl
@[simp] theorem Task.setReg_map (t : Task) (r : BitVec 5) (v : Word) : (t.setReg r v).map = t.map := by
  unfold Task.setReg; split <;> rfl
@[simp] theorem Task.setReg_cfg (t : Task) (r : BitVec 5) (v : Word) : (t.setReg r v).cfg = t.cfg := by
  unfold Task.setReg; split <;> rfl
@[simp] theorem Task.setReg_epc (t : Task) (r : BitVec 5) (v : Word) : (t.setReg r v).epc = t.epc := by
  unfold Task.setReg; split <;> rfl
@[simp] theorem Task.setReg_cause (t : Task) (r : BitVec 5) (v : Word) : (t.setReg r v).cause = t.cause := by
  unfold Task.setReg; split <;> rfl
@[simp] theorem Task.setReg_tvec (t : Task) (r : BitVec 5) (v : Word) : (t.setReg r v).tvec = t.tvec := by
  unfold Task.setReg; split <;> rfl
@[simp] theorem Task.setReg_badaddr (t : Task) (r : BitVec 5) (v : Word) : (t.setReg r v).badaddr = t.badaddr := by
  unfold Task.setReg; split <;> rfl
@[simp] theorem Task.setReg_score (t : Task) (r : BitVec 5) (v : Word) : (t.setReg r v).score = t.score := by
  unfold Task.setReg; split <;> rfl
@[simp] theorem Task.setReg_instret (t : Task) (r : BitVec 5) (v : Word) : (t.setReg r v).instret = t.instret := by
  unfold Task.setReg; split <;> rfl
@[simp] theorem Task.setReg_asid (t : Task) (r : BitVec 5) (v : Word) : (t.setReg r v).asid = t.asid := by
  unfold Task.setReg; split <;> rfl
@[simp] theorem Task.setReg_recipes (t : Task) (r : BitVec 5) (v : Word) : (t.setReg r v).recipes = t.recipes := by
  unfold Task.setReg; split <;> rfl
@[simp] theorem Task.setReg_dentry (t : Task) (r : BitVec 5) (v : Word) : (t.setReg r v).dentry = t.dentry := by
  unfold Task.setReg; split <;> rfl
@[simp] theorem Task.setReg_fentry (t : Task) (r : BitVec 5) (v : Word) : (t.setReg r v).fentry = t.fentry := by
  unfold Task.setReg; split <;> rfl
@[simp] theorem Task.setReg_line (t : Task) (r : BitVec 5) (v : Word) : (t.setReg r v).line = t.line := by
  unfold Task.setReg; split <;> rfl
@[simp] theorem Task.setReg_image (t : Task) (r : BitVec 5) (v : Word) : (t.setReg r v).image = t.image := by
  unfold Task.setReg; split <;> rfl
@[simp] theorem Task.setReg_spawned (t : Task) (r : BitVec 5) (v : Word) : (t.setReg r v).spawned = t.spawned := by
  unfold Task.setReg; split <;> rfl
@[simp] theorem Task.setReg_access (t : Task) (r : BitVec 5) (v : Word) : (t.setReg r v).access = t.access := by
  unfold Task.setReg; split <;> rfl
@[simp] theorem Task.setReg_ranged (t : Task) (r : BitVec 5) (v : Word) : (t.setReg r v).ranged = t.ranged := by
  unfold Task.setReg; split <;> rfl

theorem Task.reg_setReg (t : Task) (r : BitVec 5) (v : Word) (h : r ≠ 0) (hl : t.regs.length = 32) : (t.setReg r v).reg r = v := by
  have hr : r.toNat < t.regs.length := by rw [hl]; exact r.isLt
  unfold Task.reg Task.setReg
  rw [if_neg h, if_neg h]
  simp [List.getD_eq_getElem?_getD, hr]

theorem Task.reg_setReg_other (t : Task) (r q : BitVec 5) (v : Word) (h : r ≠ q) : (t.setReg r v).reg q = t.reg q := by
  by_cases h0 : r = 0
  · subst h0; rw [Task.setReg_zero]
  · have hn : r.toNat ≠ q.toNat := fun e => h (BitVec.eq_of_toNat_eq e)
    unfold Task.reg Task.setReg
    rw [if_neg h0]
    simp [List.getD_eq_getElem?_getD, List.getElem?_set_ne hn]

end Sys2Proof.Machine
end

