-- ==== Sys2Proof/Laws/Memory.lean ====
section
/-! SUPPORT. Memory cells: the canonical form as an order and a condition on each entry, that every write keeps it, and
that a read after a write gives the value written and leaves every other address alone. -/

namespace Sys2Proof.Machine

/-- Cells in ascending order of address, with no blank byte among them. -/
theorem cellsWf_iff (m : List Host.Cell) :
    cellsWf m = true ↔ m.Pairwise (fun p q => p.1 < q.1) ∧ ∀ p ∈ m, p.2 ≠ blankByte := by
  induction m with
  | nil => simp [cellsWf]
  | cons p t ih =>
    obtain ⟨k, v⟩ := p
    cases t with
    | nil => simp [cellsWf]
    | cons q t =>
      obtain ⟨k', v'⟩ := q
      rw [cellsWf, Bool.and_eq_true, Bool.and_eq_true, ih]
      simp only [List.pairwise_cons, List.mem_cons, bne_iff_ne, ne_eq, decide_eq_true_eq]
      constructor
      · rintro ⟨⟨hv, hk⟩, ⟨hq, ht⟩, hall⟩
        refine ⟨⟨?_, hq, ht⟩, ?_⟩
        · rintro a (rfl | ha)
          · exact hk
          · exact lt_trans hk (hq a ha)
        · rintro a (rfl | ha)
          · exact hv
          · exact hall a ha
      · rintro ⟨⟨h1, hq, ht⟩, hall⟩
        exact ⟨⟨hall _ (.inl rfl), h1 _ (.inl rfl)⟩, ⟨hq, ht⟩, fun a ha => hall a (.inr ha)⟩

/-! ## Reads after a write of one byte -/

theorem cellGet_of_lt (m : List Host.Cell) (a : Nat) (h : ∀ p ∈ m, a < p.1) : cellGet m a = blankByte := by
  induction m with
  | nil => rfl
  | cons p t ih =>
    obtain ⟨k, v⟩ := p
    have hk : a < k := h _ List.mem_cons_self
    rw [cellGet, if_neg (by omega)]
    exact ih fun q hq => h q (List.mem_cons_of_mem _ hq)

theorem cellGet_put (m : List Host.Cell) (a : Nat) (b : Byte) (i : Nat) :
    cellGet (cellPut m a b) i = if i = a then b else cellGet m i := by
  induction m with
  | nil => simp [cellPut, cellGet, eq_comm]
  | cons p t ih =>
    obtain ⟨k, v⟩ := p
    simp only [cellPut]
    split
    · next hk =>
      subst hk
      by_cases h : k = i
      · subst h; simp [cellGet]
      · simp [cellGet, h, Ne.symm h]
    · split
      · by_cases h : a = i
        · subst h; simp [cellGet]
        · simp [cellGet, h, Ne.symm h]
      · next hk _ =>
        simp only [cellGet, ih]
        by_cases h : k = i
        · subst h; simp [hk]
        · simp [h]

theorem cellGet_drop (m : List Host.Cell) (a i : Nat) (h : m.Pairwise fun p q => p.1 < q.1) :
    cellGet (cellDrop m a) i = if i = a then blankByte else cellGet m i := by
  induction m with
  | nil => simp [cellDrop, cellGet]
  | cons p t ih =>
    obtain ⟨k, v⟩ := p
    obtain ⟨hk, ht⟩ := List.pairwise_cons.mp h
    simp only [cellDrop]
    split
    · next e =>
      subst e
      by_cases hi : i = k
      · subst hi; simp only [if_true]; exact cellGet_of_lt t i hk
      · simp only [cellGet, if_neg hi, if_neg (Ne.symm hi)]
    · split
      · next _ hlt =>
        by_cases hi : i = a
        · subst hi
          simp only [if_true]
          refine cellGet_of_lt _ _ fun q hq => ?_
          rcases List.mem_cons.mp hq with rfl | hq
          · exact hlt
          · exact lt_trans hlt (hk q hq)
        · rw [if_neg hi]
      · simp only [cellGet, ih ht]; by_cases e : k = i <;> simp_all

/-- A read after a write of one byte. -/
theorem cellGet_set (m : List Host.Cell) (a : Nat) (b : Byte) (i : Nat) (h : cellsWf m = true) :
    cellGet (cellSet m a b) i = if i = a then b else cellGet m i := by
  unfold cellSet
  split
  · next hb => rw [cellGet_drop m a i ((cellsWf_iff m).mp h).1, hb]
  · exact cellGet_put m a b i

/-! ## The canonical form is kept -/

theorem cellDrop_sublist (m : List Host.Cell) (a : Nat) : (cellDrop m a).Sublist m := by
  induction m with
  | nil => exact List.Sublist.slnil
  | cons p t ih =>
    obtain ⟨k, v⟩ := p
    simp only [cellDrop]
    split
    · exact List.sublist_cons_self _ _
    · split
      · exact List.Sublist.refl _
      · exact ih.cons_cons _

theorem cellsWf_sublist {m n : List Host.Cell} (h : cellsWf m = true) (hs : n.Sublist m) : cellsWf n = true := by
  rw [cellsWf_iff] at h ⊢
  exact ⟨h.1.sublist hs, fun p hp => h.2 p (hs.subset hp)⟩

theorem mem_cellPut (m : List Host.Cell) (a : Nat) (b : Byte) (p : Host.Cell) (h : p ∈ cellPut m a b) : p = (a, b) ∨ p ∈ m := by
  induction m with
  | nil => simpa [cellPut] using h
  | cons q t ih =>
    obtain ⟨k, v⟩ := q
    simp only [cellPut] at h
    split at h
    · rcases List.mem_cons.mp h with h | h
      · exact .inl h
      · exact .inr (List.mem_cons_of_mem _ h)
    · split at h
      · rcases List.mem_cons.mp h with h | h
        · exact .inl h
        · exact .inr h
      · rcases List.mem_cons.mp h with h | h
        · exact .inr (h ▸ List.mem_cons_self)
        · exact (ih h).imp_right (List.mem_cons_of_mem _)

theorem cellPut_pairwise (m : List Host.Cell) (a : Nat) (b : Byte) (h : m.Pairwise fun p q => p.1 < q.1) :
    (cellPut m a b).Pairwise fun p q => p.1 < q.1 := by
  induction m with
  | nil => simp [cellPut]
  | cons q t ih =>
    obtain ⟨k, v⟩ := q
    obtain ⟨hk, ht⟩ := List.pairwise_cons.mp h
    simp only [cellPut]
    split
    · next e => subst e; exact List.pairwise_cons.mpr ⟨hk, ht⟩
    · split
      · next _ hlt =>
        refine List.pairwise_cons.mpr ⟨fun p hp => ?_, h⟩
        rcases List.mem_cons.mp hp with rfl | hp
        · exact hlt
        · exact lt_trans hlt (hk p hp)
      · refine List.pairwise_cons.mpr ⟨fun p hp => ?_, ih ht⟩
        rcases mem_cellPut t a b p hp with rfl | hp
        · show k < a; omega
        · exact hk p hp

/-- A write of one byte keeps the canonical form. -/
theorem cellsWf_set (m : List Host.Cell) (a : Nat) (b : Byte) (h : cellsWf m = true) : cellsWf (cellSet m a b) = true := by
  unfold cellSet
  split
  · exact cellsWf_sublist h (cellDrop_sublist m a)
  · next hb =>
    rw [cellsWf_iff] at h ⊢
    refine ⟨cellPut_pairwise m a b h.1, fun p hp => ?_⟩
    rcases mem_cellPut m a b p hp with rfl | hp
    · exact hb
    · exact h.2 p hp

/-- So does a write of bytes. -/
theorem cellsWf_cellsSet (m : List Host.Cell) (a : Nat) (bs : List Byte) (h : cellsWf m = true) :
    cellsWf (cellsSet m a bs) = true := by
  induction bs generalizing m a with
  | nil => exact h
  | cons b bs ih => exact ih _ _ (cellsWf_set m a b h)

/-- And blanking a range. -/
theorem cellsWf_blank (m : List Host.Cell) (a n : Nat) (h : cellsWf m = true) : cellsWf (cellsBlank m a n) = true :=
  cellsWf_sublist h List.filter_sublist

/-! ## Reads after a write of bytes -/

/-- A byte after a write of bytes from an address: the byte written there, or what was there. -/
theorem cellGet_cellsSet (m : List Host.Cell) (a : Nat) (bs : List Byte) (i : Nat) (h : cellsWf m = true) :
    cellGet (cellsSet m a bs) i = if a ≤ i ∧ i < a + bs.length then bs.getD (i - a) 0 else cellGet m i := by
  induction bs generalizing m a with
  | nil => simp [cellsSet]
  | cons b bs ih =>
    rw [cellsSet, ih _ _ (cellsWf_set m a b h), cellGet_set m a b i h, List.length_cons]
    by_cases h1 : i = a
    · subst h1
      rw [if_neg (by omega), if_pos (by omega)]
      simp
    · by_cases h2 : a + 1 ≤ i ∧ i < a + 1 + bs.length
      · rw [if_pos h2, if_pos (by omega)]
        obtain ⟨j, rfl⟩ : ∃ j, i = a + 1 + j := ⟨i - (a + 1), by omega⟩
        rw [show a + 1 + j - (a + 1) = j from by omega, show a + 1 + j - a = j + 1 from by omega]
        simp
      · rw [if_neg h2, if_neg h1, if_neg (by omega)]

/-- A blanked range reads blank. -/
theorem cellGet_blank (m : List Host.Cell) (a n i : Nat) :
    cellGet (cellsBlank m a n) i = if a ≤ i ∧ i < a + n then blankByte else cellGet m i := by
  induction m with
  | nil => simp [cellsBlank, cellGet]
  | cons p t ih =>
    obtain ⟨k, v⟩ := p
    unfold cellsBlank at ih ⊢
    by_cases hk : k < a ∨ a + n ≤ k
    · rw [List.filter_cons_of_pos (by simpa using hk)]
      simp only [cellGet, ih]
      by_cases e : k = i
      · subst e; rw [if_pos rfl, if_pos rfl, if_neg (by omega)]
      · rw [if_neg e, if_neg e]
    · rw [List.filter_cons_of_neg (by simpa using hk), ih]
      by_cases e : k = i
      · subst e; rw [if_pos (by omega), if_pos (by omega)]
      · simp only [cellGet, if_neg e]

theorem cellsGet_length (m : List Host.Cell) (a n : Nat) : (cellsGet m a n).length = n := by
  induction n generalizing a with
  | zero => rfl
  | succ n ih => simp [cellsGet, ih]

/-! ## Memory of the machine -/

/-- Memory in its canonical form. -/
abbrev State.memWf (s : State) : Prop := cellsWf s.mem = true

theorem State.reset_memWf : State.reset.memWf := by decide

theorem State.memWf_putBlock (s : State) (b : Nat) (m : BlockMeta) (bs : List Byte) (h : s.memWf) : (s.putBlock b m bs).memWf :=
  cellsWf_cellsSet _ _ _ h

theorem State.memWf_eraseBank (s : State) (owner c bank : Nat) (h : s.memWf) : (s.eraseBank owner c bank).memWf :=
  cellsWf_blank _ _ _ h

theorem State.memWf_bootStart (s : State) (rom : BootInputs) (h : s.memWf) : (s.bootStart rom).memWf :=
  cellsWf_sublist h List.filter_sublist

theorem State.memWf_addMeter (s : State) (tenant ix n : Nat) (h : s.memWf) : (s.addMeter tenant ix n).memWf := by
  unfold State.addMeter
  split
  · exact h
  · exact h

/-! ## One access at its home (R217, R220) -/

theorem storeItems_length (bs : List Byte) (xs : List (Nat × Byte)) : (storeItems bs xs).length = bs.length := by
  induction xs generalizing bs with
  | nil => rfl
  | cons x xs ih => simp [storeItems, ih]

/-- A load leaves memory as it is. -/
theorem State.homeLoad_mem (s : State) (a : Access) (s' : State) (o : AccessOut) (h : s.homeLoad a = .done s' o) : s'.mem = s.mem := by
  unfold State.homeLoad at h
  simp only at h
  repeat' split at h
  all_goals first | (injection h with h; rw [← h]) | cases h

/-- The version check of a store never answers with an access done. -/
theorem storeGate_ne_done (m : VMode) (v : BitVec 16) (s : State) (o : AccessOut) : storeGate m v ≠ some (.done s o) := by
  unfold storeGate
  repeat' split
  all_goals simp

/-- A performed store or atomic writes its block, or a peer's; what it keeps is in canonical form. -/
theorem State.memWf_homeStore (s : State) (a : Access) (out : List Byte → AccessOut × List Byte) (s' : State) (o : AccessOut)
    (h : s.homeStore a out = .done s' o) (hw : s.memWf) : s'.memWf := by
  unfold State.homeStore State.homeStore.finish at h
  simp only at h
  repeat' split at h
  all_goals first
    | (injection h with h; rw [← h]; first | exact hw | exact s.memWf_putBlock _ _ _ hw)
    | (next r hr => subst h; exact absurd hr (storeGate_ne_done _ _ _ _))
    | cases h

/-- The wait of VWAIT leaves the state as it is. -/
theorem State.homeProbe_state (s : State) (a : Access) (s' : State) (o : AccessOut) (h : s.homeProbe a = .done s' o) : s' = s := by
  unfold State.homeProbe at h
  simp only at h
  repeat' split at h
  all_goals first | (injection h with h; exact h.symm) | cases h

/-- RECLAIM leaves memory as it is. -/
theorem State.homeReclaim_mem (s : State) (a : Access) (n : BitVec 16) (s' : State) (o : AccessOut)
    (h : s.homeReclaim a n = .done s' o) : s'.mem = s.mem := by
  unfold State.homeReclaim at h
  simp only at h
  split at h <;> (injection h with h; rw [← h])
  rfl

/-- A performed access is charged to its meter, and keeps the canonical form where its operation does. -/
theorem State.memWf_charged (a : Access) (n : Nat) (r : HomeResult) (s' : State) (o : AccessOut)
    (h : (match r with
      | .done z p => .done (z.addMeter a.tenant n a.moved) p
      | q => q : HomeResult) = .done s' o) (hr : ∀ z p, r = .done z p → z.memWf) : s'.memWf := by
  cases r <;> simp only [reduceCtorEq, HomeResult.done.injEq] at h
  next z p => rw [← h.1]; exact State.memWf_addMeter _ _ _ _ (hr z p rfl)

/-- Every access performed at its home keeps the canonical form. -/
theorem State.memWf_homeAct (s : State) (a : Access) (s' : State) (o : AccessOut) (h : s.homeAct a = .done s' o) (hw : s.memWf) :
    s'.memWf := by
  have go : ∀ z p, (match a.op with
      | .load => s.homeLoad a
      | .probe => s.homeProbe a
      | .store bytes => s.homeStore a fun old => ({}, storeItems old bytes)
      | .atom op sg items => s.homeStore a fun old =>
          let r := atomItems op sg a.width items old
          ({ old := r.1 }, r.2)
      | .reclaim n => s.homeReclaim a n) = HomeResult.done z p → z.memWf := by
    intro z p hz
    split at hz
    · rw [State.memWf, s.homeLoad_mem a z p hz]; exact hw
    · rw [s.homeProbe_state a z p hz]; exact hw
    · exact s.memWf_homeStore a _ z p hz hw
    · exact s.memWf_homeStore a _ z p hz hw
    · rw [State.memWf, s.homeReclaim_mem a _ z p hz]; exact hw
  unfold State.homeAct at h
  simp only at h
  split at h
  · cases h
  · split at h
    · cases h
    · split at h
      · cases h
      · exact State.memWf_charged a _ _ _ _ h go
  · split at h
    · cases h
    · split at h
      · next z p hz =>
        injection h with h; rw [← h]
        exact State.memWf_charged a _ _ z p hz go
      · next hz => exact absurd h (hz _ _)
  · exact State.memWf_charged a _ _ _ _ h go

end Sys2Proof.Machine
end

