-- ==== Sys2Proof/Laws/PerInstr.lean ====
section
/-! SUPPORT. Decoding and encoding agree, constructor by constructor: the family EncodeDecode. -/

namespace Sys2Proof.Laws

/-! ## Fields of appended words -/

theorem extract_append_high {a b : Nat} (x : BitVec a) (y : BitVec b) (s n : Nat) :
    (x ++ y).extractLsb' (s + b) n = x.extractLsb' s n := by
  ext i h
  simp only [BitVec.getElem_extractLsb', BitVec.getLsbD_append]
  rw [if_neg (by omega)]
  congr 1; omega

theorem extract_append_low {a b : Nat} (x : BitVec a) (y : BitVec b) : (x ++ y).extractLsb' 0 b = y := by
  ext i h
  simp [BitVec.getLsbD_append, h]

theorem extract_all {a : Nat} (x : BitVec a) : x.extractLsb' 0 a = x := by
  ext i h
  simp

/-! ## Slot words -/

theorem unpack_packD (op : Nat) (w : DWord) : unpackD (packD op w) = w := by
  cases w
  simp only [unpackD, packD, DWord.mk.injEq]
  exact ⟨by exact (extract_append_high _ _ 33 5).trans <| (extract_append_high _ _ 15 5).trans <| (extract_append_high _ _ 14 5).trans <| (extract_append_high _ _ 12 5).trans <| (extract_append_high _ _ 8 5).trans <| (extract_append_high _ _ 7 5).trans <| (extract_append_high _ _ 5 5).trans <| (extract_append_high _ _ 3 5).trans <| (extract_append_high _ _ 0 5).trans <| extract_append_low _ _,
    by exact (extract_append_high _ _ 30 3).trans <| (extract_append_high _ _ 12 3).trans <| (extract_append_high _ _ 11 3).trans <| (extract_append_high _ _ 9 3).trans <| (extract_append_high _ _ 5 3).trans <| (extract_append_high _ _ 4 3).trans <| (extract_append_high _ _ 2 3).trans <| (extract_append_high _ _ 0 3).trans <| extract_append_low _ _,
    by exact (extract_append_high _ _ 28 2).trans <| (extract_append_high _ _ 10 2).trans <| (extract_append_high _ _ 9 2).trans <| (extract_append_high _ _ 7 2).trans <| (extract_append_high _ _ 3 2).trans <| (extract_append_high _ _ 2 2).trans <| (extract_append_high _ _ 0 2).trans <| extract_append_low _ _,
    by exact (extract_append_high _ _ 26 2).trans <| (extract_append_high _ _ 8 2).trans <| (extract_append_high _ _ 7 2).trans <| (extract_append_high _ _ 5 2).trans <| (extract_append_high _ _ 1 2).trans <| (extract_append_high _ _ 0 2).trans <| extract_append_low _ _,
    by exact (extract_append_high _ _ 25 1).trans <| (extract_append_high _ _ 7 1).trans <| (extract_append_high _ _ 6 1).trans <| (extract_append_high _ _ 4 1).trans <| (extract_append_high _ _ 0 1).trans <| extract_append_low _ _,
    by exact (extract_append_high _ _ 21 4).trans <| (extract_append_high _ _ 3 4).trans <| (extract_append_high _ _ 2 4).trans <| (extract_append_high _ _ 0 4).trans <| extract_append_low _ _,
    by exact (extract_append_high _ _ 19 2).trans <| (extract_append_high _ _ 1 2).trans <| (extract_append_high _ _ 0 2).trans <| extract_append_low _ _,
    by exact (extract_append_high _ _ 18 1).trans <| (extract_append_high _ _ 0 1).trans <| extract_append_low _ _,
    by exact (extract_append_high _ _ 0 18).trans <| extract_append_low _ _,
    by exact extract_append_low _ _⟩

theorem op_packD (op : Nat) (h : op < 256) (w : DWord) : ((packD op w).extractLsb' 56 8).toNat = op := by
  have e : (packD op w).extractLsb' 56 8 = BitVec.ofNat 8 op := by
    exact (extract_append_high _ _ 38 8).trans <| (extract_append_high _ _ 20 8).trans <| (extract_append_high _ _ 19 8).trans <| (extract_append_high _ _ 17 8).trans <| (extract_append_high _ _ 13 8).trans <| (extract_append_high _ _ 12 8).trans <| (extract_append_high _ _ 10 8).trans <| (extract_append_high _ _ 8 8).trans <| (extract_append_high _ _ 5 8).trans <| (extract_append_high _ _ 0 8).trans <| extract_all _
  rw [e]
  exact Nat.mod_eq_of_lt h

theorem unpack_packM (op : Nat) (w : MWord) : unpackM (packM op w) = w := by
  cases w
  simp only [unpackM, packM, MWord.mk.injEq]
  exact ⟨by exact (extract_append_high _ _ 33 5).trans <| (extract_append_high _ _ 15 5).trans <| (extract_append_high _ _ 14 5).trans <| (extract_append_high _ _ 12 5).trans <| (extract_append_high _ _ 9 5).trans <| (extract_append_high _ _ 7 5).trans <| (extract_append_high _ _ 6 5).trans <| (extract_append_high _ _ 3 5).trans <| (extract_append_high _ _ 0 5).trans <| extract_append_low _ _,
    by exact (extract_append_high _ _ 30 3).trans <| (extract_append_high _ _ 12 3).trans <| (extract_append_high _ _ 11 3).trans <| (extract_append_high _ _ 9 3).trans <| (extract_append_high _ _ 6 3).trans <| (extract_append_high _ _ 4 3).trans <| (extract_append_high _ _ 3 3).trans <| (extract_append_high _ _ 0 3).trans <| extract_append_low _ _,
    by exact (extract_append_high _ _ 27 3).trans <| (extract_append_high _ _ 9 3).trans <| (extract_append_high _ _ 8 3).trans <| (extract_append_high _ _ 6 3).trans <| (extract_append_high _ _ 3 3).trans <| (extract_append_high _ _ 1 3).trans <| (extract_append_high _ _ 0 3).trans <| extract_append_low _ _,
    by exact (extract_append_high _ _ 26 1).trans <| (extract_append_high _ _ 8 1).trans <| (extract_append_high _ _ 7 1).trans <| (extract_append_high _ _ 5 1).trans <| (extract_append_high _ _ 2 1).trans <| (extract_append_high _ _ 0 1).trans <| extract_append_low _ _,
    by exact (extract_append_high _ _ 24 2).trans <| (extract_append_high _ _ 6 2).trans <| (extract_append_high _ _ 5 2).trans <| (extract_append_high _ _ 3 2).trans <| (extract_append_high _ _ 0 2).trans <| extract_append_low _ _,
    by exact (extract_append_high _ _ 21 3).trans <| (extract_append_high _ _ 3 3).trans <| (extract_append_high _ _ 2 3).trans <| (extract_append_high _ _ 0 3).trans <| extract_append_low _ _,
    by exact (extract_append_high _ _ 19 2).trans <| (extract_append_high _ _ 1 2).trans <| (extract_append_high _ _ 0 2).trans <| extract_append_low _ _,
    by exact (extract_append_high _ _ 18 1).trans <| (extract_append_high _ _ 0 1).trans <| extract_append_low _ _,
    by exact (extract_append_high _ _ 0 18).trans <| extract_append_low _ _,
    by exact extract_append_low _ _⟩

theorem op_packM (op : Nat) (h : op < 256) (w : MWord) : ((packM op w).extractLsb' 56 8).toNat = op := by
  have e : (packM op w).extractLsb' 56 8 = BitVec.ofNat 8 op := by
    exact (extract_append_high _ _ 38 8).trans <| (extract_append_high _ _ 20 8).trans <| (extract_append_high _ _ 19 8).trans <| (extract_append_high _ _ 17 8).trans <| (extract_append_high _ _ 14 8).trans <| (extract_append_high _ _ 12 8).trans <| (extract_append_high _ _ 11 8).trans <| (extract_append_high _ _ 8 8).trans <| (extract_append_high _ _ 5 8).trans <| (extract_append_high _ _ 0 8).trans <| extract_all _
  rw [e]
  exact Nat.mod_eq_of_lt h

theorem unpack_packE (op : Nat) (w : EWord) : unpackE (packE op w) = w := by
  cases w
  simp only [unpackE, packE, EWord.mk.injEq]
  exact ⟨by exact (extract_append_high _ _ 33 5).trans <| (extract_append_high _ _ 15 5).trans <| (extract_append_high _ _ 14 5).trans <| (extract_append_high _ _ 12 5).trans <| (extract_append_high _ _ 8 5).trans <| (extract_append_high _ _ 7 5).trans <| (extract_append_high _ _ 6 5).trans <| (extract_append_high _ _ 3 5).trans <| (extract_append_high _ _ 0 5).trans <| extract_append_low _ _,
    by exact (extract_append_high _ _ 30 3).trans <| (extract_append_high _ _ 12 3).trans <| (extract_append_high _ _ 11 3).trans <| (extract_append_high _ _ 9 3).trans <| (extract_append_high _ _ 5 3).trans <| (extract_append_high _ _ 4 3).trans <| (extract_append_high _ _ 3 3).trans <| (extract_append_high _ _ 0 3).trans <| extract_append_low _ _,
    by exact (extract_append_high _ _ 27 3).trans <| (extract_append_high _ _ 9 3).trans <| (extract_append_high _ _ 8 3).trans <| (extract_append_high _ _ 6 3).trans <| (extract_append_high _ _ 2 3).trans <| (extract_append_high _ _ 1 3).trans <| (extract_append_high _ _ 0 3).trans <| extract_append_low _ _,
    by exact (extract_append_high _ _ 26 1).trans <| (extract_append_high _ _ 8 1).trans <| (extract_append_high _ _ 7 1).trans <| (extract_append_high _ _ 5 1).trans <| (extract_append_high _ _ 1 1).trans <| (extract_append_high _ _ 0 1).trans <| extract_append_low _ _,
    by exact (extract_append_high _ _ 25 1).trans <| (extract_append_high _ _ 7 1).trans <| (extract_append_high _ _ 6 1).trans <| (extract_append_high _ _ 4 1).trans <| (extract_append_high _ _ 0 1).trans <| extract_append_low _ _,
    by exact (extract_append_high _ _ 21 4).trans <| (extract_append_high _ _ 3 4).trans <| (extract_append_high _ _ 2 4).trans <| (extract_append_high _ _ 0 4).trans <| extract_append_low _ _,
    by exact (extract_append_high _ _ 19 2).trans <| (extract_append_high _ _ 1 2).trans <| (extract_append_high _ _ 0 2).trans <| extract_append_low _ _,
    by exact (extract_append_high _ _ 18 1).trans <| (extract_append_high _ _ 0 1).trans <| extract_append_low _ _,
    by exact (extract_append_high _ _ 0 18).trans <| extract_append_low _ _,
    by exact extract_append_low _ _⟩

theorem op_packE (op : Nat) (h : op < 256) (w : EWord) : ((packE op w).extractLsb' 56 8).toNat = op := by
  have e : (packE op w).extractLsb' 56 8 = BitVec.ofNat 8 op := by
    exact (extract_append_high _ _ 38 8).trans <| (extract_append_high _ _ 20 8).trans <| (extract_append_high _ _ 19 8).trans <| (extract_append_high _ _ 17 8).trans <| (extract_append_high _ _ 13 8).trans <| (extract_append_high _ _ 12 8).trans <| (extract_append_high _ _ 11 8).trans <| (extract_append_high _ _ 8 8).trans <| (extract_append_high _ _ 5 8).trans <| (extract_append_high _ _ 0 8).trans <| extract_all _
  rw [e]
  exact Nat.mod_eq_of_lt h

/-- A packed word of an opcode decodes to what the opcode's row makes of its fields, where R33 accepts them. -/
theorem decode_packSlot (op : Nat) (h : op < 256) (f : SlotWord) (i : Instr)
    (hl : unpackSlot op (packSlot op f) = f) (hi : slotInstr op f = some i) (hok : f.ok op = true) :
    decodeFabric (packSlot op f) = .ok i := by
  have ho : ((packSlot op f).extractLsb' 56 8).toNat = op := by
    cases f
    · exact op_packD op h _
    · exact op_packM op h _
    · exact op_packE op h _
  simp only [decodeFabric, ho, hl, hi, hok, if_true]

/-- Decoding the encoding of an instruction gives it back: a slot word that R33 accepts, and a control-core word (a word
that stands for BAD_OP is no encoding). -/
def EncodeDecode.Statement (i : Instr) : Prop :=
  (i.wf = true → ∀ w, encodeFabric i = some w → decodeFabric w = .ok i) ∧
  (∀ w, encodeCore i = some w → i ≠ .badOp w → coreStep w = i)

theorem fabric_case (op : Nat) (h : op < 256) (f : SlotWord) (i : Instr) (hs : i.slotWord = some (op, f))
    (hl : unpackSlot op (packSlot op f) = f) (hi : slotInstr op f = some i) (hc : encodeCore i = none) :
    EncodeDecode.Statement i := by
  refine ⟨fun hw w he => ?_, fun w he => by simp [hc] at he⟩
  simp only [Instr.wf, hs] at hw
  simp only [encodeFabric, hs, Option.map_some, Option.some.injEq] at he
  rw [← he]
  exact decode_packSlot op h f i hl hi hw

theorem event_case (i : Instr) (hs : i.slotWord = none) (hc : encodeCore i = none) : EncodeDecode.Statement i :=
  ⟨fun _ w he => by simp [encodeFabric, hs] at he, fun w he => by simp [hc] at he⟩

theorem core_case (i : Instr) (w : BitVec 32) (hs : i.slotWord = none) (hc : encodeCore i = some w)
    (hi : coreInstr w = some i) : EncodeDecode.Statement i := by
  refine ⟨fun _ v he => by simp [encodeFabric, hs] at he, fun v he _ => ?_⟩
  rw [hc] at he
  cases he
  simp only [coreStep, decodeCore, hi]

/-! ## Fabric rows -/

theorem EncodeDecode.sink (w : DWord) : EncodeDecode.Statement (.sink w) :=
  fabric_case 0x00 (by decide) (.d w) _ rfl (congrArg SlotWord.d (unpack_packD _ w)) rfl rfl

theorem EncodeDecode.pass (w : DWord) : EncodeDecode.Statement (.pass w) :=
  fabric_case 0x01 (by decide) (.d w) _ rfl (congrArg SlotWord.d (unpack_packD _ w)) rfl rfl

theorem EncodeDecode.fanout (w : DWord) : EncodeDecode.Statement (.fanout w) :=
  fabric_case 0x02 (by decide) (.d w) _ rfl (congrArg SlotWord.d (unpack_packD _ w)) rfl rfl

theorem EncodeDecode.steer (w : DWord) : EncodeDecode.Statement (.steer w) :=
  fabric_case 0x03 (by decide) (.d w) _ rfl (congrArg SlotWord.d (unpack_packD _ w)) rfl rfl

theorem EncodeDecode.merge (w : DWord) : EncodeDecode.Statement (.merge w) :=
  fabric_case 0x04 (by decide) (.d w) _ rfl (congrArg SlotWord.d (unpack_packD _ w)) rfl rfl

theorem EncodeDecode.sync (w : DWord) : EncodeDecode.Statement (.sync w) :=
  fabric_case 0x05 (by decide) (.d w) _ rfl (congrArg SlotWord.d (unpack_packD _ w)) rfl rfl

theorem EncodeDecode.emit (w : DWord) : EncodeDecode.Statement (.emit w) :=
  fabric_case 0x06 (by decide) (.d w) _ rfl (congrArg SlotWord.d (unpack_packD _ w)) rfl rfl

theorem EncodeDecode.retag (w : DWord) : EncodeDecode.Statement (.retag w) :=
  fabric_case 0x07 (by decide) (.d w) _ rfl (congrArg SlotWord.d (unpack_packD _ w)) rfl rfl

theorem EncodeDecode.stick (w : DWord) : EncodeDecode.Statement (.stick w) :=
  fabric_case 0x08 (by decide) (.d w) _ rfl (congrArg SlotWord.d (unpack_packD _ w)) rfl rfl

theorem EncodeDecode.purge (w : DWord) : EncodeDecode.Statement (.purge w) :=
  fabric_case 0x09 (by decide) (.d w) _ rfl (congrArg SlotWord.d (unpack_packD _ w)) rfl rfl

theorem EncodeDecode.cancel (w : DWord) : EncodeDecode.Statement (.cancel w) :=
  fabric_case 0x0A (by decide) (.d w) _ rfl (congrArg SlotWord.d (unpack_packD _ w)) rfl rfl

theorem EncodeDecode.split (w : DWord) : EncodeDecode.Statement (.split w) :=
  fabric_case 0x0B (by decide) (.d w) _ rfl (congrArg SlotWord.d (unpack_packD _ w)) rfl rfl

theorem EncodeDecode.pack (w : DWord) : EncodeDecode.Statement (.pack w) :=
  fabric_case 0x0C (by decide) (.d w) _ rfl (congrArg SlotWord.d (unpack_packD _ w)) rfl rfl

theorem EncodeDecode.unpack (w : DWord) : EncodeDecode.Statement (.unpack w) :=
  fabric_case 0x0D (by decide) (.d w) _ rfl (congrArg SlotWord.d (unpack_packD _ w)) rfl rfl

theorem EncodeDecode.ctag (w : DWord) : EncodeDecode.Statement (.ctag w) :=
  fabric_case 0x0E (by decide) (.d w) _ rfl (congrArg SlotWord.d (unpack_packD _ w)) rfl rfl

theorem EncodeDecode.egress (w : DWord) : EncodeDecode.Statement (.egress w) :=
  fabric_case 0x0F (by decide) (.d w) _ rfl (congrArg SlotWord.d (unpack_packD _ w)) rfl rfl

theorem EncodeDecode.alloc (w : DWord) : EncodeDecode.Statement (.alloc w) :=
  fabric_case 0x10 (by decide) (.d w) _ rfl (congrArg SlotWord.d (unpack_packD _ w)) rfl rfl

theorem EncodeDecode.release (w : DWord) : EncodeDecode.Statement (.release w) :=
  fabric_case 0x11 (by decide) (.d w) _ rfl (congrArg SlotWord.d (unpack_packD _ w)) rfl rfl

theorem EncodeDecode.give (w : DWord) : EncodeDecode.Statement (.give w) :=
  fabric_case 0x12 (by decide) (.d w) _ rfl (congrArg SlotWord.d (unpack_packD _ w)) rfl rfl

theorem EncodeDecode.tld (w : DWord) : EncodeDecode.Statement (.tld w) :=
  fabric_case 0x13 (by decide) (.d w) _ rfl (congrArg SlotWord.d (unpack_packD _ w)) rfl rfl

theorem EncodeDecode.tst (w : DWord) : EncodeDecode.Statement (.tst w) :=
  fabric_case 0x14 (by decide) (.d w) _ rfl (congrArg SlotWord.d (unpack_packD _ w)) rfl rfl

theorem EncodeDecode.ticket (w : DWord) : EncodeDecode.Statement (.ticket w) :=
  fabric_case 0x15 (by decide) (.d w) _ rfl (congrArg SlotWord.d (unpack_packD _ w)) rfl rfl

theorem EncodeDecode.retn (w : DWord) : EncodeDecode.Statement (.retn w) :=
  fabric_case 0x16 (by decide) (.d w) _ rfl (congrArg SlotWord.d (unpack_packD _ w)) rfl rfl

theorem EncodeDecode.poolq (w : DWord) : EncodeDecode.Statement (.poolq w) :=
  fabric_case 0x17 (by decide) (.d w) _ rfl (congrArg SlotWord.d (unpack_packD _ w)) rfl rfl

theorem EncodeDecode.recall (w : DWord) : EncodeDecode.Statement (.recall w) :=
  fabric_case 0x18 (by decide) (.d w) _ rfl (congrArg SlotWord.d (unpack_packD _ w)) rfl rfl

theorem EncodeDecode.drop (w : DWord) : EncodeDecode.Statement (.drop w) :=
  fabric_case 0x19 (by decide) (.d w) _ rfl (congrArg SlotWord.d (unpack_packD _ w)) rfl rfl

theorem EncodeDecode.add (w : DWord) : EncodeDecode.Statement (.add w) :=
  fabric_case 0x20 (by decide) (.d w) _ rfl (congrArg SlotWord.d (unpack_packD _ w)) rfl rfl

theorem EncodeDecode.sub (w : DWord) : EncodeDecode.Statement (.sub w) :=
  fabric_case 0x21 (by decide) (.d w) _ rfl (congrArg SlotWord.d (unpack_packD _ w)) rfl rfl

theorem EncodeDecode.mul (w : DWord) : EncodeDecode.Statement (.mul w) :=
  fabric_case 0x22 (by decide) (.d w) _ rfl (congrArg SlotWord.d (unpack_packD _ w)) rfl rfl

theorem EncodeDecode.mulh (w : DWord) : EncodeDecode.Statement (.mulh w) :=
  fabric_case 0x23 (by decide) (.d w) _ rfl (congrArg SlotWord.d (unpack_packD _ w)) rfl rfl

theorem EncodeDecode.div (w : DWord) : EncodeDecode.Statement (.div w) :=
  fabric_case 0x24 (by decide) (.d w) _ rfl (congrArg SlotWord.d (unpack_packD _ w)) rfl rfl

theorem EncodeDecode.rem (w : DWord) : EncodeDecode.Statement (.rem w) :=
  fabric_case 0x25 (by decide) (.d w) _ rfl (congrArg SlotWord.d (unpack_packD _ w)) rfl rfl

theorem EncodeDecode.min (w : DWord) : EncodeDecode.Statement (.min w) :=
  fabric_case 0x26 (by decide) (.d w) _ rfl (congrArg SlotWord.d (unpack_packD _ w)) rfl rfl

theorem EncodeDecode.max (w : DWord) : EncodeDecode.Statement (.max w) :=
  fabric_case 0x27 (by decide) (.d w) _ rfl (congrArg SlotWord.d (unpack_packD _ w)) rfl rfl

theorem EncodeDecode.abs (w : DWord) : EncodeDecode.Statement (.abs w) :=
  fabric_case 0x28 (by decide) (.d w) _ rfl (congrArg SlotWord.d (unpack_packD _ w)) rfl rfl

theorem EncodeDecode.neg (w : DWord) : EncodeDecode.Statement (.neg w) :=
  fabric_case 0x29 (by decide) (.d w) _ rfl (congrArg SlotWord.d (unpack_packD _ w)) rfl rfl

theorem EncodeDecode.and (w : DWord) : EncodeDecode.Statement (.and w) :=
  fabric_case 0x2A (by decide) (.d w) _ rfl (congrArg SlotWord.d (unpack_packD _ w)) rfl rfl

theorem EncodeDecode.or (w : DWord) : EncodeDecode.Statement (.or w) :=
  fabric_case 0x2B (by decide) (.d w) _ rfl (congrArg SlotWord.d (unpack_packD _ w)) rfl rfl

theorem EncodeDecode.xor (w : DWord) : EncodeDecode.Statement (.xor w) :=
  fabric_case 0x2C (by decide) (.d w) _ rfl (congrArg SlotWord.d (unpack_packD _ w)) rfl rfl

theorem EncodeDecode.andn (w : DWord) : EncodeDecode.Statement (.andn w) :=
  fabric_case 0x2D (by decide) (.d w) _ rfl (congrArg SlotWord.d (unpack_packD _ w)) rfl rfl

theorem EncodeDecode.not (w : DWord) : EncodeDecode.Statement (.not w) :=
  fabric_case 0x2E (by decide) (.d w) _ rfl (congrArg SlotWord.d (unpack_packD _ w)) rfl rfl

theorem EncodeDecode.shl (w : DWord) : EncodeDecode.Statement (.shl w) :=
  fabric_case 0x2F (by decide) (.d w) _ rfl (congrArg SlotWord.d (unpack_packD _ w)) rfl rfl

theorem EncodeDecode.shr (w : DWord) : EncodeDecode.Statement (.shr w) :=
  fabric_case 0x30 (by decide) (.d w) _ rfl (congrArg SlotWord.d (unpack_packD _ w)) rfl rfl

theorem EncodeDecode.sar (w : DWord) : EncodeDecode.Statement (.sar w) :=
  fabric_case 0x31 (by decide) (.d w) _ rfl (congrArg SlotWord.d (unpack_packD _ w)) rfl rfl

theorem EncodeDecode.rol (w : DWord) : EncodeDecode.Statement (.rol w) :=
  fabric_case 0x32 (by decide) (.d w) _ rfl (congrArg SlotWord.d (unpack_packD _ w)) rfl rfl

theorem EncodeDecode.clz (w : DWord) : EncodeDecode.Statement (.clz w) :=
  fabric_case 0x33 (by decide) (.d w) _ rfl (congrArg SlotWord.d (unpack_packD _ w)) rfl rfl

theorem EncodeDecode.popc (w : DWord) : EncodeDecode.Statement (.popc w) :=
  fabric_case 0x34 (by decide) (.d w) _ rfl (congrArg SlotWord.d (unpack_packD _ w)) rfl rfl

theorem EncodeDecode.cmp (w : DWord) : EncodeDecode.Statement (.cmp w) :=
  fabric_case 0x35 (by decide) (.d w) _ rfl (congrArg SlotWord.d (unpack_packD _ w)) rfl rfl

theorem EncodeDecode.adds (w : DWord) : EncodeDecode.Statement (.adds w) :=
  fabric_case 0x36 (by decide) (.d w) _ rfl (congrArg SlotWord.d (unpack_packD _ w)) rfl rfl

theorem EncodeDecode.subs (w : DWord) : EncodeDecode.Statement (.subs w) :=
  fabric_case 0x37 (by decide) (.d w) _ rfl (congrArg SlotWord.d (unpack_packD _ w)) rfl rfl

theorem EncodeDecode.madk (w : DWord) : EncodeDecode.Statement (.madk w) :=
  fabric_case 0x38 (by decide) (.d w) _ rfl (congrArg SlotWord.d (unpack_packD _ w)) rfl rfl

theorem EncodeDecode.agen (w : DWord) : EncodeDecode.Statement (.agen w) :=
  fabric_case 0x39 (by decide) (.d w) _ rfl (congrArg SlotWord.d (unpack_packD _ w)) rfl rfl

theorem EncodeDecode.bfx (w : DWord) : EncodeDecode.Statement (.bfx w) :=
  fabric_case 0x3A (by decide) (.d w) _ rfl (congrArg SlotWord.d (unpack_packD _ w)) rfl rfl

theorem EncodeDecode.mask (w : DWord) : EncodeDecode.Statement (.mask w) :=
  fabric_case 0x3B (by decide) (.d w) _ rfl (congrArg SlotWord.d (unpack_packD _ w)) rfl rfl

theorem EncodeDecode.fadd (w : DWord) : EncodeDecode.Statement (.fadd w) :=
  fabric_case 0x40 (by decide) (.d w) _ rfl (congrArg SlotWord.d (unpack_packD _ w)) rfl rfl

theorem EncodeDecode.fsub (w : DWord) : EncodeDecode.Statement (.fsub w) :=
  fabric_case 0x41 (by decide) (.d w) _ rfl (congrArg SlotWord.d (unpack_packD _ w)) rfl rfl

theorem EncodeDecode.fmul (w : DWord) : EncodeDecode.Statement (.fmul w) :=
  fabric_case 0x42 (by decide) (.d w) _ rfl (congrArg SlotWord.d (unpack_packD _ w)) rfl rfl

theorem EncodeDecode.fmak (w : DWord) : EncodeDecode.Statement (.fmak w) :=
  fabric_case 0x43 (by decide) (.d w) _ rfl (congrArg SlotWord.d (unpack_packD _ w)) rfl rfl

theorem EncodeDecode.fnmsk (w : DWord) : EncodeDecode.Statement (.fnmsk w) :=
  fabric_case 0x44 (by decide) (.d w) _ rfl (congrArg SlotWord.d (unpack_packD _ w)) rfl rfl

theorem EncodeDecode.fdiv (w : DWord) : EncodeDecode.Statement (.fdiv w) :=
  fabric_case 0x45 (by decide) (.d w) _ rfl (congrArg SlotWord.d (unpack_packD _ w)) rfl rfl

theorem EncodeDecode.fsqrt (w : DWord) : EncodeDecode.Statement (.fsqrt w) :=
  fabric_case 0x46 (by decide) (.d w) _ rfl (congrArg SlotWord.d (unpack_packD _ w)) rfl rfl

theorem EncodeDecode.fmin (w : DWord) : EncodeDecode.Statement (.fmin w) :=
  fabric_case 0x47 (by decide) (.d w) _ rfl (congrArg SlotWord.d (unpack_packD _ w)) rfl rfl

theorem EncodeDecode.fmax (w : DWord) : EncodeDecode.Statement (.fmax w) :=
  fabric_case 0x48 (by decide) (.d w) _ rfl (congrArg SlotWord.d (unpack_packD _ w)) rfl rfl

theorem EncodeDecode.fabs (w : DWord) : EncodeDecode.Statement (.fabs w) :=
  fabric_case 0x49 (by decide) (.d w) _ rfl (congrArg SlotWord.d (unpack_packD _ w)) rfl rfl

theorem EncodeDecode.fneg (w : DWord) : EncodeDecode.Statement (.fneg w) :=
  fabric_case 0x4A (by decide) (.d w) _ rfl (congrArg SlotWord.d (unpack_packD _ w)) rfl rfl

theorem EncodeDecode.fcmp (w : DWord) : EncodeDecode.Statement (.fcmp w) :=
  fabric_case 0x4B (by decide) (.d w) _ rfl (congrArg SlotWord.d (unpack_packD _ w)) rfl rfl

theorem EncodeDecode.fclass (w : DWord) : EncodeDecode.Statement (.fclass w) :=
  fabric_case 0x4C (by decide) (.d w) _ rfl (congrArg SlotWord.d (unpack_packD _ w)) rfl rfl

theorem EncodeDecode.fscale (w : DWord) : EncodeDecode.Statement (.fscale w) :=
  fabric_case 0x4D (by decide) (.d w) _ rfl (congrArg SlotWord.d (unpack_packD _ w)) rfl rfl

theorem EncodeDecode.fcpys (w : DWord) : EncodeDecode.Statement (.fcpys w) :=
  fabric_case 0x4E (by decide) (.d w) _ rfl (congrArg SlotWord.d (unpack_packD _ w)) rfl rfl

theorem EncodeDecode.fround (w : DWord) : EncodeDecode.Statement (.fround w) :=
  fabric_case 0x4F (by decide) (.d w) _ rfl (congrArg SlotWord.d (unpack_packD _ w)) rfl rfl

theorem EncodeDecode.frsqe (w : DWord) : EncodeDecode.Statement (.frsqe w) :=
  fabric_case 0x60 (by decide) (.d w) _ rfl (congrArg SlotWord.d (unpack_packD _ w)) rfl rfl

theorem EncodeDecode.frcpe (w : DWord) : EncodeDecode.Statement (.frcpe w) :=
  fabric_case 0x61 (by decide) (.d w) _ rfl (congrArg SlotWord.d (unpack_packD _ w)) rfl rfl

theorem EncodeDecode.fexp2 (w : DWord) : EncodeDecode.Statement (.fexp2 w) :=
  fabric_case 0x62 (by decide) (.d w) _ rfl (congrArg SlotWord.d (unpack_packD _ w)) rfl rfl

theorem EncodeDecode.flog2 (w : DWord) : EncodeDecode.Statement (.flog2 w) :=
  fabric_case 0x63 (by decide) (.d w) _ rfl (congrArg SlotWord.d (unpack_packD _ w)) rfl rfl

theorem EncodeDecode.fsin (w : DWord) : EncodeDecode.Statement (.fsin w) :=
  fabric_case 0x64 (by decide) (.d w) _ rfl (congrArg SlotWord.d (unpack_packD _ w)) rfl rfl

theorem EncodeDecode.fcos (w : DWord) : EncodeDecode.Statement (.fcos w) :=
  fabric_case 0x65 (by decide) (.d w) _ rfl (congrArg SlotWord.d (unpack_packD _ w)) rfl rfl

theorem EncodeDecode.ftanh (w : DWord) : EncodeDecode.Statement (.ftanh w) :=
  fabric_case 0x66 (by decide) (.d w) _ rfl (congrArg SlotWord.d (unpack_packD _ w)) rfl rfl

theorem EncodeDecode.fsigm (w : DWord) : EncodeDecode.Statement (.fsigm w) :=
  fabric_case 0x67 (by decide) (.d w) _ rfl (congrArg SlotWord.d (unpack_packD _ w)) rfl rfl

theorem EncodeDecode.cvtl (w : DWord) : EncodeDecode.Statement (.cvtl w) :=
  fabric_case 0x68 (by decide) (.d w) _ rfl (congrArg SlotWord.d (unpack_packD _ w)) rfl rfl

theorem EncodeDecode.narrow (w : DWord) : EncodeDecode.Statement (.narrow w) :=
  fabric_case 0x69 (by decide) (.d w) _ rfl (congrArg SlotWord.d (unpack_packD _ w)) rfl rfl

theorem EncodeDecode.widen (w : DWord) : EncodeDecode.Statement (.widen w) :=
  fabric_case 0x6A (by decide) (.d w) _ rfl (congrArg SlotWord.d (unpack_packD _ w)) rfl rfl

theorem EncodeDecode.plane (w : DWord) : EncodeDecode.Statement (.plane w) :=
  fabric_case 0x6B (by decide) (.d w) _ rfl (congrArg SlotWord.d (unpack_packD _ w)) rfl rfl

theorem EncodeDecode.bits (w : DWord) : EncodeDecode.Statement (.bits w) :=
  fabric_case 0x6C (by decide) (.d w) _ rfl (congrArg SlotWord.d (unpack_packD _ w)) rfl rfl

theorem EncodeDecode.rsum (w : DWord) : EncodeDecode.Statement (.rsum w) :=
  fabric_case 0x70 (by decide) (.d w) _ rfl (congrArg SlotWord.d (unpack_packD _ w)) rfl rfl

theorem EncodeDecode.rmax (w : DWord) : EncodeDecode.Statement (.rmax w) :=
  fabric_case 0x71 (by decide) (.d w) _ rfl (congrArg SlotWord.d (unpack_packD _ w)) rfl rfl

theorem EncodeDecode.rmin (w : DWord) : EncodeDecode.Statement (.rmin w) :=
  fabric_case 0x72 (by decide) (.d w) _ rfl (congrArg SlotWord.d (unpack_packD _ w)) rfl rfl

theorem EncodeDecode.rargmx (w : DWord) : EncodeDecode.Statement (.rargmx w) :=
  fabric_case 0x73 (by decide) (.d w) _ rfl (congrArg SlotWord.d (unpack_packD _ w)) rfl rfl

theorem EncodeDecode.rscan (w : DWord) : EncodeDecode.Statement (.rscan w) :=
  fabric_case 0x74 (by decide) (.d w) _ rfl (congrArg SlotWord.d (unpack_packD _ w)) rfl rfl

theorem EncodeDecode.shuf (w : DWord) : EncodeDecode.Statement (.shuf w) :=
  fabric_case 0x75 (by decide) (.d w) _ rfl (congrArg SlotWord.d (unpack_packD _ w)) rfl rfl

theorem EncodeDecode.bcast (w : DWord) : EncodeDecode.Statement (.bcast w) :=
  fabric_case 0x76 (by decide) (.d w) _ rfl (congrArg SlotWord.d (unpack_packD _ w)) rfl rfl

theorem EncodeDecode.rotl (w : DWord) : EncodeDecode.Statement (.rotl w) :=
  fabric_case 0x77 (by decide) (.d w) _ rfl (congrArg SlotWord.d (unpack_packD _ w)) rfl rfl

theorem EncodeDecode.compact (w : DWord) : EncodeDecode.Statement (.compact w) :=
  fabric_case 0x78 (by decide) (.d w) _ rfl (congrArg SlotWord.d (unpack_packD _ w)) rfl rfl

theorem EncodeDecode.expand (w : DWord) : EncodeDecode.Statement (.expand w) :=
  fabric_case 0x79 (by decide) (.d w) _ rfl (congrArg SlotWord.d (unpack_packD _ w)) rfl rfl

theorem EncodeDecode.rpop (w : DWord) : EncodeDecode.Statement (.rpop w) :=
  fabric_case 0x7A (by decide) (.d w) _ rfl (congrArg SlotWord.d (unpack_packD _ w)) rfl rfl

theorem EncodeDecode.rtop2 (w : DWord) : EncodeDecode.Statement (.rtop2 w) :=
  fabric_case 0x7B (by decide) (.d w) _ rfl (congrArg SlotWord.d (unpack_packD _ w)) rfl rfl

theorem EncodeDecode.ld (w : MWord) : EncodeDecode.Statement (.ld w) :=
  fabric_case 0x80 (by decide) (.m w) _ rfl (congrArg SlotWord.m (unpack_packM _ w)) rfl rfl

theorem EncodeDecode.st (w : MWord) : EncodeDecode.Statement (.st w) :=
  fabric_case 0x81 (by decide) (.m w) _ rfl (congrArg SlotWord.m (unpack_packM _ w)) rfl rfl

theorem EncodeDecode.atom (w : MWord) : EncodeDecode.Statement (.atom w) :=
  fabric_case 0x82 (by decide) (.m w) _ rfl (congrArg SlotWord.m (unpack_packM _ w)) rfl rfl

theorem EncodeDecode.cas (w : MWord) : EncodeDecode.Statement (.cas w) :=
  fabric_case 0x83 (by decide) (.m w) _ rfl (congrArg SlotWord.m (unpack_packM _ w)) rfl rfl

theorem EncodeDecode.reclaim (w : MWord) : EncodeDecode.Statement (.reclaim w) :=
  fabric_case 0x84 (by decide) (.m w) _ rfl (congrArg SlotWord.m (unpack_packM _ w)) rfl rfl

theorem EncodeDecode.fence (w : MWord) : EncodeDecode.Statement (.fence w) :=
  fabric_case 0x85 (by decide) (.m w) _ rfl (congrArg SlotWord.m (unpack_packM _ w)) rfl rfl

theorem EncodeDecode.vwait (w : MWord) : EncodeDecode.Statement (.vwait w) :=
  fabric_case 0x86 (by decide) (.m w) _ rfl (congrArg SlotWord.m (unpack_packM _ w)) rfl rfl

theorem EncodeDecode.ldb (w : MWord) : EncodeDecode.Statement (.ldb w) :=
  fabric_case 0x87 (by decide) (.m w) _ rfl (congrArg SlotWord.m (unpack_packM _ w)) rfl rfl

theorem EncodeDecode.stb (w : MWord) : EncodeDecode.Statement (.stb w) :=
  fabric_case 0x88 (by decide) (.m w) _ rfl (congrArg SlotWord.m (unpack_packM _ w)) rfl rfl

theorem EncodeDecode.copy (w : EWord) : EncodeDecode.Statement (.copy w) :=
  fabric_case 0x90 (by decide) (.e w) _ rfl (congrArg SlotWord.e (unpack_packE _ w)) rfl rfl

theorem EncodeDecode.arm (w : EWord) : EncodeDecode.Statement (.arm w) :=
  fabric_case 0x91 (by decide) (.e w) _ rfl (congrArg SlotWord.e (unpack_packE _ w)) rfl rfl

theorem EncodeDecode.disarm (w : EWord) : EncodeDecode.Statement (.disarm w) :=
  fabric_case 0x92 (by decide) (.e w) _ rfl (congrArg SlotWord.e (unpack_packE _ w)) rfl rfl

theorem EncodeDecode.gather (w : EWord) : EncodeDecode.Statement (.gather w) :=
  fabric_case 0x93 (by decide) (.e w) _ rfl (congrArg SlotWord.e (unpack_packE _ w)) rfl rfl

theorem EncodeDecode.scatter (w : EWord) : EncodeDecode.Statement (.scatter w) :=
  fabric_case 0x94 (by decide) (.e w) _ rfl (congrArg SlotWord.e (unpack_packE _ w)) rfl rfl

theorem EncodeDecode.cpstat (w : EWord) : EncodeDecode.Statement (.cpstat w) :=
  fabric_case 0x95 (by decide) (.e w) _ rfl (congrArg SlotWord.e (unpack_packE _ w)) rfl rfl

theorem EncodeDecode.cpstop (w : EWord) : EncodeDecode.Statement (.cpstop w) :=
  fabric_case 0x96 (by decide) (.e w) _ rfl (congrArg SlotWord.e (unpack_packE _ w)) rfl rfl

theorem EncodeDecode.mma (w : EWord) : EncodeDecode.Statement (.mma w) :=
  fabric_case 0xA0 (by decide) (.e w) _ rfl (congrArg SlotWord.e (unpack_packE _ w)) rfl rfl

theorem EncodeDecode.mmac (w : EWord) : EncodeDecode.Statement (.mmac w) :=
  fabric_case 0xA1 (by decide) (.e w) _ rfl (congrArg SlotWord.e (unpack_packE _ w)) rfl rfl

theorem EncodeDecode.accz (w : EWord) : EncodeDecode.Statement (.accz w) :=
  fabric_case 0xA2 (by decide) (.e w) _ rfl (congrArg SlotWord.e (unpack_packE _ w)) rfl rfl

theorem EncodeDecode.accrd (w : EWord) : EncodeDecode.Statement (.accrd w) :=
  fabric_case 0xA3 (by decide) (.e w) _ rfl (congrArg SlotWord.e (unpack_packE _ w)) rfl rfl

theorem EncodeDecode.accwr (w : EWord) : EncodeDecode.Statement (.accwr w) :=
  fabric_case 0xA4 (by decide) (.e w) _ rfl (congrArg SlotWord.e (unpack_packE _ w)) rfl rfl

theorem EncodeDecode.mmstat (w : EWord) : EncodeDecode.Statement (.mmstat w) :=
  fabric_case 0xA5 (by decide) (.e w) _ rfl (congrArg SlotWord.e (unpack_packE _ w)) rfl rfl

theorem EncodeDecode.cvt (w : EWord) : EncodeDecode.Statement (.cvt w) :=
  fabric_case 0xB0 (by decide) (.e w) _ rfl (congrArg SlotWord.e (unpack_packE _ w)) rfl rfl

theorem EncodeDecode.reblk (w : EWord) : EncodeDecode.Statement (.reblk w) :=
  fabric_case 0xB1 (by decide) (.e w) _ rfl (congrArg SlotWord.e (unpack_packE _ w)) rfl rfl

theorem EncodeDecode.qplane (w : EWord) : EncodeDecode.Statement (.qplane w) :=
  fabric_case 0xB2 (by decide) (.e w) _ rfl (congrArg SlotWord.e (unpack_packE _ w)) rfl rfl

theorem EncodeDecode.qunpl (w : EWord) : EncodeDecode.Statement (.qunpl w) :=
  fabric_case 0xB3 (by decide) (.e w) _ rfl (congrArg SlotWord.e (unpack_packE _ w)) rfl rfl

theorem EncodeDecode.scalemx (w : EWord) : EncodeDecode.Statement (.scalemx w) :=
  fabric_case 0xB4 (by decide) (.e w) _ rfl (congrArg SlotWord.e (unpack_packE _ w)) rfl rfl

theorem EncodeDecode.aucgo (w : EWord) : EncodeDecode.Statement (.aucgo w) :=
  fabric_case 0xB8 (by decide) (.e w) _ rfl (congrArg SlotWord.e (unpack_packE _ w)) rfl rfl

theorem EncodeDecode.aucstep (w : EWord) : EncodeDecode.Statement (.aucstep w) :=
  fabric_case 0xB9 (by decide) (.e w) _ rfl (congrArg SlotWord.e (unpack_packE _ w)) rfl rfl

theorem EncodeDecode.aucset (w : EWord) : EncodeDecode.Statement (.aucset w) :=
  fabric_case 0xBA (by decide) (.e w) _ rfl (congrArg SlotWord.e (unpack_packE _ w)) rfl rfl

theorem EncodeDecode.aucget (w : EWord) : EncodeDecode.Statement (.aucget w) :=
  fabric_case 0xBB (by decide) (.e w) _ rfl (congrArg SlotWord.e (unpack_packE _ w)) rfl rfl

theorem EncodeDecode.aucstop (w : EWord) : EncodeDecode.Statement (.aucstop w) :=
  fabric_case 0xBC (by decide) (.e w) _ rfl (congrArg SlotWord.e (unpack_packE _ w)) rfl rfl

theorem EncodeDecode.trap (w : DWord) : EncodeDecode.Statement (.trap w) :=
  fabric_case 0xC0 (by decide) (.d w) _ rfl (congrArg SlotWord.d (unpack_packD _ w)) rfl rfl

theorem EncodeDecode.probe (w : DWord) : EncodeDecode.Statement (.probe w) :=
  fabric_case 0xC1 (by decide) (.d w) _ rfl (congrArg SlotWord.d (unpack_packD _ w)) rfl rfl

theorem EncodeDecode.statq (w : DWord) : EncodeDecode.Statement (.statq w) :=
  fabric_case 0xC2 (by decide) (.d w) _ rfl (congrArg SlotWord.d (unpack_packD _ w)) rfl rfl

theorem EncodeDecode.census (w : DWord) : EncodeDecode.Statement (.census w) :=
  fabric_case 0xC3 (by decide) (.d w) _ rfl (congrArg SlotWord.d (unpack_packD _ w)) rfl rfl

theorem EncodeDecode.bellin (w : DWord) : EncodeDecode.Statement (.bellin w) :=
  fabric_case 0xC4 (by decide) (.d w) _ rfl (congrArg SlotWord.d (unpack_packD _ w)) rfl rfl

theorem EncodeDecode.ctxnew (w : DWord) : EncodeDecode.Statement (.ctxnew w) :=
  fabric_case 0xE0 (by decide) (.d w) _ rfl (congrArg SlotWord.d (unpack_packD _ w)) rfl rfl

theorem EncodeDecode.ctxfree (w : DWord) : EncodeDecode.Statement (.ctxfree w) :=
  fabric_case 0xE1 (by decide) (.d w) _ rfl (congrArg SlotWord.d (unpack_packD _ w)) rfl rfl

theorem EncodeDecode.inject (w : DWord) : EncodeDecode.Statement (.inject w) :=
  fabric_case 0xE2 (by decide) (.d w) _ rfl (congrArg SlotWord.d (unpack_packD _ w)) rfl rfl

theorem EncodeDecode.scrub (w : DWord) : EncodeDecode.Statement (.scrub w) :=
  fabric_case 0xE3 (by decide) (.d w) _ rfl (congrArg SlotWord.d (unpack_packD _ w)) rfl rfl

theorem EncodeDecode.placeh (w : DWord) : EncodeDecode.Statement (.placeh w) :=
  fabric_case 0xE4 (by decide) (.d w) _ rfl (congrArg SlotWord.d (unpack_packD _ w)) rfl rfl

theorem EncodeDecode.meter (w : DWord) : EncodeDecode.Statement (.meter w) :=
  fabric_case 0xE5 (by decide) (.d w) _ rfl (congrArg SlotWord.d (unpack_packD _ w)) rfl rfl

theorem EncodeDecode.keyld (w : DWord) : EncodeDecode.Statement (.keyld w) :=
  fabric_case 0xE6 (by decide) (.d w) _ rfl (congrArg SlotWord.d (unpack_packD _ w)) rfl rfl

theorem EncodeDecode.bellout (w : DWord) : EncodeDecode.Statement (.bellout w) :=
  fabric_case 0xE7 (by decide) (.d w) _ rfl (congrArg SlotWord.d (unpack_packD _ w)) rfl rfl

/-! ## Control-core rows -/

theorem shape_dab (k : BitVec 7) (base : BitVec 32) (hk : base = k.setWidth 32 <<< 25) (d : BitVec 5) (a : BitVec 5) (b : BitVec 5) (w : BitVec 32)
    (hw : w = (base ||| (d.setWidth 32 <<< 20) ||| (a.setWidth 32 <<< 15) ||| (b.setWidth 32 <<< 10))) :
    w.extractLsb' 25 7 = k ∧ w.extractLsb' 20 5 = d ∧ w.extractLsb' 15 5 = a ∧ w.extractLsb' 10 5 = b ∧ w &&& 0x00003FF#32 = 0x0000000#32 := by
  subst hw hk
  refine ⟨?_, ?_, ?_, ?_, ?_⟩ <;> (ext i hi; interval_cases i <;> simp)

theorem shape_da (k : BitVec 7) (base : BitVec 32) (hk : base = k.setWidth 32 <<< 25) (d : BitVec 5) (a : BitVec 5) (w : BitVec 32)
    (hw : w = (base ||| (d.setWidth 32 <<< 20) ||| (a.setWidth 32 <<< 15))) :
    w.extractLsb' 25 7 = k ∧ w.extractLsb' 20 5 = d ∧ w.extractLsb' 15 5 = a ∧ w &&& 0x0007FFF#32 = 0x0000000#32 := by
  subst hw hk
  refine ⟨?_, ?_, ?_, ?_⟩ <;> (ext i hi; interval_cases i <;> simp)

theorem shape_dai (k : BitVec 7) (base : BitVec 32) (hk : base = k.setWidth 32 <<< 25) (d : BitVec 5) (a : BitVec 5) (i : BitVec 15) (w : BitVec 32)
    (hw : w = (base ||| (d.setWidth 32 <<< 20) ||| (a.setWidth 32 <<< 15) ||| i.setWidth 32)) :
    w.extractLsb' 25 7 = k ∧ w.extractLsb' 20 5 = d ∧ w.extractLsb' 15 5 = a ∧ w.extractLsb' 0 15 = i := by
  subst hw hk
  refine ⟨?_, ?_, ?_, ?_⟩ <;> (ext i hi; interval_cases i <;> simp)

theorem shape_dai_1 (k : BitVec 7) (base : BitVec 32) (hk : base = k.setWidth 32 <<< 25) (d : BitVec 5) (a : BitVec 5) (i : BitVec 6) (w : BitVec 32)
    (hw : w = (base ||| (d.setWidth 32 <<< 20) ||| (a.setWidth 32 <<< 15) ||| i.setWidth 32)) :
    w.extractLsb' 25 7 = k ∧ w.extractLsb' 20 5 = d ∧ w.extractLsb' 15 5 = a ∧ w.extractLsb' 0 6 = i ∧ w &&& 0x0007FC0#32 = 0x0000000#32 := by
  subst hw hk
  refine ⟨?_, ?_, ?_, ?_, ?_⟩ <;> (ext i hi; interval_cases i <;> simp)

theorem shape_di (k : BitVec 7) (base : BitVec 32) (hk : base = k.setWidth 32 <<< 25) (d : BitVec 5) (i : BitVec 20) (w : BitVec 32)
    (hw : w = (base ||| (d.setWidth 32 <<< 20) ||| i.setWidth 32)) :
    w.extractLsb' 25 7 = k ∧ w.extractLsb' 20 5 = d ∧ w.extractLsb' 0 20 = i := by
  subst hw hk
  refine ⟨?_, ?_, ?_⟩ <;> (ext i hi; interval_cases i <;> simp)

theorem shape_davmszq (k : BitVec 7) (base : BitVec 32) (hk : base = k.setWidth 32 <<< 25) (d : BitVec 5) (a : BitVec 5) (v : BitVec 5) (m : BitVec 2) (s : BitVec 3) (z : BitVec 2) (q : BitVec 1) (w : BitVec 32)
    (hw : w = (base ||| (d.setWidth 32 <<< 20) ||| (a.setWidth 32 <<< 15) ||| (v.setWidth 32 <<< 10) ||| (m.setWidth 32 <<< 8) ||| (s.setWidth 32 <<< 5) ||| (z.setWidth 32 <<< 3) ||| (q.setWidth 32 <<< 2))) :
    w.extractLsb' 25 7 = k ∧ w.extractLsb' 20 5 = d ∧ w.extractLsb' 15 5 = a ∧ w.extractLsb' 10 5 = v ∧ w.extractLsb' 8 2 = m ∧ w.extractLsb' 5 3 = s ∧ w.extractLsb' 3 2 = z ∧ w.extractLsb' 2 1 = q ∧ w &&& 0x0000003#32 = 0x0000000#32 := by
  subst hw hk
  refine ⟨?_, ?_, ?_, ?_, ?_, ?_, ?_, ?_, ?_⟩ <;> (ext i hi; interval_cases i <;> simp)

theorem shape_s (k : BitVec 7) (base : BitVec 32) (hk : base = k.setWidth 32 <<< 25) (s : BitVec 3) (w : BitVec 32)
    (hw : w = (base ||| s.setWidth 32)) :
    w.extractLsb' 25 7 = k ∧ w.extractLsb' 0 3 = s ∧ w &&& 0x1FFFFF8#32 = 0x0000000#32 := by
  subst hw hk
  refine ⟨?_, ?_, ?_⟩ <;> (ext i hi; interval_cases i <;> simp)

theorem shape_abf (k : BitVec 7) (base : BitVec 32) (hk : base = k.setWidth 32 <<< 25) (a : BitVec 5) (b : BitVec 5) (f : BitVec 15) (w : BitVec 32)
    (hw : w = (base ||| (a.setWidth 32 <<< 20) ||| (b.setWidth 32 <<< 15) ||| f.setWidth 32)) :
    w.extractLsb' 25 7 = k ∧ w.extractLsb' 20 5 = a ∧ w.extractLsb' 15 5 = b ∧ w.extractLsb' 0 15 = f := by
  subst hw hk
  refine ⟨?_, ?_, ?_, ?_⟩ <;> (ext i hi; interval_cases i <;> simp)

theorem shape_df (k : BitVec 7) (base : BitVec 32) (hk : base = k.setWidth 32 <<< 25) (d : BitVec 5) (f : BitVec 20) (w : BitVec 32)
    (hw : w = (base ||| (d.setWidth 32 <<< 20) ||| f.setWidth 32)) :
    w.extractLsb' 25 7 = k ∧ w.extractLsb' 20 5 = d ∧ w.extractLsb' 0 20 = f := by
  subst hw hk
  refine ⟨?_, ?_, ?_⟩ <;> (ext i hi; interval_cases i <;> simp)

theorem shape_a (k : BitVec 7) (base : BitVec 32) (hk : base = k.setWidth 32 <<< 25) (a : BitVec 5) (w : BitVec 32)
    (hw : w = (base ||| (a.setWidth 32 <<< 15))) :
    w.extractLsb' 25 7 = k ∧ w.extractLsb' 15 5 = a ∧ w &&& 0x1F07FFF#32 = 0x0000000#32 := by
  subst hw hk
  refine ⟨?_, ?_, ?_⟩ <;> (ext i hi; interval_cases i <;> simp)

theorem shape_d (k : BitVec 7) (base : BitVec 32) (hk : base = k.setWidth 32 <<< 25) (d : BitVec 5) (w : BitVec 32)
    (hw : w = (base ||| (d.setWidth 32 <<< 20))) :
    w.extractLsb' 25 7 = k ∧ w.extractLsb' 20 5 = d ∧ w &&& 0x00FFFFF#32 = 0x0000000#32 := by
  subst hw hk
  refine ⟨?_, ?_, ?_⟩ <;> (ext i hi; interval_cases i <;> simp)

theorem shape_daqrsf (k : BitVec 7) (base : BitVec 32) (hk : base = k.setWidth 32 <<< 25) (d : BitVec 5) (a : BitVec 5) (q : BitVec 1) (r : BitVec 1) (s : BitVec 3) (f : BitVec 1) (w : BitVec 32)
    (hw : w = (base ||| (d.setWidth 32 <<< 20) ||| (a.setWidth 32 <<< 15) ||| (q.setWidth 32 <<< 9) ||| (r.setWidth 32 <<< 8) ||| (s.setWidth 32 <<< 5) ||| (f.setWidth 32 <<< 4))) :
    w.extractLsb' 25 7 = k ∧ w.extractLsb' 20 5 = d ∧ w.extractLsb' 15 5 = a ∧ w.extractLsb' 9 1 = q ∧ w.extractLsb' 8 1 = r ∧ w.extractLsb' 5 3 = s ∧ w.extractLsb' 4 1 = f ∧ w &&& 0x0007C0F#32 = 0x0000000#32 := by
  subst hw hk
  refine ⟨?_, ?_, ?_, ?_, ?_, ?_, ?_, ?_⟩ <;> (ext i hi; interval_cases i <;> simp)

theorem shape_dabqrsf (k : BitVec 7) (base : BitVec 32) (hk : base = k.setWidth 32 <<< 25) (d : BitVec 5) (a : BitVec 5) (b : BitVec 5) (q : BitVec 1) (r : BitVec 1) (s : BitVec 3) (f : BitVec 1) (w : BitVec 32)
    (hw : w = (base ||| (d.setWidth 32 <<< 20) ||| (a.setWidth 32 <<< 15) ||| (b.setWidth 32 <<< 10) ||| (q.setWidth 32 <<< 9) ||| (r.setWidth 32 <<< 8) ||| (s.setWidth 32 <<< 5) ||| (f.setWidth 32 <<< 4))) :
    w.extractLsb' 25 7 = k ∧ w.extractLsb' 20 5 = d ∧ w.extractLsb' 15 5 = a ∧ w.extractLsb' 10 5 = b ∧ w.extractLsb' 9 1 = q ∧ w.extractLsb' 8 1 = r ∧ w.extractLsb' 5 3 = s ∧ w.extractLsb' 4 1 = f ∧ w &&& 0x000000F#32 = 0x0000000#32 := by
  subst hw hk
  refine ⟨?_, ?_, ?_, ?_, ?_, ?_, ?_, ?_, ?_⟩ <;> (ext i hi; interval_cases i <;> simp)

theorem shape_daqrs (k : BitVec 7) (base : BitVec 32) (hk : base = k.setWidth 32 <<< 25) (d : BitVec 5) (a : BitVec 5) (q : BitVec 1) (r : BitVec 1) (s : BitVec 3) (w : BitVec 32)
    (hw : w = (base ||| (d.setWidth 32 <<< 20) ||| (a.setWidth 32 <<< 15) ||| (q.setWidth 32 <<< 9) ||| (r.setWidth 32 <<< 8) ||| (s.setWidth 32 <<< 5))) :
    w.extractLsb' 25 7 = k ∧ w.extractLsb' 20 5 = d ∧ w.extractLsb' 15 5 = a ∧ w.extractLsb' 9 1 = q ∧ w.extractLsb' 8 1 = r ∧ w.extractLsb' 5 3 = s ∧ w &&& 0x0007C1F#32 = 0x0000000#32 := by
  subst hw hk
  refine ⟨?_, ?_, ?_, ?_, ?_, ?_, ?_⟩ <;> (ext i hi; interval_cases i <;> simp)

theorem shape_daqs (k : BitVec 7) (base : BitVec 32) (hk : base = k.setWidth 32 <<< 25) (d : BitVec 5) (a : BitVec 5) (q : BitVec 1) (s : BitVec 3) (w : BitVec 32)
    (hw : w = (base ||| (d.setWidth 32 <<< 20) ||| (a.setWidth 32 <<< 15) ||| (q.setWidth 32 <<< 9) ||| (s.setWidth 32 <<< 5))) :
    w.extractLsb' 25 7 = k ∧ w.extractLsb' 20 5 = d ∧ w.extractLsb' 15 5 = a ∧ w.extractLsb' 9 1 = q ∧ w.extractLsb' 5 3 = s ∧ w &&& 0x0007D1F#32 = 0x0000000#32 := by
  subst hw hk
  refine ⟨?_, ?_, ?_, ?_, ?_, ?_⟩ <;> (ext i hi; interval_cases i <;> simp)

theorem shape_dc (k : BitVec 7) (base : BitVec 32) (hk : base = k.setWidth 32 <<< 25) (d : BitVec 5) (c : BitVec 15) (w : BitVec 32)
    (hw : w = (base ||| (d.setWidth 32 <<< 20) ||| c.setWidth 32)) :
    w.extractLsb' 25 7 = k ∧ w.extractLsb' 20 5 = d ∧ w.extractLsb' 0 15 = c ∧ w &&& 0x00F8000#32 = 0x0000000#32 := by
  subst hw hk
  refine ⟨?_, ?_, ?_, ?_⟩ <;> (ext i hi; interval_cases i <;> simp)

theorem shape_dac (k : BitVec 7) (base : BitVec 32) (hk : base = k.setWidth 32 <<< 25) (d : BitVec 5) (a : BitVec 5) (c : BitVec 15) (w : BitVec 32)
    (hw : w = (base ||| (d.setWidth 32 <<< 20) ||| (a.setWidth 32 <<< 15) ||| c.setWidth 32)) :
    w.extractLsb' 25 7 = k ∧ w.extractLsb' 20 5 = d ∧ w.extractLsb' 15 5 = a ∧ w.extractLsb' 0 15 = c := by
  subst hw hk
  refine ⟨?_, ?_, ?_, ?_⟩ <;> (ext i hi; interval_cases i <;> simp)

theorem shape_c (k : BitVec 7) (base : BitVec 32) (hk : base = k.setWidth 32 <<< 25) (c : BitVec 8) (w : BitVec 32)
    (hw : w = (base ||| c.setWidth 32)) :
    w.extractLsb' 25 7 = k ∧ w.extractLsb' 0 8 = c ∧ w &&& 0x1FFFF00#32 = 0x0000000#32 := by
  subst hw hk
  refine ⟨?_, ?_, ?_⟩ <;> (ext i hi; interval_cases i <;> simp)

theorem EncodeDecode.addC (d : BitVec 5) (a : BitVec 5) (b : BitVec 5) : EncodeDecode.Statement (.addC d a b) := by
  refine core_case _ _ rfl rfl ?_
  obtain ⟨h0, hd, ha, hb, hzero⟩ := shape_dab 1#7 0x02000000#32 rfl d a b _ rfl
  unfold coreInstr
  rw [h0]
  exact (if_pos hzero).trans (by rw [hd, ha, hb])

theorem EncodeDecode.subC (d : BitVec 5) (a : BitVec 5) (b : BitVec 5) : EncodeDecode.Statement (.subC d a b) := by
  refine core_case _ _ rfl rfl ?_
  obtain ⟨h0, hd, ha, hb, hzero⟩ := shape_dab 2#7 0x04000000#32 rfl d a b _ rfl
  unfold coreInstr
  rw [h0]
  exact (if_pos hzero).trans (by rw [hd, ha, hb])

theorem EncodeDecode.andC (d : BitVec 5) (a : BitVec 5) (b : BitVec 5) : EncodeDecode.Statement (.andC d a b) := by
  refine core_case _ _ rfl rfl ?_
  obtain ⟨h0, hd, ha, hb, hzero⟩ := shape_dab 3#7 0x06000000#32 rfl d a b _ rfl
  unfold coreInstr
  rw [h0]
  exact (if_pos hzero).trans (by rw [hd, ha, hb])

theorem EncodeDecode.orC (d : BitVec 5) (a : BitVec 5) (b : BitVec 5) : EncodeDecode.Statement (.orC d a b) := by
  refine core_case _ _ rfl rfl ?_
  obtain ⟨h0, hd, ha, hb, hzero⟩ := shape_dab 4#7 0x08000000#32 rfl d a b _ rfl
  unfold coreInstr
  rw [h0]
  exact (if_pos hzero).trans (by rw [hd, ha, hb])

theorem EncodeDecode.xorC (d : BitVec 5) (a : BitVec 5) (b : BitVec 5) : EncodeDecode.Statement (.xorC d a b) := by
  refine core_case _ _ rfl rfl ?_
  obtain ⟨h0, hd, ha, hb, hzero⟩ := shape_dab 5#7 0x0A000000#32 rfl d a b _ rfl
  unfold coreInstr
  rw [h0]
  exact (if_pos hzero).trans (by rw [hd, ha, hb])

theorem EncodeDecode.sll (d : BitVec 5) (a : BitVec 5) (b : BitVec 5) : EncodeDecode.Statement (.sll d a b) := by
  refine core_case _ _ rfl rfl ?_
  obtain ⟨h0, hd, ha, hb, hzero⟩ := shape_dab 6#7 0x0C000000#32 rfl d a b _ rfl
  unfold coreInstr
  rw [h0]
  exact (if_pos hzero).trans (by rw [hd, ha, hb])

theorem EncodeDecode.srl (d : BitVec 5) (a : BitVec 5) (b : BitVec 5) : EncodeDecode.Statement (.srl d a b) := by
  refine core_case _ _ rfl rfl ?_
  obtain ⟨h0, hd, ha, hb, hzero⟩ := shape_dab 7#7 0x0E000000#32 rfl d a b _ rfl
  unfold coreInstr
  rw [h0]
  exact (if_pos hzero).trans (by rw [hd, ha, hb])

theorem EncodeDecode.sra (d : BitVec 5) (a : BitVec 5) (b : BitVec 5) : EncodeDecode.Statement (.sra d a b) := by
  refine core_case _ _ rfl rfl ?_
  obtain ⟨h0, hd, ha, hb, hzero⟩ := shape_dab 8#7 0x10000000#32 rfl d a b _ rfl
  unfold coreInstr
  rw [h0]
  exact (if_pos hzero).trans (by rw [hd, ha, hb])

theorem EncodeDecode.slt (d : BitVec 5) (a : BitVec 5) (b : BitVec 5) : EncodeDecode.Statement (.slt d a b) := by
  refine core_case _ _ rfl rfl ?_
  obtain ⟨h0, hd, ha, hb, hzero⟩ := shape_dab 9#7 0x12000000#32 rfl d a b _ rfl
  unfold coreInstr
  rw [h0]
  exact (if_pos hzero).trans (by rw [hd, ha, hb])

theorem EncodeDecode.sltu (d : BitVec 5) (a : BitVec 5) (b : BitVec 5) : EncodeDecode.Statement (.sltu d a b) := by
  refine core_case _ _ rfl rfl ?_
  obtain ⟨h0, hd, ha, hb, hzero⟩ := shape_dab 10#7 0x14000000#32 rfl d a b _ rfl
  unfold coreInstr
  rw [h0]
  exact (if_pos hzero).trans (by rw [hd, ha, hb])

theorem EncodeDecode.mulC (d : BitVec 5) (a : BitVec 5) (b : BitVec 5) : EncodeDecode.Statement (.mulC d a b) := by
  refine core_case _ _ rfl rfl ?_
  obtain ⟨h0, hd, ha, hb, hzero⟩ := shape_dab 11#7 0x16000000#32 rfl d a b _ rfl
  unfold coreInstr
  rw [h0]
  exact (if_pos hzero).trans (by rw [hd, ha, hb])

theorem EncodeDecode.mulhC (d : BitVec 5) (a : BitVec 5) (b : BitVec 5) : EncodeDecode.Statement (.mulhC d a b) := by
  refine core_case _ _ rfl rfl ?_
  obtain ⟨h0, hd, ha, hb, hzero⟩ := shape_dab 12#7 0x18000000#32 rfl d a b _ rfl
  unfold coreInstr
  rw [h0]
  exact (if_pos hzero).trans (by rw [hd, ha, hb])

theorem EncodeDecode.mulhu (d : BitVec 5) (a : BitVec 5) (b : BitVec 5) : EncodeDecode.Statement (.mulhu d a b) := by
  refine core_case _ _ rfl rfl ?_
  obtain ⟨h0, hd, ha, hb, hzero⟩ := shape_dab 13#7 0x1A000000#32 rfl d a b _ rfl
  unfold coreInstr
  rw [h0]
  exact (if_pos hzero).trans (by rw [hd, ha, hb])

theorem EncodeDecode.divC (d : BitVec 5) (a : BitVec 5) (b : BitVec 5) : EncodeDecode.Statement (.divC d a b) := by
  refine core_case _ _ rfl rfl ?_
  obtain ⟨h0, hd, ha, hb, hzero⟩ := shape_dab 14#7 0x1C000000#32 rfl d a b _ rfl
  unfold coreInstr
  rw [h0]
  exact (if_pos hzero).trans (by rw [hd, ha, hb])

theorem EncodeDecode.divu (d : BitVec 5) (a : BitVec 5) (b : BitVec 5) : EncodeDecode.Statement (.divu d a b) := by
  refine core_case _ _ rfl rfl ?_
  obtain ⟨h0, hd, ha, hb, hzero⟩ := shape_dab 15#7 0x1E000000#32 rfl d a b _ rfl
  unfold coreInstr
  rw [h0]
  exact (if_pos hzero).trans (by rw [hd, ha, hb])

theorem EncodeDecode.remC (d : BitVec 5) (a : BitVec 5) (b : BitVec 5) : EncodeDecode.Statement (.remC d a b) := by
  refine core_case _ _ rfl rfl ?_
  obtain ⟨h0, hd, ha, hb, hzero⟩ := shape_dab 16#7 0x20000000#32 rfl d a b _ rfl
  unfold coreInstr
  rw [h0]
  exact (if_pos hzero).trans (by rw [hd, ha, hb])

theorem EncodeDecode.remu (d : BitVec 5) (a : BitVec 5) (b : BitVec 5) : EncodeDecode.Statement (.remu d a b) := by
  refine core_case _ _ rfl rfl ?_
  obtain ⟨h0, hd, ha, hb, hzero⟩ := shape_dab 17#7 0x22000000#32 rfl d a b _ rfl
  unfold coreInstr
  rw [h0]
  exact (if_pos hzero).trans (by rw [hd, ha, hb])

theorem EncodeDecode.minC (d : BitVec 5) (a : BitVec 5) (b : BitVec 5) : EncodeDecode.Statement (.minC d a b) := by
  refine core_case _ _ rfl rfl ?_
  obtain ⟨h0, hd, ha, hb, hzero⟩ := shape_dab 18#7 0x24000000#32 rfl d a b _ rfl
  unfold coreInstr
  rw [h0]
  exact (if_pos hzero).trans (by rw [hd, ha, hb])

theorem EncodeDecode.maxC (d : BitVec 5) (a : BitVec 5) (b : BitVec 5) : EncodeDecode.Statement (.maxC d a b) := by
  refine core_case _ _ rfl rfl ?_
  obtain ⟨h0, hd, ha, hb, hzero⟩ := shape_dab 19#7 0x26000000#32 rfl d a b _ rfl
  unfold coreInstr
  rw [h0]
  exact (if_pos hzero).trans (by rw [hd, ha, hb])

theorem EncodeDecode.clzC (d : BitVec 5) (a : BitVec 5) : EncodeDecode.Statement (.clzC d a) := by
  refine core_case _ _ rfl rfl ?_
  obtain ⟨h0, hd, ha, hzero⟩ := shape_da 20#7 0x28000000#32 rfl d a _ rfl
  unfold coreInstr
  rw [h0]
  exact (if_pos hzero).trans (by rw [hd, ha])

theorem EncodeDecode.popcC (d : BitVec 5) (a : BitVec 5) : EncodeDecode.Statement (.popcC d a) := by
  refine core_case _ _ rfl rfl ?_
  obtain ⟨h0, hd, ha, hzero⟩ := shape_da 21#7 0x2A000000#32 rfl d a _ rfl
  unfold coreInstr
  rw [h0]
  exact (if_pos hzero).trans (by rw [hd, ha])

theorem EncodeDecode.addi (d : BitVec 5) (a : BitVec 5) (i : BitVec 15) : EncodeDecode.Statement (.addi d a i) := by
  refine core_case _ _ rfl rfl ?_
  obtain ⟨h0, hd, ha, hi⟩ := shape_dai 24#7 0x30000000#32 rfl d a i _ rfl
  unfold coreInstr
  rw [h0]
  show some (Instr.addi _ _ _) = _
  rw [hd, ha, hi]

theorem EncodeDecode.andi (d : BitVec 5) (a : BitVec 5) (i : BitVec 15) : EncodeDecode.Statement (.andi d a i) := by
  refine core_case _ _ rfl rfl ?_
  obtain ⟨h0, hd, ha, hi⟩ := shape_dai 25#7 0x32000000#32 rfl d a i _ rfl
  unfold coreInstr
  rw [h0]
  show some (Instr.andi _ _ _) = _
  rw [hd, ha, hi]

theorem EncodeDecode.ori (d : BitVec 5) (a : BitVec 5) (i : BitVec 15) : EncodeDecode.Statement (.ori d a i) := by
  refine core_case _ _ rfl rfl ?_
  obtain ⟨h0, hd, ha, hi⟩ := shape_dai 26#7 0x34000000#32 rfl d a i _ rfl
  unfold coreInstr
  rw [h0]
  show some (Instr.ori _ _ _) = _
  rw [hd, ha, hi]

theorem EncodeDecode.xori (d : BitVec 5) (a : BitVec 5) (i : BitVec 15) : EncodeDecode.Statement (.xori d a i) := by
  refine core_case _ _ rfl rfl ?_
  obtain ⟨h0, hd, ha, hi⟩ := shape_dai 27#7 0x36000000#32 rfl d a i _ rfl
  unfold coreInstr
  rw [h0]
  show some (Instr.xori _ _ _) = _
  rw [hd, ha, hi]

theorem EncodeDecode.slli (d : BitVec 5) (a : BitVec 5) (i : BitVec 6) : EncodeDecode.Statement (.slli d a i) := by
  refine core_case _ _ rfl rfl ?_
  obtain ⟨h0, hd, ha, hi, hzero⟩ := shape_dai_1 28#7 0x38000000#32 rfl d a i _ rfl
  unfold coreInstr
  rw [h0]
  exact (if_pos hzero).trans (by rw [hd, ha, hi])

theorem EncodeDecode.srli (d : BitVec 5) (a : BitVec 5) (i : BitVec 6) : EncodeDecode.Statement (.srli d a i) := by
  refine core_case _ _ rfl rfl ?_
  obtain ⟨h0, hd, ha, hi, hzero⟩ := shape_dai_1 29#7 0x3A000000#32 rfl d a i _ rfl
  unfold coreInstr
  rw [h0]
  exact (if_pos hzero).trans (by rw [hd, ha, hi])

theorem EncodeDecode.srai (d : BitVec 5) (a : BitVec 5) (i : BitVec 6) : EncodeDecode.Statement (.srai d a i) := by
  refine core_case _ _ rfl rfl ?_
  obtain ⟨h0, hd, ha, hi, hzero⟩ := shape_dai_1 30#7 0x3C000000#32 rfl d a i _ rfl
  unfold coreInstr
  rw [h0]
  exact (if_pos hzero).trans (by rw [hd, ha, hi])

theorem EncodeDecode.slti (d : BitVec 5) (a : BitVec 5) (i : BitVec 15) : EncodeDecode.Statement (.slti d a i) := by
  refine core_case _ _ rfl rfl ?_
  obtain ⟨h0, hd, ha, hi⟩ := shape_dai 31#7 0x3E000000#32 rfl d a i _ rfl
  unfold coreInstr
  rw [h0]
  show some (Instr.slti _ _ _) = _
  rw [hd, ha, hi]

theorem EncodeDecode.lui (d : BitVec 5) (i : BitVec 20) : EncodeDecode.Statement (.lui d i) := by
  refine core_case _ _ rfl rfl ?_
  obtain ⟨h0, hd, hi⟩ := shape_di 32#7 0x40000000#32 rfl d i _ rfl
  unfold coreInstr
  rw [h0]
  show some (Instr.lui _ _) = _
  rw [hd, hi]

theorem EncodeDecode.ldC (d : BitVec 5) (a : BitVec 5) (v : BitVec 5) (m : BitVec 2) (s : BitVec 3) (z : BitVec 2) (q : BitVec 1) : EncodeDecode.Statement (.ldC d a v m s z q) := by
  refine core_case _ _ rfl rfl ?_
  obtain ⟨h0, hd, ha, hv, hm, hs, hz, hq, hzero⟩ := shape_davmszq 40#7 0x50000000#32 rfl d a v m s z q _ rfl
  unfold coreInstr
  rw [h0]
  exact (if_pos hzero).trans (by rw [hd, ha, hv, hm, hs, hz, hq])

theorem EncodeDecode.lds (d : BitVec 5) (a : BitVec 5) (v : BitVec 5) (m : BitVec 2) (s : BitVec 3) (z : BitVec 2) (q : BitVec 1) : EncodeDecode.Statement (.lds d a v m s z q) := by
  refine core_case _ _ rfl rfl ?_
  obtain ⟨h0, hd, ha, hv, hm, hs, hz, hq, hzero⟩ := shape_davmszq 41#7 0x52000000#32 rfl d a v m s z q _ rfl
  unfold coreInstr
  rw [h0]
  exact (if_pos hzero).trans (by rw [hd, ha, hv, hm, hs, hz, hq])

theorem EncodeDecode.stC (d : BitVec 5) (a : BitVec 5) (v : BitVec 5) (m : BitVec 2) (s : BitVec 3) (z : BitVec 2) (q : BitVec 1) : EncodeDecode.Statement (.stC d a v m s z q) := by
  refine core_case _ _ rfl rfl ?_
  obtain ⟨h0, hd, ha, hv, hm, hs, hz, hq, hzero⟩ := shape_davmszq 42#7 0x54000000#32 rfl d a v m s z q _ rfl
  unfold coreInstr
  rw [h0]
  exact (if_pos hzero).trans (by rw [hd, ha, hv, hm, hs, hz, hq])

theorem EncodeDecode.aadd (d : BitVec 5) (a : BitVec 5) (v : BitVec 5) (m : BitVec 2) (s : BitVec 3) (z : BitVec 2) (q : BitVec 1) : EncodeDecode.Statement (.aadd d a v m s z q) := by
  refine core_case _ _ rfl rfl ?_
  obtain ⟨h0, hd, ha, hv, hm, hs, hz, hq, hzero⟩ := shape_davmszq 43#7 0x56000000#32 rfl d a v m s z q _ rfl
  unfold coreInstr
  rw [h0]
  exact (if_pos hzero).trans (by rw [hd, ha, hv, hm, hs, hz, hq])

theorem EncodeDecode.amin (d : BitVec 5) (a : BitVec 5) (v : BitVec 5) (m : BitVec 2) (s : BitVec 3) (z : BitVec 2) (q : BitVec 1) : EncodeDecode.Statement (.amin d a v m s z q) := by
  refine core_case _ _ rfl rfl ?_
  obtain ⟨h0, hd, ha, hv, hm, hs, hz, hq, hzero⟩ := shape_davmszq 44#7 0x58000000#32 rfl d a v m s z q _ rfl
  unfold coreInstr
  rw [h0]
  exact (if_pos hzero).trans (by rw [hd, ha, hv, hm, hs, hz, hq])

theorem EncodeDecode.amax (d : BitVec 5) (a : BitVec 5) (v : BitVec 5) (m : BitVec 2) (s : BitVec 3) (z : BitVec 2) (q : BitVec 1) : EncodeDecode.Statement (.amax d a v m s z q) := by
  refine core_case _ _ rfl rfl ?_
  obtain ⟨h0, hd, ha, hv, hm, hs, hz, hq, hzero⟩ := shape_davmszq 45#7 0x5A000000#32 rfl d a v m s z q _ rfl
  unfold coreInstr
  rw [h0]
  exact (if_pos hzero).trans (by rw [hd, ha, hv, hm, hs, hz, hq])

theorem EncodeDecode.axchg (d : BitVec 5) (a : BitVec 5) (v : BitVec 5) (m : BitVec 2) (s : BitVec 3) (z : BitVec 2) (q : BitVec 1) : EncodeDecode.Statement (.axchg d a v m s z q) := by
  refine core_case _ _ rfl rfl ?_
  obtain ⟨h0, hd, ha, hv, hm, hs, hz, hq, hzero⟩ := shape_davmszq 46#7 0x5C000000#32 rfl d a v m s z q _ rfl
  unfold coreInstr
  rw [h0]
  exact (if_pos hzero).trans (by rw [hd, ha, hv, hm, hs, hz, hq])

theorem EncodeDecode.casC (d : BitVec 5) (a : BitVec 5) (v : BitVec 5) (m : BitVec 2) (s : BitVec 3) (z : BitVec 2) (q : BitVec 1) : EncodeDecode.Statement (.casC d a v m s z q) := by
  refine core_case _ _ rfl rfl ?_
  obtain ⟨h0, hd, ha, hv, hm, hs, hz, hq, hzero⟩ := shape_davmszq 47#7 0x5E000000#32 rfl d a v m s z q _ rfl
  unfold coreInstr
  rw [h0]
  exact (if_pos hzero).trans (by rw [hd, ha, hv, hm, hs, hz, hq])

theorem EncodeDecode.fenceC (s : BitVec 3) : EncodeDecode.Statement (.fenceC s) := by
  refine core_case _ _ rfl rfl ?_
  obtain ⟨h0, hs, hzero⟩ := shape_s 48#7 0x60000000#32 rfl s _ rfl
  unfold coreInstr
  rw [h0]
  exact (if_pos hzero).trans (by rw [hs])

theorem EncodeDecode.reclaimC (d : BitVec 5) (a : BitVec 5) (b : BitVec 5) : EncodeDecode.Statement (.reclaimC d a b) := by
  refine core_case _ _ rfl rfl ?_
  obtain ⟨h0, hd, ha, hb, hzero⟩ := shape_dab 49#7 0x62000000#32 rfl d a b _ rfl
  unfold coreInstr
  rw [h0]
  exact (if_pos hzero).trans (by rw [hd, ha, hb])

theorem EncodeDecode.vwaitC (d : BitVec 5) (a : BitVec 5) (b : BitVec 5) : EncodeDecode.Statement (.vwaitC d a b) := by
  refine core_case _ _ rfl rfl ?_
  obtain ⟨h0, hd, ha, hb, hzero⟩ := shape_dab 50#7 0x64000000#32 rfl d a b _ rfl
  unfold coreInstr
  rw [h0]
  exact (if_pos hzero).trans (by rw [hd, ha, hb])

theorem EncodeDecode.beq (a : BitVec 5) (b : BitVec 5) (f : BitVec 15) : EncodeDecode.Statement (.beq a b f) := by
  refine core_case _ _ rfl rfl ?_
  obtain ⟨h0, ha, hb, hf⟩ := shape_abf 56#7 0x70000000#32 rfl a b f _ rfl
  unfold coreInstr
  rw [h0]
  show some (Instr.beq _ _ _) = _
  rw [ha, hb, hf]

theorem EncodeDecode.bne (a : BitVec 5) (b : BitVec 5) (f : BitVec 15) : EncodeDecode.Statement (.bne a b f) := by
  refine core_case _ _ rfl rfl ?_
  obtain ⟨h0, ha, hb, hf⟩ := shape_abf 57#7 0x72000000#32 rfl a b f _ rfl
  unfold coreInstr
  rw [h0]
  show some (Instr.bne _ _ _) = _
  rw [ha, hb, hf]

theorem EncodeDecode.blt (a : BitVec 5) (b : BitVec 5) (f : BitVec 15) : EncodeDecode.Statement (.blt a b f) := by
  refine core_case _ _ rfl rfl ?_
  obtain ⟨h0, ha, hb, hf⟩ := shape_abf 58#7 0x74000000#32 rfl a b f _ rfl
  unfold coreInstr
  rw [h0]
  show some (Instr.blt _ _ _) = _
  rw [ha, hb, hf]

theorem EncodeDecode.bge (a : BitVec 5) (b : BitVec 5) (f : BitVec 15) : EncodeDecode.Statement (.bge a b f) := by
  refine core_case _ _ rfl rfl ?_
  obtain ⟨h0, ha, hb, hf⟩ := shape_abf 59#7 0x76000000#32 rfl a b f _ rfl
  unfold coreInstr
  rw [h0]
  show some (Instr.bge _ _ _) = _
  rw [ha, hb, hf]

theorem EncodeDecode.bltu (a : BitVec 5) (b : BitVec 5) (f : BitVec 15) : EncodeDecode.Statement (.bltu a b f) := by
  refine core_case _ _ rfl rfl ?_
  obtain ⟨h0, ha, hb, hf⟩ := shape_abf 60#7 0x78000000#32 rfl a b f _ rfl
  unfold coreInstr
  rw [h0]
  show some (Instr.bltu _ _ _) = _
  rw [ha, hb, hf]

theorem EncodeDecode.bgeu (a : BitVec 5) (b : BitVec 5) (f : BitVec 15) : EncodeDecode.Statement (.bgeu a b f) := by
  refine core_case _ _ rfl rfl ?_
  obtain ⟨h0, ha, hb, hf⟩ := shape_abf 61#7 0x7A000000#32 rfl a b f _ rfl
  unfold coreInstr
  rw [h0]
  show some (Instr.bgeu _ _ _) = _
  rw [ha, hb, hf]

theorem EncodeDecode.jal (d : BitVec 5) (f : BitVec 20) : EncodeDecode.Statement (.jal d f) := by
  refine core_case _ _ rfl rfl ?_
  obtain ⟨h0, hd, hf⟩ := shape_df 62#7 0x7C000000#32 rfl d f _ rfl
  unfold coreInstr
  rw [h0]
  show some (Instr.jal _ _) = _
  rw [hd, hf]

theorem EncodeDecode.jalr (d : BitVec 5) (a : BitVec 5) (i : BitVec 15) : EncodeDecode.Statement (.jalr d a i) := by
  refine core_case _ _ rfl rfl ?_
  obtain ⟨h0, hd, ha, hi⟩ := shape_dai 63#7 0x7E000000#32 rfl d a i _ rfl
  unfold coreInstr
  rw [h0]
  show some (Instr.jalr _ _ _) = _
  rw [hd, ha, hi]

theorem EncodeDecode.recv (d : BitVec 5) (a : BitVec 5) (b : BitVec 5) : EncodeDecode.Statement (.recv d a b) := by
  refine core_case _ _ rfl rfl ?_
  obtain ⟨h0, hd, ha, hb, hzero⟩ := shape_dab 64#7 0x80000000#32 rfl d a b _ rfl
  unfold coreInstr
  rw [h0]
  exact (if_pos hzero).trans (by rw [hd, ha, hb])

theorem EncodeDecode.send (d : BitVec 5) (a : BitVec 5) : EncodeDecode.Statement (.send d a) := by
  refine core_case _ _ rfl rfl ?_
  obtain ⟨h0, hd, ha, hzero⟩ := shape_da 65#7 0x82000000#32 rfl d a _ rfl
  unfold coreInstr
  rw [h0]
  exact (if_pos hzero).trans (by rw [hd, ha])

theorem EncodeDecode.bind (d : BitVec 5) (a : BitVec 5) : EncodeDecode.Statement (.bind d a) := by
  refine core_case _ _ rfl rfl ?_
  obtain ⟨h0, hd, ha, hzero⟩ := shape_da 66#7 0x84000000#32 rfl d a _ rfl
  unfold coreInstr
  rw [h0]
  exact (if_pos hzero).trans (by rw [hd, ha])

theorem EncodeDecode.spawn (d : BitVec 5) (a : BitVec 5) (b : BitVec 5) : EncodeDecode.Statement (.spawn d a b) := by
  refine core_case _ _ rfl rfl ?_
  obtain ⟨h0, hd, ha, hb, hzero⟩ := shape_dab 67#7 0x86000000#32 rfl d a b _ rfl
  unfold coreInstr
  rw [h0]
  exact (if_pos hzero).trans (by rw [hd, ha, hb])

theorem EncodeDecode.yield : EncodeDecode.Statement .yield := core_case _ _ rfl rfl (by decide)

theorem EncodeDecode.sleep (a : BitVec 5) : EncodeDecode.Statement (.sleep a) := by
  refine core_case _ _ rfl rfl ?_
  obtain ⟨h0, ha, hzero⟩ := shape_a 69#7 0x8A000000#32 rfl a _ rfl
  unfold coreInstr
  rw [h0]
  exact (if_pos hzero).trans (by rw [ha])

theorem EncodeDecode.kill (d : BitVec 5) (a : BitVec 5) : EncodeDecode.Statement (.kill d a) := by
  refine core_case _ _ rfl rfl ?_
  obtain ⟨h0, hd, ha, hzero⟩ := shape_da 70#7 0x8C000000#32 rfl d a _ rfl
  unfold coreInstr
  rw [h0]
  exact (if_pos hzero).trans (by rw [hd, ha])

theorem EncodeDecode.cfgw (d : BitVec 5) (a : BitVec 5) (b : BitVec 5) : EncodeDecode.Statement (.cfgw d a b) := by
  refine core_case _ _ rfl rfl ?_
  obtain ⟨h0, hd, ha, hb, hzero⟩ := shape_dab 72#7 0x90000000#32 rfl d a b _ rfl
  unfold coreInstr
  rw [h0]
  exact (if_pos hzero).trans (by rw [hd, ha, hb])

theorem EncodeDecode.cfgmc (d : BitVec 5) (a : BitVec 5) (b : BitVec 5) : EncodeDecode.Statement (.cfgmc d a b) := by
  refine core_case _ _ rfl rfl ?_
  obtain ⟨h0, hd, ha, hb, hzero⟩ := shape_dab 73#7 0x92000000#32 rfl d a b _ rfl
  unfold coreInstr
  rw [h0]
  exact (if_pos hzero).trans (by rw [hd, ha, hb])

theorem EncodeDecode.cfgcrc (d : BitVec 5) (a : BitVec 5) : EncodeDecode.Statement (.cfgcrc d a) := by
  refine core_case _ _ rfl rfl ?_
  obtain ⟨h0, hd, ha, hzero⟩ := shape_da 74#7 0x94000000#32 rfl d a _ rfl
  unfold coreInstr
  rw [h0]
  exact (if_pos hzero).trans (by rw [hd, ha])

theorem EncodeDecode.cfgcom (d : BitVec 5) : EncodeDecode.Statement (.cfgcom d) := by
  refine core_case _ _ rfl rfl ?_
  obtain ⟨h0, hd, hzero⟩ := shape_d 75#7 0x96000000#32 rfl d _ rfl
  unfold coreInstr
  rw [h0]
  exact (if_pos hzero).trans (by rw [hd])

theorem EncodeDecode.cfgrb (d : BitVec 5) : EncodeDecode.Statement (.cfgrb d) := by
  refine core_case _ _ rfl rfl ?_
  obtain ⟨h0, hd, hzero⟩ := shape_d 76#7 0x98000000#32 rfl d _ rfl
  unfold coreInstr
  rw [h0]
  exact (if_pos hzero).trans (by rw [hd])

theorem EncodeDecode.place (d : BitVec 5) (a : BitVec 5) (b : BitVec 5) : EncodeDecode.Statement (.place d a b) := by
  refine core_case _ _ rfl rfl ?_
  obtain ⟨h0, hd, ha, hb, hzero⟩ := shape_dab 77#7 0x9A000000#32 rfl d a b _ rfl
  unfold coreInstr
  rw [h0]
  exact (if_pos hzero).trans (by rw [hd, ha, hb])

theorem EncodeDecode.fuseq (d : BitVec 5) (a : BitVec 5) : EncodeDecode.Statement (.fuseq d a) := by
  refine core_case _ _ rfl rfl ?_
  obtain ⟨h0, hd, ha, hzero⟩ := shape_da 78#7 0x9C000000#32 rfl d a _ rfl
  unfold coreInstr
  rw [h0]
  exact (if_pos hzero).trans (by rw [hd, ha])

theorem EncodeDecode.sigchk (d : BitVec 5) (a : BitVec 5) (b : BitVec 5) : EncodeDecode.Statement (.sigchk d a b) := by
  refine core_case _ _ rfl rfl ?_
  obtain ⟨h0, hd, ha, hb, hzero⟩ := shape_dab 79#7 0x9E000000#32 rfl d a b _ rfl
  unfold coreInstr
  rw [h0]
  exact (if_pos hzero).trans (by rw [hd, ha, hb])

theorem EncodeDecode.copyC (d : BitVec 5) (a : BitVec 5) (q : BitVec 1) (r : BitVec 1) (s : BitVec 3) (f : BitVec 1) : EncodeDecode.Statement (.copyC d a q r s f) := by
  refine core_case _ _ rfl rfl ?_
  obtain ⟨h0, hd, ha, hq, hr, hs, hf, hzero⟩ := shape_daqrsf 80#7 0xA0000000#32 rfl d a q r s f _ rfl
  unfold coreInstr
  rw [h0]
  exact (if_pos hzero).trans (by rw [hd, ha, hq, hr, hs, hf])

theorem EncodeDecode.gatherC (d : BitVec 5) (a : BitVec 5) (b : BitVec 5) (q : BitVec 1) (r : BitVec 1) (s : BitVec 3) (f : BitVec 1) : EncodeDecode.Statement (.gatherC d a b q r s f) := by
  refine core_case _ _ rfl rfl ?_
  obtain ⟨h0, hd, ha, hb, hq, hr, hs, hf, hzero⟩ := shape_dabqrsf 81#7 0xA2000000#32 rfl d a b q r s f _ rfl
  unfold coreInstr
  rw [h0]
  exact (if_pos hzero).trans (by rw [hd, ha, hb, hq, hr, hs, hf])

theorem EncodeDecode.armC (d : BitVec 5) (a : BitVec 5) (q : BitVec 1) (r : BitVec 1) (s : BitVec 3) : EncodeDecode.Statement (.armC d a q r s) := by
  refine core_case _ _ rfl rfl ?_
  obtain ⟨h0, hd, ha, hq, hr, hs, hzero⟩ := shape_daqrs 82#7 0xA4000000#32 rfl d a q r s _ rfl
  unfold coreInstr
  rw [h0]
  exact (if_pos hzero).trans (by rw [hd, ha, hq, hr, hs])

theorem EncodeDecode.disarmC (d : BitVec 5) (a : BitVec 5) : EncodeDecode.Statement (.disarmC d a) := by
  refine core_case _ _ rfl rfl ?_
  obtain ⟨h0, hd, ha, hzero⟩ := shape_da 83#7 0xA6000000#32 rfl d a _ rfl
  unfold coreInstr
  rw [h0]
  exact (if_pos hzero).trans (by rw [hd, ha])

theorem EncodeDecode.mmaC (d : BitVec 5) (a : BitVec 5) (q : BitVec 1) (s : BitVec 3) : EncodeDecode.Statement (.mmaC d a q s) := by
  refine core_case _ _ rfl rfl ?_
  obtain ⟨h0, hd, ha, hq, hs, hzero⟩ := shape_daqs 84#7 0xA8000000#32 rfl d a q s _ rfl
  unfold coreInstr
  rw [h0]
  exact (if_pos hzero).trans (by rw [hd, ha, hq, hs])

theorem EncodeDecode.aucgoC (d : BitVec 5) (a : BitVec 5) (q : BitVec 1) (s : BitVec 3) : EncodeDecode.Statement (.aucgoC d a q s) := by
  refine core_case _ _ rfl rfl ?_
  obtain ⟨h0, hd, ha, hq, hs, hzero⟩ := shape_daqs 85#7 0xAA000000#32 rfl d a q s _ rfl
  unfold coreInstr
  rw [h0]
  exact (if_pos hzero).trans (by rw [hd, ha, hq, hs])

theorem EncodeDecode.aucgetC (d : BitVec 5) : EncodeDecode.Statement (.aucgetC d) := by
  refine core_case _ _ rfl rfl ?_
  obtain ⟨h0, hd, hzero⟩ := shape_d 86#7 0xAC000000#32 rfl d _ rfl
  unfold coreInstr
  rw [h0]
  exact (if_pos hzero).trans (by rw [hd])

theorem EncodeDecode.crc32c (d : BitVec 5) (a : BitVec 5) (b : BitVec 5) : EncodeDecode.Statement (.crc32c d a b) := by
  refine core_case _ _ rfl rfl ?_
  obtain ⟨h0, hd, ha, hb, hzero⟩ := shape_dab 87#7 0xAE000000#32 rfl d a b _ rfl
  unfold coreInstr
  rw [h0]
  exact (if_pos hzero).trans (by rw [hd, ha, hb])

theorem EncodeDecode.rtag (d : BitVec 5) (a : BitVec 5) (b : BitVec 5) : EncodeDecode.Statement (.rtag d a b) := by
  refine core_case _ _ rfl rfl ?_
  obtain ⟨h0, hd, ha, hb, hzero⟩ := shape_dab 88#7 0xB0000000#32 rfl d a b _ rfl
  unfold coreInstr
  rw [h0]
  exact (if_pos hzero).trans (by rw [hd, ha, hb])

theorem EncodeDecode.runtag (d : BitVec 5) : EncodeDecode.Statement (.runtag d) := by
  refine core_case _ _ rfl rfl ?_
  obtain ⟨h0, hd, hzero⟩ := shape_d 89#7 0xB2000000#32 rfl d _ rfl
  unfold coreInstr
  rw [h0]
  exact (if_pos hzero).trans (by rw [hd])

theorem EncodeDecode.resume (d : BitVec 5) (a : BitVec 5) : EncodeDecode.Statement (.resume d a) := by
  refine core_case _ _ rfl rfl ?_
  obtain ⟨h0, hd, ha, hzero⟩ := shape_da 90#7 0xB4000000#32 rfl d a _ rfl
  unfold coreInstr
  rw [h0]
  exact (if_pos hzero).trans (by rw [hd, ha])

theorem EncodeDecode.csrr (d : BitVec 5) (c : BitVec 15) : EncodeDecode.Statement (.csrr d c) := by
  refine core_case _ _ rfl rfl ?_
  obtain ⟨h0, hd, hc, hzero⟩ := shape_dc 96#7 0xC0000000#32 rfl d c _ rfl
  unfold coreInstr
  rw [h0]
  exact (if_pos hzero).trans (by rw [hd, hc])

theorem EncodeDecode.csrw (d : BitVec 5) (a : BitVec 5) (c : BitVec 15) : EncodeDecode.Statement (.csrw d a c) := by
  refine core_case _ _ rfl rfl ?_
  obtain ⟨h0, hd, ha, hc⟩ := shape_dac 97#7 0xC2000000#32 rfl d a c _ rfl
  unfold coreInstr
  rw [h0]
  show some (Instr.csrw _ _ _) = _
  rw [hd, ha, hc]

theorem EncodeDecode.trapC (c : BitVec 8) : EncodeDecode.Statement (.trapC c) := by
  refine core_case _ _ rfl rfl ?_
  obtain ⟨h0, hc, hzero⟩ := shape_c 98#7 0xC4000000#32 rfl c _ rfl
  unfold coreInstr
  rw [h0]
  exact (if_pos hzero).trans (by rw [hc])

theorem EncodeDecode.eret : EncodeDecode.Statement .eret := core_case _ _ rfl rfl (by decide)

theorem EncodeDecode.halt (d : BitVec 5) (a : BitVec 5) : EncodeDecode.Statement (.halt d a) := by
  refine core_case _ _ rfl rfl ?_
  obtain ⟨h0, hd, ha, hzero⟩ := shape_da 100#7 0xC8000000#32 rfl d a _ rfl
  unfold coreInstr
  rw [h0]
  exact (if_pos hzero).trans (by rw [hd, ha])

theorem EncodeDecode.bell (d : BitVec 5) (a : BitVec 5) : EncodeDecode.Statement (.bell d a) := by
  refine core_case _ _ rfl rfl ?_
  obtain ⟨h0, hd, ha, hzero⟩ := shape_da 101#7 0xCA000000#32 rfl d a _ rfl
  unfold coreInstr
  rw [h0]
  exact (if_pos hzero).trans (by rw [hd, ha])

theorem EncodeDecode.wfi : EncodeDecode.Statement .wfi := core_case _ _ rfl rfl (by decide)

theorem EncodeDecode.quiesce (d : BitVec 5) (a : BitVec 5) : EncodeDecode.Statement (.quiesce d a) := by
  refine core_case _ _ rfl rfl ?_
  obtain ⟨h0, hd, ha, hzero⟩ := shape_da 103#7 0xCE000000#32 rfl d a _ rfl
  unfold coreInstr
  rw [h0]
  exact (if_pos hzero).trans (by rw [hd, ha])

/-! ## Events of the device -/

theorem EncodeDecode.xinv (asid : BitVec 16) : EncodeDecode.Statement (.xinv asid) := event_case _ rfl rfl

theorem EncodeDecode.tokenArrival  : EncodeDecode.Statement (.tokenArrival) := event_case _ rfl rfl

theorem EncodeDecode.poolOp  : EncodeDecode.Statement (.poolOp) := event_case _ rfl rfl

theorem EncodeDecode.grantArrival  : EncodeDecode.Statement (.grantArrival) := event_case _ rfl rfl

theorem EncodeDecode.replay  : EncodeDecode.Statement (.replay) := event_case _ rfl rfl

theorem EncodeDecode.converterPairing  : EncodeDecode.Statement (.converterPairing) := event_case _ rfl rfl

theorem EncodeDecode.agnAssign  : EncodeDecode.Statement (.agnAssign) := event_case _ rfl rfl

theorem EncodeDecode.streamComplete  : EncodeDecode.Statement (.streamComplete) := event_case _ rfl rfl

theorem EncodeDecode.triggerToken  : EncodeDecode.Statement (.triggerToken) := event_case _ rfl rfl

theorem EncodeDecode.transformReturn  : EncodeDecode.Statement (.transformReturn) := event_case _ rfl rfl

theorem EncodeDecode.arrayCommandStart  : EncodeDecode.Statement (.arrayCommandStart) := event_case _ rfl rfl

theorem EncodeDecode.mmacRowStart  : EncodeDecode.Statement (.mmacRowStart) := event_case _ rfl rfl

theorem EncodeDecode.arrayCommandComplete  : EncodeDecode.Statement (.arrayCommandComplete) := event_case _ rfl rfl

theorem EncodeDecode.registrarServe  : EncodeDecode.Statement (.registrarServe) := event_case _ rfl rfl

theorem EncodeDecode.auctionRound  : EncodeDecode.Statement (.auctionRound) := event_case _ rfl rfl

theorem EncodeDecode.gateToken  : EncodeDecode.Statement (.gateToken) := event_case _ rfl rfl

theorem EncodeDecode.walkStart  : EncodeDecode.Statement (.walkStart) := event_case _ rfl rfl

theorem EncodeDecode.walkStep  : EncodeDecode.Statement (.walkStep) := event_case _ rfl rfl

theorem EncodeDecode.homeAccess (who : StreamId) : EncodeDecode.Statement (.homeAccess who) := event_case _ rfl rfl

theorem EncodeDecode.memoryResponse  : EncodeDecode.Statement (.memoryResponse) := event_case _ rfl rfl

theorem EncodeDecode.contextReclaim  : EncodeDecode.Statement (.contextReclaim) := event_case _ rfl rfl

theorem EncodeDecode.ingressWrite (window : Nat) (image : List Word) : EncodeDecode.Statement (.ingressWrite window image) := event_case _ rfl rfl

theorem EncodeDecode.deanSelect  : EncodeDecode.Statement (.deanSelect) := event_case _ rfl rfl

theorem EncodeDecode.loaderReport  : EncodeDecode.Statement (.loaderReport) := event_case _ rfl rfl

theorem EncodeDecode.bankAssign  : EncodeDecode.Statement (.bankAssign) := event_case _ rfl rfl

theorem EncodeDecode.drain  : EncodeDecode.Statement (.drain) := event_case _ rfl rfl

theorem EncodeDecode.imageUnload  : EncodeDecode.Statement (.imageUnload) := event_case _ rfl rfl

theorem EncodeDecode.timetableSample  : EncodeDecode.Statement (.timetableSample) := event_case _ rfl rfl

theorem EncodeDecode.powerEstimate  : EncodeDecode.Statement (.powerEstimate) := event_case _ rfl rfl

theorem EncodeDecode.thermalTrip  : EncodeDecode.Statement (.thermalTrip) := event_case _ rfl rfl

theorem EncodeDecode.thermalRecovery  : EncodeDecode.Statement (.thermalRecovery) := event_case _ rfl rfl

theorem EncodeDecode.proctorExpiry  : EncodeDecode.Statement (.proctorExpiry) := event_case _ rfl rfl

theorem EncodeDecode.tileSave  : EncodeDecode.Statement (.tileSave) := event_case _ rfl rfl

theorem EncodeDecode.bellStuck  : EncodeDecode.Statement (.bellStuck) := event_case _ rfl rfl

theorem EncodeDecode.eraserDone  : EncodeDecode.Statement (.eraserDone) := event_case _ rfl rfl

theorem EncodeDecode.bucketRequest  : EncodeDecode.Statement (.bucketRequest) := event_case _ rfl rfl

theorem EncodeDecode.bucketCompletion  : EncodeDecode.Statement (.bucketCompletion) := event_case _ rfl rfl

theorem EncodeDecode.hostMessage  : EncodeDecode.Statement (.hostMessage) := event_case _ rfl rfl

theorem EncodeDecode.childLaunch  : EncodeDecode.Statement (.childLaunch) := event_case _ rfl rfl

theorem EncodeDecode.deanChannelReserved  : EncodeDecode.Statement (.deanChannelReserved) := event_case _ rfl rfl

theorem EncodeDecode.vcDelivery  : EncodeDecode.Statement (.vcDelivery) := event_case _ rfl rfl

theorem EncodeDecode.quantumExpiry  : EncodeDecode.Statement (.quantumExpiry) := event_case _ rfl rfl

theorem EncodeDecode.sleepExpiry  : EncodeDecode.Statement (.sleepExpiry) := event_case _ rfl rfl

theorem EncodeDecode.fetchBlock  : EncodeDecode.Statement (.fetchBlock) := event_case _ rfl rfl

theorem EncodeDecode.packetHop  : EncodeDecode.Statement (.packetHop) := event_case _ rfl rfl

theorem EncodeDecode.flitRetry  : EncodeDecode.Statement (.flitRetry) := event_case _ rfl rfl

theorem EncodeDecode.hostApertureAccess (port off load : Nat) (data : List Byte) : EncodeDecode.Statement (.hostApertureAccess port off load data) := event_case _ rfl rfl

theorem EncodeDecode.tail (v : BitVec 32) : EncodeDecode.Statement (.tail v) := event_case _ rfl rfl

theorem EncodeDecode.mailboxWrite (off : Nat) (v : Word) : EncodeDecode.Statement (.mailboxWrite off v) := event_case _ rfl rfl

theorem EncodeDecode.hostQset  : EncodeDecode.Statement (.hostQset) := event_case _ rfl rfl

theorem EncodeDecode.hostWbind  : EncodeDecode.Statement (.hostWbind) := event_case _ rfl rfl

theorem EncodeDecode.hostPortten  : EncodeDecode.Statement (.hostPortten) := event_case _ rfl rfl

theorem EncodeDecode.hostPowcap  : EncodeDecode.Statement (.hostPowcap) := event_case _ rfl rfl

theorem EncodeDecode.hostMcast  : EncodeDecode.Statement (.hostMcast) := event_case _ rfl rfl

theorem EncodeDecode.hostAsid  : EncodeDecode.Statement (.hostAsid) := event_case _ rfl rfl

theorem EncodeDecode.hostGate  : EncodeDecode.Statement (.hostGate) := event_case _ rfl rfl

theorem EncodeDecode.hostKey  : EncodeDecode.Statement (.hostKey) := event_case _ rfl rfl

theorem EncodeDecode.hostUnload  : EncodeDecode.Statement (.hostUnload) := event_case _ rfl rfl

theorem EncodeDecode.hostAbort  : EncodeDecode.Statement (.hostAbort) := event_case _ rfl rfl

theorem EncodeDecode.hostResume  : EncodeDecode.Statement (.hostResume) := event_case _ rfl rfl

theorem EncodeDecode.hostPreempt  : EncodeDecode.Statement (.hostPreempt) := event_case _ rfl rfl

theorem EncodeDecode.hostRestore  : EncodeDecode.Statement (.hostRestore) := event_case _ rfl rfl

theorem EncodeDecode.hostDiscard  : EncodeDecode.Statement (.hostDiscard) := event_case _ rfl rfl

theorem EncodeDecode.hostMeter  : EncodeDecode.Statement (.hostMeter) := event_case _ rfl rfl

theorem EncodeDecode.hostExport  : EncodeDecode.Statement (.hostExport) := event_case _ rfl rfl

theorem EncodeDecode.hostImport  : EncodeDecode.Statement (.hostImport) := event_case _ rfl rfl

theorem EncodeDecode.hostProctor  : EncodeDecode.Statement (.hostProctor) := event_case _ rfl rfl

theorem EncodeDecode.hostMapget  : EncodeDecode.Statement (.hostMapget) := event_case _ rfl rfl

theorem EncodeDecode.hostBanks  : EncodeDecode.Statement (.hostBanks) := event_case _ rfl rfl

theorem EncodeDecode.badCommand (op : BitVec 16) : EncodeDecode.Statement (.badCommand op) := event_case _ rfl rfl

theorem EncodeDecode.reset (rom : BootInputs) : EncodeDecode.Statement (.reset rom) := event_case _ rfl rfl

theorem EncodeDecode.badOp (w : BitVec 32) : EncodeDecode.Statement (.badOp w) :=
  ⟨fun _ v he => by simp [encodeFabric, Instr.slotWord] at he, fun v he hn => by cases he; exact absurd rfl hn⟩

theorem EncodeDecode.peerAccess (off load : Nat) (op : PeerOp) : EncodeDecode.Statement (.peerAccess off load op) := event_case _ rfl rfl

end Sys2Proof.Laws
end

