-- ==== Sys2Proof/Certificates/Slice0/Obligations.lean ====
section
/-! DEFINITION. The statements for the provers, from the numbered rules of spec/. Names under `Claims` are their
abbreviations: hypotheses, and results written out from the rules. -/

section

open Sys2Proof Sys2Proof.Machine

/-! ## Control cores -/

/-- Task k of cluster c runs the instruction, and no recipe pins gD (R247). -/
abbrev Claims.Runs (s : State) (c k : Nat) (d : BitVec 5) : Prop :=
  s.focus = .task c k ∧ (s.task c k).pinned d.toNat = false

/-- The state after an instruction of a task that writes v to gD and moves on. -/
def Claims.wrote (s : State) (c k : Nat) (d : BitVec 5) (v : Word) : State :=
  s.updTask c k fun t => (t.setReg d v).retire

/-- The destination and the value of an instruction that computes on registers (R280 to R282), in integer arithmetic. -/
def Claims.coreValue : Instr → Option (BitVec 5 × ((BitVec 5 → Word) → Word))
  | .addC d a b => some (d, fun g => BitVec.ofNat 64 ((g a).toNat + (g b).toNat))
  | .subC d a b => some (d, fun g => BitVec.ofInt 64 ((g a).toInt - (g b).toInt))
  | .andC d a b => some (d, fun g => g a &&& g b)
  | .orC d a b => some (d, fun g => g a ||| g b)
  | .xorC d a b => some (d, fun g => g a ^^^ g b)
  | .sll d a b => some (d, fun g => BitVec.ofNat 64 ((g a).toNat * 2 ^ ((g b).toNat % 64)))
  | .srl d a b => some (d, fun g => BitVec.ofNat 64 ((g a).toNat / 2 ^ ((g b).toNat % 64)))
  | .sra d a b => some (d, fun g => BitVec.ofInt 64 ((g a).toInt / 2 ^ ((g b).toNat % 64)))
  | .slt d a b => some (d, fun g => if (g a).toInt < (g b).toInt then 1 else 0)
  | .sltu d a b => some (d, fun g => if (g a).toNat < (g b).toNat then 1 else 0)
  | .mulC d a b => some (d, fun g => BitVec.ofInt 64 ((g a).toInt * (g b).toInt))
  | .mulhC d a b => some (d, fun g => BitVec.ofInt 64 ((g a).toInt * (g b).toInt / 2 ^ 64))
  | .mulhu d a b => some (d, fun g => BitVec.ofNat 64 ((g a).toNat * (g b).toNat / 2 ^ 64))
  | .divC d a b => some (d, fun g => if g b = 0 then BitVec.ofInt 64 (-1) else BitVec.ofInt 64 ((g a).toInt.tdiv (g b).toInt))
  | .divu d a b => some (d, fun g => if g b = 0 then BitVec.ofInt 64 (-1) else BitVec.ofNat 64 ((g a).toNat / (g b).toNat))
  | .remC d a b => some (d, fun g => if g b = 0 then g a else BitVec.ofInt 64 ((g a).toInt.tmod (g b).toInt))
  | .remu d a b => some (d, fun g => if g b = 0 then g a else BitVec.ofNat 64 ((g a).toNat % (g b).toNat))
  | .minC d a b => some (d, fun g => BitVec.ofInt 64 (min (g a).toInt (g b).toInt))
  | .maxC d a b => some (d, fun g => BitVec.ofInt 64 (max (g a).toInt (g b).toInt))
  | .clzC d a => some (d, fun g => if g a = 0 then 64 else BitVec.ofNat 64 (63 - Nat.log2 (g a).toNat))
  | .popcC d a => some (d, fun g => BitVec.ofNat 64 ((List.range 64).countP fun i => (g a).getLsbD i))
  | .addi d a i => some (d, fun g => BitVec.ofInt 64 ((g a).toInt + i.toInt))
  | .andi d a i => some (d, fun g => g a &&& BitVec.ofInt 64 i.toInt)
  | .ori d a i => some (d, fun g => g a ||| BitVec.ofInt 64 i.toInt)
  | .xori d a i => some (d, fun g => g a ^^^ BitVec.ofInt 64 i.toInt)
  | .slli d a i => some (d, fun g => BitVec.ofNat 64 ((g a).toNat * 2 ^ i.toNat))
  | .srli d a i => some (d, fun g => BitVec.ofNat 64 ((g a).toNat / 2 ^ i.toNat))
  | .srai d a i => some (d, fun g => BitVec.ofInt 64 ((g a).toInt / 2 ^ i.toNat))
  | .slti d a i => some (d, fun g => if (g a).toInt < i.toInt then 1 else 0)
  | .lui d i => some (d, fun _ => BitVec.ofInt 64 (i.toInt * 4096))
  | .crc32c d a b => some (d, fun g => BitVec.ofNat 64 (crcBytes ((g a).toNat % 2 ^ 32) (toBytes 8 (g b).toNat)))
  | _ => none

/-- R280 to R282, R288: an instruction that computes on registers answers the state in which gD holds its value, the pc
has moved by 4 and INSTRET by 1. -/
def Obligations.CoreComputesRegister : Prop :=
  ∀ (s : State) (c k : Nat) (i : Instr) (d : BitVec 5) (f : (BitVec 5 → Word) → Word),
    Claims.coreValue i = some (d, f) → Claims.Runs s c k d →
    exec i s = .next (Claims.wrote s c k d (f fun r => (s.task c k).reg r))

/-- R272, R280 to R282, R288: the frame of those instructions: no other register, task, unit or record changes, and no byte of memory;
`ranged`, the model's own note of a byte range under way (log entry 20), is empty after any completed instruction. -/
def Obligations.CoreComputeFrame : Prop :=
  ∀ (s s' : State) (c k : Nat) (i : Instr) (d : BitVec 5) (f : (BitVec 5 → Word) → Word),
    Claims.coreValue i = some (d, f) → Claims.Runs s c k d → exec i s = .next s' →
    (∀ r : BitVec 5, r ≠ d → (s'.task c k).reg r = (s.task c k).reg r) ∧
    (s'.task c k).reg 0 = 0 ∧
    s'.task c k = { s.task c k with regs := (s'.task c k).regs, tags := (s'.task c k).tags, dirty := (s'.task c k).dirty,
                                    pc := (s.task c k).pc + 4, instret := (s.task c k).instret + 1, ranged := [] } ∧
    (∀ c' k' : Nat, (c' ≠ c ∨ k' ≠ k) → s'.task c' k' = s.task c' k') ∧
    (∀ c' : Nat, { s'.cluster c' with core := {} } = { s.cluster c' with core := {} }) ∧
    (∀ a : Nat, cellGet s'.mem a = cellGet s.mem a) ∧
    { s' with clusters := s.clusters } = s

/-- R247: an instruction that would write a register which a recipe reads takes the Recipe trap, subcode Pin, instead. -/
def Claims.CorePinnedRegisterTraps : Prop :=
  ∀ (s : State) (c k : Nat) (i : Instr) (d : BitVec 5) (f : (BitVec 5 → Word) → Word),
    Claims.coreValue i = some (d, f) → s.focus = .task c k → (s.task c k).pinned d.toNat = true →
    exec i s = .next (s.trap c k 0x0C 0x05 (s.task c k).pc.toNat 0 (s.task c k).pc 0)

/-- R272: g0 reads as zero, a write of it is discarded, and a write of another register changes that register alone. -/
def Obligations.RegisterZeroAndWrites : Prop :=
  ∀ (t : Task) (r q : BitVec 5) (v : Word), t.regs.length = 32 →
    t.reg 0 = 0 ∧ t.setReg 0 v = t ∧ (t.setReg r v).regs.length = 32 ∧
    (t.setReg r v).reg q = if q = r ∧ r ≠ 0 then v else t.reg q

/-- The condition and the word offset of a branch (R285). -/
def Claims.branch : Instr → Option (BitVec 15 × ((BitVec 5 → Word) → Bool))
  | .beq a b f => some (f, fun g => (g a).toNat = (g b).toNat)
  | .bne a b f => some (f, fun g => (g a).toNat ≠ (g b).toNat)
  | .blt a b f => some (f, fun g => (g a).toInt < (g b).toInt)
  | .bge a b f => some (f, fun g => (g b).toInt ≤ (g a).toInt)
  | .bltu a b f => some (f, fun g => (g a).toNat < (g b).toNat)
  | .bgeu a b f => some (f, fun g => (g b).toNat ≤ (g a).toNat)
  | _ => none

/-- R285, R290: a branch moves the pc by its offset in words from itself and drops the fetch line when its condition
holds, else it moves the pc by 4; nothing else changes. -/
def Claims.CoreBranches : Prop :=
  ∀ (s : State) (c k : Nat) (i : Instr) (f : BitVec 15) (holds : (BitVec 5 → Word) → Bool),
    Claims.branch i = some (f, holds) → s.focus = .task c k →
    exec i s = .next (s.updTask c k fun t =>
      if holds fun r => t.reg r then
        { t with pc := BitVec.ofInt 64 (t.pc.toInt + 4 * f.toInt), instret := t.instret + 1, line := none }
      else { t with pc := t.pc + 4, instret := t.instret + 1, ranged := [] })

/-- R285: JAL and JALR write the address after them and jump; JALR's target has bits [1:0] cleared and uses gA as it was. -/
def Claims.CoreJumps : Prop :=
  ∀ (s : State) (c k : Nat) (d a : BitVec 5) (f : BitVec 20) (i : BitVec 15), Claims.Runs s c k d →
    exec (.jal d f) s = .next (s.updTask c k fun t =>
      { t.setReg d (t.pc + 4) with
        pc := BitVec.ofInt 64 (t.pc.toInt + 4 * f.toInt), instret := t.instret + 1, line := none }) ∧
    exec (.jalr d a i) s = .next (s.updTask c k fun t =>
      { t.setReg d (t.pc + 4) with
        pc := BitVec.ofInt 64 (((t.reg a).toInt + i.toInt) / 4 * 4), instret := t.instret + 1, line := none })

/-! ### Traps, control registers -/

/-- R279, R289: TRAP writes its record, then enters the handler at TVEC with EPC the address after it, CAUSE 0x10 and its
code, BADADDR 0 and INH set; with INH set or TVEC 0 it ends the task. ERET returns to EPC with INH clear, and outside a
handler it takes the Illegal trap, subcode Eret. -/
def Obligations.TrapAndReturn : Prop :=
  ∀ (s : State) (c k : Nat) (code : BitVec 8), s.focus = .task c k →
    (let t := s.task c k
     let z := (s.raise { cause := 0x10, sub := code.toNat, ctx := t.faultCtx, tenant := t.tenant, source := 2, unit := k,
                         x := tileX (tileIn c 0), y := tileY (tileIn c 0), address := t.pc.toNat }).1
     exec (.trapC code) s = .next
       (if (z.task c k).inh = false ∧ (z.task c k).tvec ≠ 0 then
          z.updTask c k fun u =>
            { u with ranged := [], pc := u.tvec, epc := t.pc + 4, cause := BitVec.ofNat 64 (0x1000 + code.toNat), badaddr := 0, inh := true,
                     line := none, st := if u.st = .running then .running else .runnable }
        else z.endTask c k)) ∧
    (exec .eret s = .next
      (if (s.task c k).inh then
         s.updTask c k fun t => { t with pc := t.epc, inh := false, line := none, instret := t.instret + 1 }
       else s.trap c k 0x0B 0x15 (s.task c k).pc.toNat 0 (s.task c k).pc 0))

/-- What CSRR reads by code (R274). -/
def Claims.csrTable (s : State) (c k : Nat) : List (BitVec 15 × Word) :=
  let t := s.task c k
  [(0x001, t.epc), (0x002, t.cause), (0x003, t.tvec), (0x004, t.badaddr), (0x005, BitVec.ofNat 64 t.score.toNat),
   (0x006, BitVec.ofNat 64 ((s.cluster c).core.vcBind k)), (0x007, BitVec.ofNat 64 ((s.cluster c).core.vcPend k)),
   (0x008, BitVec.ofNat 64 s.cycle), (0x009, t.instret), (0x00A, BitVec.ofNat 64 (t.asid % 2 ^ 16)), (0x010, 0),
   (0x00B, BitVec.ofNat 64 (if t.ctx = 0xFFF then 0 else (s.faultArea t.ctx).getD 0))]

/-- R273, R274: CSRR reads a task's own control registers; STATUS puts TENANT in [47:32], CTX in [27:16], TASK in [10:8]
and INH, PRIV, MAP, CFG in [3:0]; XINV reads as 0; each code that names none traps. -/
def Claims.ControlRegisterReads : Prop :=
  ∀ (s : State) (c k : Nat) (d : BitVec 5) (n : BitVec 15), Claims.Runs s c k d →
    (∀ v, (n, v) ∈ Claims.csrTable s c k → exec (.csrr d n) s = .next (Claims.wrote s c k d v)) ∧
    (let t := s.task c k
     t.tenant < 2 ^ 16 → t.ctx < 2 ^ 12 → k < 8 →
       ∃ w : Word, exec (.csrr d 0x000) s = .next (Claims.wrote s c k d w) ∧
         bits w.toNat 47 32 = t.tenant ∧ bits w.toNat 27 16 = t.ctx ∧ bits w.toNat 10 8 = k ∧
         bit w.toNat 3 = t.inh ∧ bit w.toNat 2 = t.priv ∧ bit w.toNat 1 = t.map ∧ bit w.toNat 0 = t.cfg) ∧
    (0x00B < n.toNat → n ≠ 0x010 → exec (.csrr d n) s = .next (s.trap c k 0x0B 0x13 (s.task c k).pc.toNat 0 (s.task c k).pc 0))

/-- R274: CSRW replaces EPC, CAUSE (its low 16 bits) or TVEC and gives the old value; a TVEC that is not a multiple of 4
and a register that is not writable trap. -/
def Claims.ControlRegisterWrites : Prop :=
  ∀ (s : State) (c k : Nat) (d a : BitVec 5), Claims.Runs s c k d →
    (let t := s.task c k
     let v := t.reg a
     let bad := s.trap c k 0x0B 0x13 t.pc.toNat 0 t.pc 0
     exec (.csrw d a 0x001) s = .next (s.setTask c k (({ t with epc := v } : Task).setReg d t.epc).retire) ∧
     exec (.csrw d a 0x002) s = .next
       (s.setTask c k (({ t with cause := BitVec.ofNat 64 (v.toNat % 2 ^ 16) } : Task).setReg d t.cause).retire) ∧
     (v.toNat % 4 = 0 →
       exec (.csrw d a 0x003) s = .next (s.setTask c k (({ t with tvec := v } : Task).setReg d t.tvec).retire)) ∧
     (v.toNat % 4 ≠ 0 → exec (.csrw d a 0x003) s = .next bad) ∧
     ∀ n : BitVec 15, n.toNat ∉ [0x001, 0x002, 0x003, 0x010] → exec (.csrw d a n) s = .next bad)

/-! ### Memory instructions of a task (R283, R284) -/

/-- What a memory instruction of a task does, from its rules: the address register, the scope, the version mode (none
where the fields are reserved), the size, the rights, the operation at an offset within the block, whether versions are
retained, how many bytes the access moves, and the destination with its value from what the home answers. -/
structure Claims.CoreAccess where
  addr  : BitVec 5
  scope : BitVec 3 := 0
  mode  : Option VMode
  size  : Nat
  kind  : AccKind
  op    : Nat → AccessOp
  ret   : Bool := false
  dest  : Option (BitVec 5 × (Nat → AccessOut → Word))

/-- The version modes of a load and of a store (R41): code 0 wants no version register. -/
def Claims.loadModes (t : Task) (v : BitVec 5) (m : BitVec 2) : Option VMode :=
  if m = 0 ∧ v = 0 then some .any
  else if m = 1 then some (.eq ((t.reg v).setWidth 16))
  else if m = 2 then some (.ge ((t.reg v).setWidth 16))
  else none
def Claims.storeModes (t : Task) (v : BitVec 5) (m : BitVec 2) : Option VMode :=
  if (m = 0 ∨ m = 2) ∧ v = 0 then some .next
  else if m = 1 ∨ m = 3 then some (.exp ((t.reg v).setWidth 16))
  else none

/-- An atomic of gD's old word with operand x, and y for CAS. -/
def Claims.coreAtomic (d a : BitVec 5) (m : BitVec 2) (sc : BitVec 3) (z : BitVec 2) (op : AtomOp) (x y : Word) : Claims.CoreAccess :=
  { addr := a, scope := sc, mode := if (m = 0 ∨ m = 2) ∧ (z = 2 ∨ z = 3) then some .next else none, size := 2 ^ z.toNat,
    kind := .readWrite, op := fun off => .atom op true [(off, x, y)], ret := m = 2 ∨ m = 3,
    dest := some (d, fun _ o => o.old.headD 0) }

def Claims.coreAccess (t : Task) : Instr → Option Claims.CoreAccess
  | .ldC d a v m sc z _ => some
    { addr := a, scope := sc, mode := Claims.loadModes t v m, size := 2 ^ z.toNat, kind := .read, op := fun _ => .load,
      dest := some (d, fun off o => BitVec.ofNat 64 (field o.bytes off (2 ^ z.toNat))) }
  | .lds d a v m sc z _ => some
    { addr := a, scope := sc, mode := Claims.loadModes t v m, size := 2 ^ z.toNat, kind := .read, op := fun _ => .load,
      dest := some (d, fun off o => BitVec.ofInt 64 (sval (8 * 2 ^ z.toNat) (field o.bytes off (2 ^ z.toNat)))) }
  | .stC d a v m sc z _ => some
    { addr := a, scope := sc, mode := Claims.storeModes t v m, size := 2 ^ z.toNat, kind := .write,
      op := fun off => .store ((List.range (2 ^ z.toNat)).map fun i => (off + i, BitVec.ofNat 8 ((t.reg d).toNat / 256 ^ i))),
      ret := m = 2 ∨ m = 3, dest := none }
  | .aadd d a v m sc z _ => some (Claims.coreAtomic d a m sc z .add (t.reg v) 0)
  | .amin d a v m sc z _ => some (Claims.coreAtomic d a m sc z .min (t.reg v) 0)
  | .amax d a v m sc z _ => some (Claims.coreAtomic d a m sc z .max (t.reg v) 0)
  | .axchg d a v m sc z _ => some (Claims.coreAtomic d a m sc z .xchg (t.reg v) 0)
  | .casC d a v m sc z _ => some (Claims.coreAtomic d a m sc z .cas (t.reg d) (t.reg v))
  | _ => none

/-- What the task keeps of its instruction while its access is under way. -/
def Claims.kept (i : Instr) (off size : Nat) : TaskAccess :=
  match i with
  | .ldC d _ _ _ _ _ _ => { reg := d.toNat, off := off, size := size }
  | .lds d _ _ _ _ _ _ => { reg := d.toNat, off := off, size := size, signed := true }
  | .stC _ _ _ _ _ _ _ => { kind := .st, off := off, size := size }
  | .aadd d _ _ _ _ _ _ => { reg := d.toNat, kind := .atom, off := off, size := size }
  | .amin d _ _ _ _ _ _ => { reg := d.toNat, kind := .atom, off := off, size := size }
  | .amax d _ _ _ _ _ _ => { reg := d.toNat, kind := .atom, off := off, size := size }
  | .axchg d _ _ _ _ _ _ => { reg := d.toNat, kind := .atom, off := off, size := size }
  | .casC d _ _ _ _ _ _ => { reg := d.toNat, kind := .atom, off := off, size := size }
  | _ => {}

/-- The access of a task's memory instruction, from the home and the key that its address has. -/
def Claims.homeAccess (s : State) (t : Task) (x : Claims.CoreAccess) (m : VMode) (h key : Nat) : Access :=
  { block := h / 64, op := x.op (h % 64), mode := m, ret := x.ret, width := x.size, key := key,
    tenant := s.actingTenant t.tenant t.asid, moved := x.size }

/-- A state in which HOME_ACCESS comes to an access that a task is BLOCKED for. -/
abbrev Claims.Meets (z : State) (c k : Nat) (a : TaskAccess) : Prop :=
  (∃ u n, z.focus = .event u n) ∧ (z.task c k).st = .blocked .access ∧ (z.task c k).access = a

/-- No access waits at a home, and no stream waits on a fault record: nothing else moves when an access is performed. -/
abbrev Claims.Still (s : State) : Prop := s.waits = [] ∧ ∀ b : Nat, s.recordWaited b = false

/-- R275, R283: a memory instruction of a task whose address is aligned and translates answers the state in which the task is
BLOCKED for the access, the core let go, and nothing else has changed; HOME_ACCESS, at any state in which the task stands so and the home performs the
access, gives the state the home leaves, with gD written from what the home answered, the pc moved on and the task
RUNNABLE; a store writes no register. -/
def Claims.CoreMemoryAccesses : Prop :=
  ∀ (s : State) (c k : Nat) (i : Instr) (x : Claims.CoreAccess) (m : VMode) (h key : Nat),
    Claims.coreAccess (s.task c k) i = some x → s.focus = .task c k →
    (∀ p, x.dest = some p → (s.task c k).pinned p.1.toNat = false) → x.mode = some m → x.scope.toNat ≤ 4 →
    ((s.task c k).reg x.addr).toNat % x.size = 0 →
    s.taskHome c k (s.task c k) ((s.task c k).reg x.addr).toNat x.kind = .ok (h, key) →
    let held : TaskAccess := { Claims.kept i (h % 64) x.size with
      acc := Claims.homeAccess s (s.task c k) x m h key, va := ((s.task c k).reg x.addr).toNat }
    exec i s = .next ((s.updTask c k fun t => { t with access := held }).block c k .access) ∧
    ∀ (z z' : State) (o : AccessOut), Claims.Meets z c k held → Claims.Still z → z.homeAct held.acc = .done z' o →
      exec (.homeAccess (.taskData c k)) z = .next (z'.updTask c k fun t =>
        { (match x.dest with
           | some (d, f) => t.setReg d (f (h % 64) o)
           | none => t).retire with st := .runnable })

/-- R43, R247, R283: a reserved mode or a scope above 4 takes the Illegal trap, subcode BadField; else a destination that a recipe
pins takes the Recipe trap, subcode Pin; else a misaligned address takes the Bounds trap, subcode Align, with the address as
BADADDR. That Pin comes before Align is the model's choice (log entry 166). -/
def Claims.CoreMemoryTraps : Prop :=
  ∀ (s : State) (c k : Nat) (i : Instr) (x : Claims.CoreAccess),
    Claims.coreAccess (s.task c k) i = some x → s.focus = .task c k →
    let t := s.task c k
    let va := (t.reg x.addr).toNat
    (x.mode = none ∨ 4 < x.scope.toNat → exec i s = .next (s.trap c k 0x0B 0x08 t.pc.toNat 0 t.pc 0)) ∧
    (∀ p, x.dest = some p → t.pinned p.1.toNat = true → x.mode ≠ none → x.scope.toNat ≤ 4 →
      exec i s = .next (s.trap c k 0x0C 0x05 t.pc.toNat 0 t.pc 0)) ∧
    ((∀ p, x.dest = some p → t.pinned p.1.toNat = false) → x.mode ≠ none → x.scope.toNat ≤ 4 → va % x.size ≠ 0 →
      exec i s = .next (s.trap c k 0x0F 0x06 va va t.pc 0))

/-- R41, R217, R283: a store's frame. The instruction changes no byte of memory and no register; when HOME_ACCESS has
performed it, the block that gA translates to reads, under the tenant's key, with the stored bytes at the offset and its
other bytes as before, and its version is one higher; every other block reads as before under every key. -/
def Claims.CoreStoreFrame : Prop :=
  ∀ (s s1 : State) (c k : Nat) (d a v : BitVec 5) (m : BitVec 2) (sc : BitVec 3) (z : BitVec 2) (q : BitVec 1)
    (x : Claims.CoreAccess) (n : VMode) (h key : Nat),
    Claims.coreAccess (s.task c k) (.stC d a v m sc z q) = some x → s.focus = .task c k → x.mode = some n → sc.toNat ≤ 4 →
    ((s.task c k).reg a).toNat % 2 ^ z.toNat = 0 → h % 2 ^ z.toNat = 0 →
    s.taskHome c k (s.task c k) ((s.task c k).reg a).toNat .write = .ok (h, key) →
    exec (.stC d a v m sc z q) s = .next s1 →
    s1.mem = s.mem ∧ s1.blocks = s.blocks ∧ (∀ r : BitVec 5, (s1.task c k).reg r = (s.task c k).reg r) ∧
    ∀ (y y' y'' : State) (o : AccessOut), Claims.Meets y c k (s1.task c k).access → Claims.Still y → cellsWf y.mem = true →
      (∀ p, y.spaceOf (64 * (h / 64)) ≠ .peer p) → y.homeAct (s1.task c k).access.acc = .done y' o →
      exec (.homeAccess (.taskData c k)) y = .next y'' →
      (y''.blockMeta (h / 64)).version = (y.blockMeta (h / 64)).version + 1 ∧
      (∀ i : Nat, i < 64 → (y''.blockBytes (h / 64) key).getD i 0 =
        if h % 64 ≤ i ∧ i < h % 64 + 2 ^ z.toNat then BitVec.ofNat 8 (((s.task c k).reg d).toNat / 256 ^ (i - h % 64))
        else (y.blockBytes (h / 64) key).getD i 0) ∧
      (∀ b : Nat, b ≠ h / 64 → (∀ p, y.spaceOf (64 * b) ≠ .peer p) → ∀ key' : Nat, y''.blockBytes b key' = y.blockBytes b key') ∧
      ∀ r : BitVec 5, (y''.task c k).reg r = (y.task c k).reg r

/-- R228, R284: FENCE completes at a defined scope. RECLAIM and VWAIT answer the state in which the task is BLOCKED for its
access to the block of gA; HOME_ACCESS, where the home performs it, gives gD the number of retained versions freed, and the
version of the block once it has reached the one asked for. -/
def Claims.CoreBlockInstructions : Prop :=
  ∀ (s : State) (c k : Nat) (d a b : BitVec 5) (sc : BitVec 3), Claims.Runs s c k d →
    (sc.toNat ≤ 4 → exec (.fenceC sc) s = .next (s.updTask c k Task.retire)) ∧
    ∀ (i : Instr) (kind : AccKind) (x : TaskAccess) (op : AccessOp) (mode : VMode) (f : AccessOut → Word) (h key : Nat),
      (i, kind, x, op, mode, f) ∈ ([
        (.reclaimC d a b, .write, { reg := d.toNat, kind := .reclaim }, .reclaim (((s.task c k).reg b).setWidth 16), .any,
          fun o => BitVec.ofNat 64 o.freed),
        (.vwaitC d a b, .read, { reg := d.toNat, kind := .vwait }, .probe, .ge (((s.task c k).reg b).setWidth 16),
          fun o => BitVec.ofNat 64 o.ver.toNat)] : List (Instr × AccKind × TaskAccess × AccessOp × VMode × (AccessOut → Word))) →
      s.taskHome c k (s.task c k) ((s.task c k).reg a).toNat kind = .ok (h, key) →
      let held : TaskAccess := { x with
        acc := { block := h / 64, op := op, mode := mode, key := key, tenant := s.actingTenant (s.task c k).tenant (s.task c k).asid, moved := 0 }
        va := ((s.task c k).reg a).toNat }
      exec i s = .next ((s.updTask c k fun t => { t with access := held }).block c k .access) ∧
      ∀ (z z' : State) (o : AccessOut), Claims.Meets z c k held → Claims.Still z → z.homeAct held.acc = .done z' o →
        exec (.homeAccess (.taskData c k)) z = .next (z'.updTask c k fun t => { (t.setReg d (f o)).retire with st := .runnable })

/-- R217, R220: at its home a load at ANY gives the block's bytes and version and changes no block, one at EQ(n) while n is current
and one at GE(n) once n has been reached too; one at EQ(n) of an older version gives the retained copy of it, as it reads under the
reader's key, or fails with VersionGone, subcode Gone, where none is retained; one of a version to come waits. A store at NEXT always
raises the version by 1 (mod 2^16); one at EXP(n) only when the version becomes n, failing with VersionGone, subcode Passed,
once it has passed; the wait of VWAIT at GE(n) ends with the version once it has come, and reads nothing. -/
def Obligations.HomeVersionRules : Prop :=
  ∀ (s : State) (a : Access) (n : BitVec 16), (∃ sd, s.spaceOf (64 * a.block) = .dram sd) →
    (s.blockMeta a.block).poison = false → a.ret = false →
    let v := (s.blockMeta a.block).version
    (a.op = .load → a.mode = .any →
      ∃ s', s.homeAct a = .done s' { bytes := s.blockBytes a.block a.key, ver := v } ∧ s'.mem = s.mem ∧ s'.blocks = s.blocks) ∧
    (∀ bs, a.op = .store bs → a.mode = .next →
      ∃ s' o, s.homeAct a = .done s' o ∧ (s'.blockMeta a.block).version = v + 1) ∧
    (∀ bs, a.op = .store bs → a.mode = .exp n →
      (v + 1 = n → ∃ s' o, s.homeAct a = .done s' o ∧ (s'.blockMeta a.block).version = n) ∧
      (v + 1 ≠ n → (v - n).toNat < 2 ^ 15 → s.homeAct a = .bad 0x05 0x02) ∧
      (v + 1 ≠ n → 2 ^ 15 ≤ (v - n).toNat → s.homeAct a = .wait)) ∧
    (a.op = .probe → a.mode = .ge n → (v - n).toNat < 2 ^ 15 → ∃ s', s.homeAct a = .done s' { ver := v } ∧ s'.mem = s.mem ∧ s'.blocks = s.blocks) ∧
    (a.op = .load → a.mode = .eq n → v = n →
      ∃ s', s.homeAct a = .done s' { bytes := s.blockBytes a.block a.key, ver := n } ∧ s'.mem = s.mem ∧ s'.blocks = s.blocks) ∧
    (a.op = .load → a.mode = .ge n → (v - n).toNat < 2 ^ 15 →
      ∃ s', s.homeAct a = .done s' { bytes := s.blockBytes a.block a.key, ver := v } ∧ s'.mem = s.mem ∧ s'.blocks = s.blocks) ∧
    (a.op = .load → a.mode = .eq n → v ≠ n → (v - n).toNat < 2 ^ 15 →
      (∀ key raw, (s.blockMeta a.block).retained.find? (fun p => p.1 = n) = some (n, key, raw) →
        ∃ s', s.homeAct a = .done s' { bytes := underKey a.block key a.key raw, ver := n } ∧ s'.mem = s.mem ∧ s'.blocks = s.blocks) ∧
      ((∀ p ∈ (s.blockMeta a.block).retained, p.1 ≠ n) → s.homeAct a = .bad 0x05 0x01)) ∧
    (a.op = .load → a.mode = .ge n → 2 ^ 15 ≤ (v - n).toNat → s.homeAct a = .wait) ∧
    (a.op = .load → a.mode = .eq n → 2 ^ 15 ≤ (v - n).toNat → s.homeAct a = .wait)

/-- R226, R283: the new word of an atomic, in integer arithmetic on words below 2^w. -/
def Claims.AtomicWords : Prop :=
  ∀ (w old x y : Nat) (sg : Bool), w = 32 ∨ w = 64 → old < 2 ^ w → x < 2 ^ w → y < 2 ^ w →
    (atomWord .add sg w old x y + 2 ^ w * ((old + x) / 2 ^ w) = old + x) ∧
    atomWord .xchg sg w old x y = x ∧ atomWord .and sg w old x y = old &&& x ∧ atomWord .or sg w old x y = old ||| x ∧
    (old = x → atomWord .cas sg w old x y = y) ∧ (old ≠ x → atomWord .cas sg w old x y = old) ∧
    sval w (atomWord .min true w old x y) = min (sval w old) (sval w x) ∧
    sval w (atomWord .max true w old x y) = max (sval w old) (sval w x) ∧
    atomWord .min false w old x y = min old x ∧ atomWord .max false w old x y = max old x

/-! ### Tasks, VCs and configuration (R286 to R289, R74 to R84) -/

/-- R286: RECV takes the oldest token of a VC bound to the task, with gD its first header word and the task's CTX the
token's; with gA not g0 the token image is stored there first, piece by piece (log entry 20). An empty VC blocks the task,
and a VC that is not bound to it traps. -/
def Claims.ReceiveToken : Prop :=
  ∀ (s : State) (c k n : Nat) (d a b : BitVec 5) (tok : Token) (rest : List Token), Claims.Runs s c k d →
    ((s.task c k).reg b).toNat = n → n < 16 →
    let take (z : State) : State :=
      ((z.setVc c n { z.vc c n with queue := rest }).progressed tok.ctx).updTask c k fun t =>
        ({ t.setReg d (BitVec.ofNat 64 tok.word0) with ctx := tok.ctx } : Task).retire
    ((s.vc c n).bound = some k → (s.vc c n).queue = tok :: rest →
      exec (.recv d 0 b) s = .next (take s) ∧
      (a ≠ 0 → ((s.task c k).reg a).toNat % 16 = 0 →
        (∀ z, s.taskWrite c k ((s.task c k).reg a).toNat tok.image = .ok z → exec (.recv d a b) s = .next (take z)) ∧
        (∀ z, s.taskWrite c k ((s.task c k).reg a).toNat tok.image = .stop z → exec (.recv d a b) s = .next z)) ∧
      (a ≠ 0 → ((s.task c k).reg a).toNat % 16 ≠ 0 →
        exec (.recv d a b) s =
          .next (s.trap c k 0x0F 0x06 ((s.task c k).reg a).toNat ((s.task c k).reg a).toNat (s.task c k).pc 0))) ∧
    ((s.vc c n).bound = some k → (s.vc c n).queue = [] → exec (.recv d 0 b) s = .next (s.block c k (.recv n))) ∧
    ((s.vc c n).bound ≠ some k → exec (.recv d a b) s = .next (s.trap c k 0x0B 0x14 (s.task c k).pc.toNat 0 (s.task c k).pc 0))

/-- R220, R275, R286: an instruction that reads or stores a byte range does it in accesses of one block each (the split is
the model's, log entry 20). One whose home performs it ends with the task RUNNABLE at the same pc, with its piece marked done, holding the
bytes read; a range all of whose pieces are done reads as their bytes in order, and is stored. -/
def Claims.RangeAccesses : Prop :=
  (∀ (z z' : State) (c k : Nat) (x : TaskAccess) (o : AccessOut), x.kind = .range → Claims.Meets z c k x → Claims.Still z →
    z.homeAct x.acc = .done z' o →
    exec (.homeAccess (.taskData c k)) z = .next (z'.updTask c k fun t =>
      { t with
        st := .runnable
        ranged := t.ranged.map fun p =>
          if p.va = x.va ∧ p.size = x.size ∧ p.done = false then
            { p with done := true, bytes := if x.acc.op = .load then slice o.bytes x.off x.size else [] }
          else p })) ∧
  (∀ (s : State) (c k va n : Nat) (bs : List Byte), 1 ≤ n → va % 64 + n ≤ 64 → bs.length = n →
    (s.task c k).ranged = [{ va := va, size := n, done := true, bytes := bs }] →
    s.taskRead c k (s.task c k) va n = .ok bs ∧ s.taskWrite c k va bs = .ok s)

/-- R287: SEND of a well-formed token image for a LIVE context of the task, whose destination lies in that context's
region, puts the token at t0's router port and gives 0; with 8 tokens in the cluster's injection queue the task waits. -/
def Claims.SendToken : Prop :=
  ∀ (s : State) (c k : Nat) (d a : BitVec 5), Claims.Runs s c k d → ((s.task c k).reg a).toNat % 16 = 0 →
    (8 ≤ s.sendQueue c → exec (.send d a) s = .next (s.block c k .send)) ∧
    ∀ (head body : List Byte) (tok : Token) (r : Region), s.sendQueue c < 8 →
      s.taskRead c k (s.task c k) ((s.task c k).reg a).toNat 16 = .ok head →
      s.taskRead c k (s.task c k) (((s.task c k).reg a).toNat + 16) (imageBytes (field head 0 8) - 16) = .ok body →
      bits (field head 0 8) 38 27 = (s.task c k).ctx → tokenOfImage (head ++ body) = some tok →
      (s.ctx (s.task c k).ctx).st = .live → s.ctxRegion (s.task c k).ctx = some r → r.holds tok.destTile = true →
      s.fused tok.destTile = false →
      exec (.send d a) s = .next (Claims.wrote
        { s with net := s.net ++ [{ tok := tok, edge := { tile := tileIn c 0, slot := 34 }, dest := .tile tok.destTile,
                                    place := .source c, sent := s.cycle, since := s.cycle }] } c k d 0)

/-- R286: BIND binds a VC that is free or the task's own and gives 0, gives 1 for another task's, and with bit 4 unbinds the
task's own (0) or gives 2; a value above 31 traps. -/
def Claims.BindChannel : Prop :=
  ∀ (s : State) (c k n : Nat) (d a : BitVec 5), Claims.Runs s c k d → n < 16 →
    let b := (s.vc c n).bound
    (((s.task c k).reg a).toNat = n →
      (b = none ∨ b = some k →
        exec (.bind d a) s = .next (Claims.wrote (s.setVc c n { s.vc c n with bound := some k }) c k d 0)) ∧
      (b ≠ none → b ≠ some k → exec (.bind d a) s = .next (Claims.wrote s c k d 1))) ∧
    (((s.task c k).reg a).toNat = n + 16 →
      (b = some k → exec (.bind d a) s = .next (Claims.wrote (s.setVc c n { s.vc c n with bound := none }) c k d 0)) ∧
      (b ≠ some k → exec (.bind d a) s = .next (Claims.wrote s c k d 2))) ∧
    (32 ≤ ((s.task c k).reg a).toNat → exec (.bind d a) s = .next (s.trap c k 0x0B 0x08 (s.task c k).pc.toNat 0 (s.task c k).pc 0))

/-- R275, R276, R286, R289: SPAWN starts a FREE task at gA with g1 = gB, inheriting TENANT, CTX, PRIV and ASID, and gives
its number; YIELD and SLEEP of 0 leave the task RUNNABLE after them; SLEEP blocks it for gA[31:0] cycles; KILL ends a task
of the same tenant and gives 0, or gives 1; WFI waits until a bound VC holds a token. -/
def Claims.TaskScheduling : Prop :=
  ∀ (s : State) (c k j : Nat) (d a b : BitVec 5), s.focus = .task c k →
    let t := s.task c k
    ((s.cluster c).core.freeTask = some j → j ≠ k → t.pinned d.toNat = false → t.image = none → (t.reg a).toNat % 4 = 0 → t.st = .running →
      exec (.spawn d a b) s = .next (Claims.wrote
        (s.setTask c j { st := .runnable, regs := (List.replicate 32 0).set 1 (t.reg b), pc := t.reg a, tenant := t.tenant,
                         ctx := t.ctx, priv := t.priv, asid := t.asid, spawned := true }) c k d (BitVec.ofNat 64 j))) ∧
    exec .yield s = .next ((s.updTask c k Task.retire).yieldTask c k) ∧
    ((t.reg a).toNat % 2 ^ 32 = 0 → exec (.sleep a) s = exec .yield s) ∧
    ((t.reg a).toNat % 2 ^ 32 ≠ 0 → exec (.sleep a) s = .next (s.block c k (.sleep (s.cycle + (t.reg a).toNat % 2 ^ 32)))) ∧
    (j < 8 → j ≠ k → t.pinned d.toNat = false → (t.reg a).toNat = j →
      exec (.kill d a) s = .next
        (if (s.task c j).st ≠ .free ∧ (s.task c j).tenant = t.tenant then Claims.wrote (s.endTask c j) c k d 0
         else Claims.wrote s c k d 1)) ∧
    ((t.reg a).toNat = k → k < 8 → exec (.kill d a) s = .next (s.endTask c k)) ∧
    exec .wfi s = .next (if (s.cluster c).core.vcPend k = 0 then s.block c k .wfi else s.updTask c k Task.retire)

/-- R323 to R325: HALT freezes a LIVE context (0), or with bit 12 resumes one that a HALT froze (0); one that a fault
froze gives 3, and any other context 1. BELL rings a LIVE context's bells and waits; QUIESCE waits on a LIVE or FROZEN one. A
context of another tenant gives 2 to a task without PRIV, in all three, and nothing else changes. -/
def Claims.ContextControl : Prop :=
  ∀ (s : State) (c k n : Nat) (d a : BitVec 5), Claims.Runs s c k d → n < 4096 →
    let mine := (s.task c k).priv = true ∨ (s.ctx n).tenant = (s.task c k).tenant
    (¬ mine →
      (((s.task c k).reg a).toNat = n ∨ ((s.task c k).reg a).toNat = n + 4096 →
        exec (.halt d a) s = .next (Claims.wrote s c k d 2)) ∧
      (((s.task c k).reg a).toNat = n →
        exec (.bell d a) s = .next (Claims.wrote s c k d 2) ∧ exec (.quiesce d a) s = .next (Claims.wrote s c k d 2))) ∧
    (mine → ((s.task c k).reg a).toNat = n →
      exec (.halt d a) s = .next
        (if (s.ctx n).st = .live then Claims.wrote (s.updCtx n fun x => { x with st := .frozen, why := .halt }) c k d 0
         else if (s.ctx n).st = .frozen ∧ (s.ctx n).why = .fault then Claims.wrote s c k d 3
         else Claims.wrote s c k d 1) ∧
      exec (.bell d a) s = .next
        (if (s.ctx n).st = .live then
           (if (s.ctx n).bell = none then s.ringBells n false else s).block c k (.bell n d.toNat)
         else Claims.wrote s c k d 1) ∧
      exec (.quiesce d a) s = .next
        (if (s.ctx n).st = .live then s.block c k (.quiesce n d.toNat (some s.cycle))
         else if (s.ctx n).st = .frozen then s.block c k (.quiesce n d.toNat none)
         else Claims.wrote s c k d 1)) ∧
    (mine → ((s.task c k).reg a).toNat = n + 4096 →
      exec (.halt d a) s = .next
        (if (s.ctx n).st = .frozen ∧ (s.ctx n).why = .halt then Claims.wrote (s.unfreeze n) c k d 0
         else if (s.ctx n).st = .frozen ∧ (s.ctx n).why = .fault then Claims.wrote s c k d 3
         else Claims.wrote s c k d 1))

/-- R273: a configuration instruction of a task without CFG takes the Protection trap, subcode Cfg. -/
def Claims.ConfigurationNeedsCfg : Prop :=
  ∀ (s : State) (c k : Nat) (d a b : BitVec 5), s.focus = .task c k → (s.task c k).cfg = false →
    ∀ i ∈ [Instr.cfgw d a b, .cfgmc d a b, .cfgcrc d a, .cfgcom d, .cfgrb d, .place d a b],
      exec i s = .next (s.trap c k 0x07 0x07 (s.task c k).pc.toNat 0 (s.task c k).pc 0)

/-- A task with CFG runs the instruction. -/
abbrev Claims.Configures (s : State) (c k : Nat) (d : BitVec 5) : Prop := Claims.Runs s c k d ∧ (s.task c k).cfg = true

/-- The state in which a configuration instruction or SIGCHK has given its result (R371): gD written, the pc moved on, and the
task BLOCKED for n cycles (that the effect stands at once is the model's, log entry 171). -/
def Claims.resulted (z : State) (c k : Nat) (d : BitVec 5) (v : Word) (n : Nat) : State :=
  (Claims.wrote z c k d v).block c k (.config (z.cycle + n))

/-- R76 to R82, R371: within the task's session CFGW stages a block for a tile, or gives the status of the first check that the
block fails, 0x02 for a reserved bit of gA among them (log entry 143); CFGCRC gives a staged block's CRC, whatever gA's other bits (log entry 145); CFGCOM commits, having
read the image's LENGTH bytes (log entry 146), and gives the number of staged blocks. Without a session CFGW gives status 0x12, CFGMC too, with x and y zero (log entry
144), CFGCRC its failure form, and CFGCOM changes nothing and gives 0x12 in the failure form of PLACE. PLACE, where the placer can take it (R74), opens a session by search or at a fixed rectangle, a reserved bit of
gA giving 0x02, and with a session gives 0x13 before its header is read (log entry 147). The task is BLOCKED for the cycles of R371. -/
def Claims.ConfigurationSessions : Prop :=
  ∀ (s : State) (c k : Nat) (d a b : BitVec 5), Claims.Configures s c k d →
    let t := s.task c k
    let v := (t.reg a).toNat
    let va := (t.reg b).toNat
    let tile := tileOf (bits v 6 0) (bits v 13 8)
    let open_ := s.dean.placedAt ≠ s.cycle ∨ s.dean.placedBy ≤ c
    let z := s.setDean { s.dean with placedAt := s.cycle, placedBy := c }
    let one := 40 + 3 * farthest c [tile]
    let all (x : Session) := 40 + x.w * x.h + 3 * farthest c x.tiles
    (s.session c k = none →
      exec (.cfgw d a b) s = .next (Claims.resulted s c k d 0x12 one) ∧ exec (.cfgmc d a b) s = .next (Claims.resulted s c k d 0x12 40) ∧
      exec (.cfgcrc d a) s = .next (Claims.resulted s c k d 0xFFFFFFFF00000000 one) ∧
      exec (.cfgcom d) s = .next (Claims.resulted s c k d 0x8000000000000012 40) ∧
      ∀ h, open_ → s.taskRead c k t va hdrBytes = .ok h →
        (hdrOk h = true → v = 0 → exec (.place d a b) s = .next (Claims.resulted (z.placeSearch c k va h).2 c k d
          (BitVec.ofNat 64 (z.placeSearch c k va h).1) (40 + s.examined (s.placer c k) h))) ∧
        (hdrOk h = true → bit v 63 = true → v &&& 0x800000007FFF3F7F = v →
          exec (.place d a b) s = .next (Claims.resulted (z.placeFixed c k va v h).2 c k d (BitVec.ofNat 64 (z.placeFixed c k va v h).1) 40)) ∧
        (hdrOk h = false ∨ (bit v 63 = false ∧ v ≠ 0) ∨ (bit v 63 = true ∧ v &&& 0x800000007FFF3F7F ≠ v) →
          exec (.place d a b) s = .next (Claims.resulted s c k d 0x8000000000000002 40))) ∧
    (∀ x, s.session c k = some x →
      (v &&& 0x3F7F3F7F ≠ v → exec (.cfgw d a b) s = .next (Claims.resulted s c k d 0x02 one)) ∧
      (∀ h bs, v &&& 0x3F7F3F7F = v → x.holds tile = true → s.fused tile = false → va % 16 = 0 → s.readBlock c k t va = .ok (h, bs) →
        (∀ st, x.blockFits (bits v 6 0) (bits v 13 8) h bs = st → st ≠ 0 →
          exec (.cfgw d a b) s = .next (Claims.resulted s c k d (BitVec.ofNat 64 st) (one + (16 + bs.length) / 16))) ∧
        (∀ fx, x.blockFits (bits v 6 0) (bits v 13 8) h bs = 0 → s.readFixes c k t x = .ok fx →
          exec (.cfgw d a b) s = .next (Claims.resulted (s.stage c k tile (bits v 22 16) (bits v 29 24) h bs fx) c k d 0
            (one + (16 + bs.length) / 16)))) ∧
      (∀ y, x.staged.find? (fun y => y.tile = tile) = some y →
        exec (.cfgcrc d a) s = .next (Claims.resulted s c k d (BitVec.ofNat 64 y.crc) one)) ∧
      (∀ bs, s.taskRead c k t x.addr (hdrLength x.header) = .ok bs →
        exec (.cfgcom d) s = .next (Claims.resulted (s.commit x (s.actingTenant t.tenant t.asid) t.asid bs) c k d
          (BitVec.ofNat 64 x.staged.length) (all x))) ∧
      (open_ → exec (.place d a b) s = .next (Claims.resulted s c k d (BitVec.ofNat 64 (placeFailed 0x13)) 40)))

/-- R78, R371: CFGMC with a list of 1 to 64 rectangles, each of two corners in order, stages the block for every tile of them,
rectangle by rectangle, row by row; where the first tile fails a check before the block is read, it gives that status and
the tile's coordinates and stages nothing. -/
def Claims.MulticastConfiguration : Prop :=
  ∀ (s : State) (c k n : Nat) (d a b : BitVec 5) (x : Session) (w list : List Byte),
    Claims.Configures s c k d → s.session c k = some x →
    s.taskRead c k (s.task c k) ((s.task c k).reg a).toNat 4 = .ok w → field w 0 4 = n → 1 ≤ n → n ≤ 64 →
    s.taskRead c k (s.task c k) (((s.task c k).reg a).toNat + 4) (4 * n) = .ok list →
    (∀ i < n, field list (4 * i) 1 ≤ field list (4 * i + 2) 1 ∧ field list (4 * i + 1) 1 ≤ field list (4 * i + 3) 1) →
    let va := ((s.task c k).reg b).toNat
    let tiles := (List.range n).flatMap fun i =>
      (tagsOf (field list (4 * i + 1) 1) (field list (4 * i + 3) 1 + 1)).flatMap fun py =>
        (tagsOf (field list (4 * i) 1) (field list (4 * i + 2) 1 + 1)).map fun px => (px, py)
    let p := tiles.headD (0, 0)
    let early := s.placeStatus x p.1 p.2 va
    let far := 40 + 3 * farthest c (tiles.map fun p => tileOf p.1 p.2)
    (early ≠ 0 → exec (.cfgmc d a b) s = .next (Claims.resulted s c k d
      (BitVec.ofNat 64 (early + 256 * (p.1 % 128) + 65536 * (p.2 % 64))) far)) ∧
    (∀ h bs fx, early = 0 → s.readBlock c k (s.task c k) va = .ok (h, bs) → x.blockFits p.1 p.2 h bs = 0 →
      s.readFixes c k (s.task c k) x = .ok fx →
      exec (.cfgmc d a b) s = .next
        (let r := State.writeTiles c k va h bs fx s tiles
         Claims.resulted r.2 c k d (BitVec.ofNat 64 r.1) (far + (16 + bs.length) / 16 +
           (if r.1 = 0 then tiles.length else tiles.findIdx fun p => p.1 % 128 = bits r.1 14 8 && p.2 % 64 = bits r.1 21 16))))

/-- R84, R371: SIGCHK gives the status of the signature of the image at gA under the key slot gB[2:0], and 4 where there is no
image, the task BLOCKED for 20,000 cycles and one for each two bytes of image. -/
def Claims.SignatureChecks : Prop :=
  ∀ (s : State) (c k : Nat) (d a b : BitVec 5), Claims.Runs s c k d →
    let v := ((s.task c k).reg a).toNat
    ∀ h, s.taskRead c k (s.task c k) v 32 = .ok h →
      (field h 0 4 ≠ hdrMagic ∨ field h 0x1C 4 < 256 → exec (.sigchk d a b) s = .next (Claims.resulted s c k d 4 20000)) ∧
      (field h 0 4 = hdrMagic → 256 ≤ field h 0x1C 4 → ∀ bs, s.taskRead c k (s.task c k) (v + 32) (field h 0x1C 4 - 32) = .ok bs →
        exec (.sigchk d a b) s = .next
          (Claims.resulted s c k d (BitVec.ofNat 64 (s.sigStatus (h ++ bs) (((s.task c k).reg b).toNat % 8))) (20000 + field h 0x1C 4 / 2)))

/-! ### Engine commands and recipes of a task (R200, R183, R247, R259) -/

/-- A task that may issue an engine command: its context is LIVE (R277), and no recipe pins gD. -/
abbrev Claims.Issues (s : State) (c k : Nat) (d : BitVec 5) : Prop :=
  Claims.Runs s c k d ∧ (s.task c k).ctx ≠ 0xFFF ∧ (s.ctx (s.task c k).ctx).st = .live

/-- The state in which an engine command of a task has issued: gD is pending and the pc has moved on. -/
def Claims.issued (s : State) (c k : Nat) (d : BitVec 5) : State :=
  s.updTask c k fun t =>
    { t with pc := t.pc + 4, instret := t.instret + 1, ranged := [],
             score := if d = 0 then t.score else t.score ||| BitVec.ofNat 32 (2 ^ d.toNat) }

/-- R277, R200, R183, R259: an engine command of a task whose context is LIVE, with room in the engine's queue, marks gD
pending and is accepted by its engine under the task's context, tenant and ASID. R43, R41: a reserved SCOPE code, and for
GATHER a nonzero bit of gB above bit 0, raise Illegal, subcode BadField, and nothing is issued: that R43's reserved values include
an E word's SCOPE (log entry 127), and whose ASID, tenant and PRIV a task's command has (log entry 78), are the model's. -/
def Claims.EngineCommands : Prop :=
  ∀ (s : State) (c k : Nat) (d a b : BitVec 5) (q r : BitVec 1) (sc : BitVec 3) (f : BitVec 1), Claims.Issues s c k d →
    let t := s.task c k
    let va := (t.reg a).toNat
    let z := Claims.issued s c k d
    let cmd : StreamCmd := { src := .task c k d.toNat, ctx := t.ctx, tenant := s.actingTenant t.tenant t.asid, asid := t.asid, priv := t.priv }
    let bad := s.trap c k 0x0B 0x08 t.pc.toNat 0 t.pc 0
    (sc.toNat ≤ 4 →
      ((s.cluster c).streamer.queue.length < 16 →
        exec (.copyC d a q r sc f) s = .next (z.acceptStream c va { cmd with follow := f = 1 }) ∧
        ((t.reg b).toNat < 2 →
          exec (.gatherC d a b q r sc f) s = .next
            (z.acceptStream c va { cmd with op := .gather, follow := f = 1, signed := (t.reg b).toNat = 0 }))) ∧
      exec (.armC d a q r sc) s = .next (z.acceptArm c va cmd) ∧
      ((s.cluster c).array.queue.length < 8 →
        exec (.mmaC d a q sc) s = .next (z.queueArray c
          { op := .mma, desc := va, handle := z.peekHandle c va, src := .task c k d.toNat, ctx := t.ctx,
            tenant := s.actingTenant t.tenant t.asid, fmt := 32 })) ∧
      ((s.cluster c).registrar.queue.length < 4 →
        exec (.aucgoC d a q sc) s = .next (z.queueReg c
          { op := .aucgo, desc := va, src := .task c k d.toNat, ctx := t.ctx, tenant := s.actingTenant t.tenant t.asid }))) ∧
    (4 < sc.toNat → exec (.copyC d a q r sc f) s = .next bad ∧ exec (.armC d a q r sc) s = .next bad ∧
      exec (.mmaC d a q sc) s = .next bad ∧ exec (.aucgoC d a q sc) s = .next bad) ∧
    (4 < sc.toNat ∨ 2 ≤ (t.reg b).toNat → exec (.gatherC d a b q r sc f) s = .next bad) ∧
    exec (.disarmC d a) s = .next (z.acceptDisarm c va cmd) ∧
    ((s.cluster c).registrar.queue.length < 4 →
      exec (.aucgetC d) s = .next (z.queueReg c
        { op := .aucget, src := .task c k d.toNat, ctx := t.ctx, tenant := s.actingTenant t.tenant t.asid }))

/-- R200: RESUME of an AGN that a translation fault stalls, of the task's own tenant, lets it go on and gives 0; one that is
not stalled gives 1, and another tenant's 2. A nonzero bit of gA outside its fields is Illegal, subcode BadField. -/
def Claims.ResumeStream : Prop :=
  ∀ (s : State) (c k : Nat) (d a : BitVec 5), Claims.Runs s c k d →
    let t := s.task c k
    ((t.reg a).toNat &&& 0x701FF ≠ (t.reg a).toNat → exec (.resume d a) s = .next (s.trap c k 0x0B 0x08 t.pc.toNat 0 t.pc 0)) ∧
    ∀ u n : Nat, u < 512 → n < 8 → (t.reg a).toNat = u + 2 ^ 16 * n →
    let g := assocGet {} (s.cluster u).streamer.agns n
    let stalled := assocHas (s.cluster u).streamer.agns n = true ∧ g.stall = .resume
    exec (.resume d a) s = .next
      (if ¬ stalled then Claims.wrote s c k d 1
       else if g.cmd.tenant ≠ s.actingTenant (s.task c k).tenant (s.task c k).asid then Claims.wrote s c k d 2
       else Claims.wrote (s.updAgn u n fun x =>
         { x with stall := .none, idxBytes := if x.idxBytes.length < 4 * x.cmd.d.nidx then [] else x.idxBytes }) c k d 0)

/-- R247: RTAG of a register that no recipe pins, with a recipe already held (gA = g0), writes the recipe's value and tags
gD with it; RUNTAG keeps gD's value and drops its tag. Here no register of the task is lost (R248). RUNTAG of g0 is BadField, and of a
pinned register Recipe, subcode Pin. -/
def Claims.RecipeTags : Prop :=
  ∀ (s : State) (c k ix : Nat) (d b : BitVec 5) (v : Word), Claims.Runs s c k d → (s.task c k).dirty = [] →
    (d ≠ 0 → ix < 8 → ((s.task c k).reg b).toNat = ix →
      let ws := (s.task c k).recipes.getD ix []
      recipeOk d ws = true → ((recipeSources d.toNat ws).all fun r => !(s.task c k).pending (BitVec.ofNat 5 r)) = true →
      s.evalRecipe c k (s.task c k) d false 0 (recipeInstrs (ws.take 4)) = .ok v →
      exec (.rtag d 0 b) s = .next (s.updTask c k fun t =>
        ({ t.setReg d v with recipes := t.recipes.set ix (ws.take 4),
                             tags := (t.setReg d v).tags ++ [(d.toNat, ix)] } : Task).retire)) ∧
    (d ≠ 0 →
      exec (.runtag d) s = .next (s.updTask c k fun t => ({ t with tags := t.tags.filter fun g => g.1 ≠ d.toNat } : Task).retire)) ∧
    exec (.runtag 0) s = .next (s.trap c k 0x0B 0x08 (s.task c k).pc.toNat 0 (s.task c k).pc 0) ∧
    ∀ e : BitVec 5, e ≠ 0 → (s.task c k).pinned e.toNat = true →
      exec (.runtag e) s = .next (s.trap c k 0x0C 0x05 (s.task c k).pc.toNat 0 (s.task c k).pc 0)

/-! ## Element-wise fabric instructions (R145 to R157) -/

/-- An operand that holds every element of the pairing, in a format (no FAULT). -/
abbrev Claims.Full (a : Token) (p : Pairing) : Prop := a.act ≠ .fault ∧ ∀ i < p.len, a.has i = true

/-- An element-wise instruction: its slot word, whether it reads Rt, the formats that L and a token Rt may have (R145),
the result's format, the scale rule (R147: none for a constant Rt), its class of R143, and its element with its flags, from
the mode word, the operands' scales, K and the two elements. -/
structure Claims.Element where
  w     : DWord
  two   : Bool := true
  fmts  : Nat → Bool
  left  : Nat → Bool
  right : Nat → Bool
  out   : Fmt
  scale : Int → Option Int → Option Int
  cls   : Hold := .simple
  value : (mode : Nat) → (sl sr : Int) → (k a b : Nat) → Nat × Nat

/-- The right element at index i: Rt's, the constant at the slot's width, or nothing read. -/
def Claims.rightElem (s : State) (t : Nat) (p : Pairing) (w : DWord) (i : Nat) : Nat :=
  if w.kr = 1 then s.konst t w.kidx.toNat % 2 ^ fmtBits w.fmt.toNat else p.right.elem i

/-- A run with every element present, for all targets of a slot. -/
def Claims.fullRun (p : Pairing) (out : Fmt) (scale : Int) (vals : List Nat) : Token :=
  { act := .normal, fmt := out, len := vals.length, scale := BitVec.ofInt 8 scale, ctx := p.ctx, itag := p.itag,
    mask := BitVec.ofNat 32 (2 ^ vals.length - 1), data := vals.map (BitVec.ofNat 64) }

/-- What a firing sends where a run of n tags from its pairing's ITAG stays within the last tag; where it would pass it,
the one record and the FAULT tokens of TagWrap in its place (R17). -/
def Claims.sentTo (z : State) (t : Nat) (p : Pairing) (ts : List (Nat × BitVec 18)) (fmt : Fmt) (n : Nat) (outs : List Out) : State :=
  if p.itag.toNat + n ≤ 2 ^ 32 then z.emit t p.slot p.ctx p.itag.toNat outs
  else z.slotFault t p.slot p.ctx ts fmt p.itag p.len p.itag.toNat 0x0B 0x05 0 0 0

/-- The state after a firing that holds its tile for some cycles, ORs flags into its context's mode word (R133), and emits
one token to every target (R35), or raises TagWrap in its place. -/
def Claims.emits (s : State) (t : Nat) (p : Pairing) (w : DWord) (held flags : Nat) (tok : Token) : State :=
  let ts := s.targets t w.nt w.t1 w.t0
  Claims.sentTo ((s.hold t held).addFlags p.ctx flags) t p ts tok.fmt tok.len (toAll ts tok)

/-- The claim of an element-wise instruction on operands that hold every element. -/
def Claims.Computes (i : Instr) (e : Claims.Element) : Prop :=
  ∀ (s : State) (t : Nat) (p : Pairing) (sc : Int),
    s.focus = .firing t p → 0 < p.len → p.len ≤ 32 → e.fmts e.w.fmt.toNat = true →
    Claims.Full p.left p → e.left p.left.fmt.toNat = true →
    (e.two = true → e.w.kr = 0 → Claims.Full p.right p ∧ e.right p.right.fmt.toNat = true) →
    e.scale p.left.scale.toInt (if e.two = true ∧ e.w.kr = 0 then some p.right.scale.toInt else none) = some sc →
    let r := (List.range p.len).map fun j =>
      e.value (s.ctx p.ctx).mode.toNat p.left.scale.toInt (if e.w.kr = 1 then 0 else p.right.scale.toInt)
        (s.konst t e.w.kidx.toNat) (p.left.elem j) (if e.two then Claims.rightElem s t p e.w j else 0)
    exec i s = .next (Claims.emits s t p e.w (e.cls.cycles e.w.fmt.toNat p.len) (r.foldr (fun x n => x.2 ||| n) 0)
      (Claims.fullRun p e.out sc (r.map fun x => x.1)))

/-! ### Scale rules (R147) -/

def Claims.scLeft (l : Int) (_ : Option Int) : Option Int := some l
def Claims.scEq (l : Int) : Option Int → Option Int
  | some r => if r = l then some l else none
  | none => some l
def Claims.scEqZero (l : Int) : Option Int → Option Int
  | some r => if r = l then some 0 else none
  | none => some 0
def Claims.scSum (more l : Int) (r : Option Int) : Option Int :=
  let z := l + r.getD 0 + more
  if -128 ≤ z ∧ z ≤ 127 then some z else none
def Claims.scDiff (l : Int) (r : Option Int) : Option Int :=
  let z := l - r.getD 0
  if -128 ≤ z ∧ z ≤ 127 then some z else none
def Claims.scZero (_ : Int) (_ : Option Int) : Option Int := some 0

/-! ### Integers (R149, R150) -/

/-- The integer of n bits in a format, and the bits of an integer. -/
def Claims.int (f x : Nat) : Int := if fmtSigned f ∧ 2 ^ (fmtBits f - 1) ≤ x then (x : Int) - 2 ^ fmtBits f else x
def Claims.wrap (f : Nat) (z : Int) : Nat := (z % 2 ^ fmtBits f).toNat

/-- A binary integer instruction on elements reduced to the slot's width. -/
def Claims.intTwo (w : DWord) (scale : Int → Option Int → Option Int) (f : (k x y : Nat) → Nat) (cls : Hold := .simple) :
    Claims.Element :=
  { w := w, fmts := fmtInt, left := fun g => g = w.fmt.toNat, right := fun g => g = w.fmt.toNat, out := w.fmt, scale := scale, cls := cls,
    value := fun _ _ _ k a b => (f k (a % 2 ^ fmtBits w.fmt.toNat) (b % 2 ^ fmtBits w.fmt.toNat), 0) }
def Claims.intOne (w : DWord) (scale : Int → Option Int → Option Int) (f : (k x : Nat) → Nat) : Claims.Element :=
  { w := w, two := false, fmts := fmtInt, left := fun g => g = w.fmt.toNat, right := fun _ => true, out := w.fmt, scale := scale,
    value := fun _ _ _ k a _ => (f k (a % 2 ^ fmtBits w.fmt.toNat), 0) }
def Claims.shift (w : DWord) (f : (n x a : Nat) → Nat) : Claims.Element :=
  { w := w, fmts := fmtInt, left := fun g => g = w.fmt.toNat, right := fmtInt, out := w.fmt, scale := Claims.scLeft,
    value := fun _ _ _ _ a b => (f (fmtBits w.fmt.toNat) (a % 2 ^ fmtBits w.fmt.toNat) b, 0) }

/-- The arithmetic instructions: results mod 2^w, quotients truncated, all ones and L for a zero divisor, saturation. -/
def Claims.arithmetic : Instr → Option Claims.Element
  | .add w => some (Claims.intTwo w Claims.scEq fun _ x y => (x + y) % 2 ^ fmtBits w.fmt.toNat)
  | .sub w => some (Claims.intTwo w Claims.scEq fun _ x y => (x + 2 ^ fmtBits w.fmt.toNat - y) % 2 ^ fmtBits w.fmt.toNat)
  | .mul w => some (Claims.intTwo w (Claims.scSum 0) (fun _ x y => x * y % 2 ^ fmtBits w.fmt.toNat) .multiply)
  | .mulh w => some (Claims.intTwo w (Claims.scSum (fmtBits w.fmt.toNat))
      (fun _ x y => Claims.wrap w.fmt.toNat (Claims.int w.fmt.toNat x * Claims.int w.fmt.toNat y / 2 ^ fmtBits w.fmt.toNat)) .multiply)
  | .div w => some (Claims.intTwo w Claims.scDiff
      (fun _ x y => if y = 0 then 2 ^ fmtBits w.fmt.toNat - 1
        else Claims.wrap w.fmt.toNat ((Claims.int w.fmt.toNat x).tdiv (Claims.int w.fmt.toNat y))) .divide)
  | .rem w => some (Claims.intTwo w Claims.scLeft
      (fun _ x y => if y = 0 then x else Claims.wrap w.fmt.toNat ((Claims.int w.fmt.toNat x).tmod (Claims.int w.fmt.toNat y))) .divide)
  | .min w => some (Claims.intTwo w Claims.scEq fun _ x y => if Claims.int w.fmt.toNat x ≤ Claims.int w.fmt.toNat y then x else y)
  | .max w => some (Claims.intTwo w Claims.scEq fun _ x y => if Claims.int w.fmt.toNat x ≤ Claims.int w.fmt.toNat y then y else x)
  | .abs w => some (Claims.intOne w Claims.scLeft fun _ x => if Claims.int w.fmt.toNat x < 0 then 2 ^ fmtBits w.fmt.toNat - x else x)
  | .neg w => some (Claims.intOne w Claims.scLeft fun _ x => (2 ^ fmtBits w.fmt.toNat - x) % 2 ^ fmtBits w.fmt.toNat)
  | .cmp w => some (Claims.intTwo w Claims.scEqZero fun _ x y =>
      let a := Claims.int w.fmt.toNat x
      let b := Claims.int w.fmt.toNat y
      if (w.mod = 0 ∧ a = b) ∨ (w.mod = 1 ∧ a ≠ b) ∨ (w.mod = 2 ∧ a < b) ∨ (w.mod = 3 ∧ a ≤ b) ∨ (w.mod = 4 ∧ b < a) ∨
         (w.mod = 5 ∧ b ≤ a) then 1 else 0)
  | .adds w => some (Claims.intTwo w Claims.scEq fun _ x y =>
      Claims.wrap w.fmt.toNat (max (intRange w.fmt.toNat).1 (min (intRange w.fmt.toNat).2 (Claims.int w.fmt.toNat x + Claims.int w.fmt.toNat y))))
  | .subs w => some (Claims.intTwo w Claims.scEq fun _ x y =>
      Claims.wrap w.fmt.toNat (max (intRange w.fmt.toNat).1 (min (intRange w.fmt.toNat).2 (Claims.int w.fmt.toNat x - Claims.int w.fmt.toNat y))))
  | .madk w => some (Claims.intTwo w (Claims.scSum 0) (fun k x y => (x * y + k) % 2 ^ fmtBits w.fmt.toNat) .multiply)
  | .agen w => some
      { w := w, fmts := fmtInt, left := fun g => g = 30, right := fun g => g = w.fmt.toNat, out := 30, scale := Claims.scZero,
        value := fun _ _ _ k a b =>
          ((((a : Int) + Claims.int w.fmt.toNat (b % 2 ^ fmtBits w.fmt.toNat) * sval 64 k) % 2 ^ 64).toNat, 0) }
  | _ => none

/-- R149, R150: the integer arithmetic instructions compute their element from each pair of elements. -/
def Claims.IntegerArithmetic : Prop :=
  ∀ (i : Instr) (e : Claims.Element), Claims.arithmetic i = some e → (∀ w, i = .agen w → w.kr = 0) → Claims.Computes i e

/-- The bit instructions. -/
def Claims.bitwise : Instr → Option Claims.Element
  | .and w => some (Claims.intTwo w Claims.scLeft fun _ x y => x &&& y)
  | .or w => some (Claims.intTwo w Claims.scLeft fun _ x y => x ||| y)
  | .xor w => some (Claims.intTwo w Claims.scLeft fun _ x y => x ^^^ y)
  | .andn w => some (Claims.intTwo w Claims.scLeft fun _ x y => x &&& (2 ^ fmtBits w.fmt.toNat - 1 - y))
  | .not w => some (Claims.intOne w Claims.scLeft fun _ x => 2 ^ fmtBits w.fmt.toNat - 1 - x)
  | .shl w => some (Claims.shift w fun n x a => if n ≤ a then 0 else x * 2 ^ a % 2 ^ n)
  | .shr w => some (Claims.shift w fun n x a => if n ≤ a then 0 else x / 2 ^ a)
  | .sar w => some (Claims.shift w fun n x a => ((sval n x / 2 ^ min a (n - 1)) % 2 ^ n).toNat)
  | .rol w => some (Claims.shift w fun n x a => (x * 2 ^ (a % n) % 2 ^ n) + x / 2 ^ (n - a % n))
  | .clz w => some (Claims.intOne w Claims.scZero fun _ x => if x = 0 then fmtBits w.fmt.toNat else fmtBits w.fmt.toNat - 1 - Nat.log2 x)
  | .popc w => some (Claims.intOne w Claims.scZero fun _ x => (List.range (fmtBits w.fmt.toNat)).countP fun i => x.testBit i)
  | .bfx w => some (Claims.intOne w Claims.scLeft fun k x =>
      let wid : Nat := k / 2 ^ 8 % 2 ^ 7
      let v : Nat := x / 2 ^ (k % 2 ^ 6) % 2 ^ wid
      if k.testBit 16 ∧ 0 < wid ∧ v.testBit (wid - 1) then (((v : Int) - (2 ^ wid : Nat)) % (2 ^ fmtBits w.fmt.toNat : Nat)).toNat
      else v % 2 ^ fmtBits w.fmt.toNat)
  | .plane w => some
      { w := w, fmts := fun _ => true, left := fun g => g = w.fmt.toNat, right := fmtInt, out := w.fmt, scale := Claims.scZero,
        value := fun _ _ _ _ a b => (a / 2 ^ (b % fmtBits w.fmt.toNat) % 2, 0) }
  | _ => none

/-- R149, R157: the bit instructions compute their element from each pair of elements; a shift by the width or more gives
0, or the sign in every bit for SAR. -/
def Claims.IntegerBits : Prop :=
  ∀ (i : Instr) (e : Claims.Element), Claims.bitwise i = some e → Claims.Computes i e

/-! ### Floating point (R151 to R157) -/

/-- A float instruction whose exact value is rounded once (R151): `f` gives the exact value with its flags. -/
def Claims.rounded (w : DWord) (f : (rm : Nat) → (k l r : Val) → Val × Nat) : Claims.Element :=
  { w := w, fmts := fun _ => true, left := fun g => g = w.fmt.toNat, right := fun g => g = w.fmt.toNat, out := w.fmt, scale := Claims.scZero,
    cls := .multiply,
    value := fun mode sl sr k a b =>
      let g := floatFmt w.fmt.toNat
      let rm := if w.mod = 5 then mode % 8 else w.mod.toNat
      let v := f rm (floatVal g (k % 2 ^ fmtBits w.fmt.toNat) 0 mode) (floatVal g a sl mode) (floatVal g b sr mode)
      let r := roundVal g rm mode v.1
      (r.1, v.2 ||| r.2) }

/-- A float instruction that computes its bits and flags from the values of its elements. -/
def Claims.float (w : DWord) (two : Bool) (cls : Hold) (scale : Int → Option Int → Option Int)
    (f : (g : FloatFmt) → (rm mode : Nat) → (sl sr : Int) → (a b : Nat) → Nat × Nat) : Claims.Element :=
  { w := w, two := two, fmts := fun _ => true, left := fun g => g = w.fmt.toNat, right := fun g => g = w.fmt.toNat, out := w.fmt,
    scale := scale, cls := cls,
    value := fun mode sl sr _ a b => f (floatFmt w.fmt.toNat) (if w.mod = 5 then mode % 8 else w.mod.toNat) mode sl sr a b }

def Claims.floating : Instr → Option Claims.Element
  | .fadd w => some (Claims.rounded w fun rm _ l r => valAdd rm l r)
  | .fsub w => some (Claims.rounded w fun rm _ l r => valAdd rm l (valNeg r))
  | .fmul w => some (Claims.rounded w fun _ _ l r => valMul l r)
  | .fmak w => some (Claims.rounded w fun rm k l r => ((valAdd rm (valMul l r).1 k).1, (valMul l r).2 ||| (valAdd rm (valMul l r).1 k).2))
  | .fnmsk w => some (Claims.rounded w fun rm k l r =>
      ((valAdd rm k (valNeg (valMul l r).1)).1, (valMul l r).2 ||| (valAdd rm k (valNeg (valMul l r).1)).2))
  | .fdiv w => some (Claims.float w true .divide Claims.scZero fun g rm mode sl sr a b =>
      floatDiv g rm mode (floatVal g a sl mode) (floatVal g b sr mode))
  | .fsqrt w => some (Claims.float w false .divide Claims.scZero fun g rm mode sl _ a _ => floatSqrt g rm mode (floatVal g a sl mode))
  | .fmin w => some (Claims.float w true .simple Claims.scEq fun g _ mode _ _ a b =>
      floatMinMax g false a b (floatVal g a 0 mode) (floatVal g b 0 mode))
  | .fmax w => some (Claims.float w true .simple Claims.scEq fun g _ mode _ _ a b =>
      floatMinMax g true a b (floatVal g a 0 mode) (floatVal g b 0 mode))
  | .fabs w => some (Claims.float w false .simple Claims.scLeft fun _ _ _ _ _ a _ => (a % 2 ^ (fmtBits w.fmt.toNat - 1), 0))
  | .fneg w => some (Claims.float w false .simple Claims.scLeft fun _ _ _ _ _ a _ =>
      ((a + 2 ^ (fmtBits w.fmt.toNat - 1)) % (2 * 2 ^ (fmtBits w.fmt.toNat - 1)), 0))
  | .fcpys w => some (Claims.float w true .simple Claims.scLeft fun _ _ _ _ _ a b =>
      (a % 2 ^ (fmtBits w.fmt.toNat - 1) + b / 2 ^ (fmtBits w.fmt.toNat - 1) % 2 * 2 ^ (fmtBits w.fmt.toNat - 1), 0))
  | .fcmp w => some (Claims.float w true .simple Claims.scZero fun g _ mode sl sr a b =>
      let c := floatCond w.mod.toNat (floatVal g a sl mode) (floatVal g b sr mode)
      (if c.1 then g.enc false g.bias 0 else 0, c.2))
  | .fclass w => some { Claims.float w false .simple Claims.scZero (fun g _ _ _ _ a _ => (floatClass g a, 0)) with out := 11 }
  | .fscale w => some
      { Claims.rounded w (fun _ _ l _ => (l, 0)) with
        right := fun g => g = 8
        value := fun mode sl _ _ a b =>
          let g := floatFmt w.fmt.toNat
          let rm := if w.mod = 5 then mode % 8 else w.mod.toNat
          let v : Val := match floatVal g a sl mode with
            | .fin n m e => .fin n m (e + sval 32 b)
            | x => x
          let r := roundVal g rm mode v
          (r.1, r.2) }
  | .fround w => some (Claims.float w false .multiply Claims.scZero fun g rm mode sl _ a _ => floatRint g rm mode (floatVal g a sl mode))
  | _ => none

/-- R151 to R153, R128 to R132: the floating-point instructions compute their element and its status flags from each pair
of elements, with one rounding, and OR the flags into the context's mode word (R133). How FSCALE reads a constant is the model's (log
entry 44). -/
def Claims.FloatArithmetic : Prop :=
  ∀ (i : Instr) (e : Claims.Element), Claims.floating i = some e → Claims.Computes i e

/-- R126, R129: a number of a format is its own rounding, in every mode and with no flag, and a NaN rounds to the canonical
one. -/
def Claims.RoundingKeepsNumbers : Prop :=
  ∀ (f : FloatFmt) (rm b : Nat), f ∈ ([0, 1, 2, 3, 4, 5, 6, 7] : List Nat).map floatFmt → rm ≤ 4 →
    b < 2 ^ (1 + f.eb + f.fb + f.pad) → b % 2 ^ f.pad = 0 →
    roundVal f rm 0 (floatVal f b 0 0) =
      (if (floatVal f b 0 0).isNan then f.nan else b, if floatVal f b 0 0 = .snan then flagNV else 0)

/-- A unary F32 function of the folded operand. -/
def Claims.spec (w : DWord) (cls : Hold) (f : (mode : Nat) → Val → Nat × Nat) : Claims.Element :=
  { w := w, two := false, fmts := fun _ => true, left := fun g => g = w.fmt.toNat, right := fun _ => true, out := w.fmt,
    scale := Claims.scZero, cls := cls, value := fun mode sl _ _ a _ => f mode (floatVal f32 a sl mode) }

/-- The F32 functions and estimates (R154, R155), and the local conversions (R156). -/
def Claims.special : Instr → Option Claims.Element
  | .frsqe w => some (Claims.spec w .simple specRsqe)
  | .frcpe w => some (Claims.spec w .simple specRcpe)
  | .fexp2 w => some (Claims.spec w .transcendental specExp2)
  | .flog2 w => some (Claims.spec w .transcendental specLog2)
  | .fsin w => some (Claims.spec w .transcendental (specCircle 0))
  | .fcos w => some (Claims.spec w .transcendental (specCircle 1))
  | .ftanh w => some (Claims.spec w .transcendental specTanh)
  | .fsigm w => some (Claims.spec w .transcendental specSigm)
  | _ => none

/-- R154, R155: the special functions and estimates compute their element from the F32 value of each element, at scale 0
in the result. -/
def Claims.SpecialFunctionElements : Prop :=
  ∀ (i : Instr) (e : Claims.Element), Claims.special i = some e → Claims.Computes i e

/-- R154, R155, R132: the exact cases of the special functions, and of the estimates FRCPE and FRSQE, with their flags. -/
def Claims.SpecialFunctionPoints : Prop :=
  (∀ n : Bool, ∀ e : Int, (specLog2 0 (.fin n 0 e) = (0xFF800000, flagDZ)) ∧ specRcpe 0 (.fin n 0 e) = (if n then 0xFF800000 else 0x7F800000, flagDZ)) ∧
  (∀ z : Int, -126 ≤ z → z ≤ 127 → specExp2 0 (.fin (z < 0) z.natAbs 0) = (((z + 127).toNat) * 2 ^ 23, 0)) ∧
  (∀ m : Nat, 0 < m → ∀ e : Int, specLog2 0 (.fin true m e) = (0x7FC00000, flagNV) ∧ specRsqe 0 (.fin true m e) = (0x7FC00000, flagNV)) ∧
  (∀ m : Nat, specCircle 0 0 (.fin false m 0) = (0, 0) ∧ specCircle 1 0 (.fin false m 0) = (0x3F800000, 0)) ∧
  (∀ n : Bool, specTanh 0 (.inf n) = (if n then 0xBF800000 else 0x3F800000, 0) ∧ specSigm 0 (.inf n) = (if n then 0 else 0x3F800000, 0) ∧
    specExp2 0 (.inf n) = (if n then 0 else 0x7F800000, 0) ∧ specCircle 0 0 (.inf n) = (0x7FC00000, flagNV))

/-- R157: NARROW saturates and WIDEN keeps an integer between formats. R156, R136: CVTL converts between F32 and the formats
beside it, at scale 0, or keeps an integer in a wider format, at L's scale. -/
def Claims.LocalConversions : Prop :=
  ∀ (w : DWord) (sf : Nat),
    let df := w.fmt.toNat
    let n := fmtBits sf
    let unary (left : Nat → Bool) (scale : Int → Option Int → Option Int) (value : (mode : Nat) → (sl : Int) → (a : Nat) → Nat × Nat) :
        Claims.Element :=
      { w := w, two := false, fmts := fun _ => true, left := left, right := fun _ => true, out := w.fmt, scale := scale,
        value := fun mode sl _ _ a _ => value mode sl a }
    (fmtInt sf = true → fmtInt df = true → fmtBytes df < fmtBytes sf → Claims.Computes (.narrow w)
      (unary (fun g => g = sf) Claims.scLeft fun _ _ a =>
        (Claims.wrap df (max (intRange df).1 (min (intRange df).2 (Claims.int sf (a % 2 ^ n)))), 0))) ∧
    (fmtInt sf = true → fmtInt df = true → fmtBytes sf < fmtBytes df → (fmtSigned df = true ∨ fmtSigned sf = false) →
      Claims.Computes (.widen w) (unary (fun g => g = sf) Claims.scLeft fun _ _ a => (Claims.wrap df (Claims.int sf (a % 2 ^ n)), 0))) ∧
    ((sf = 1 ∧ df ∈ [3, 4, 8, 11]) ∨ (df = 1 ∧ sf ∈ [3, 4, 8, 11]) →
      Claims.Computes (.cvtl w) (unary (fun g => g = sf) Claims.scZero fun mode sl a =>
        convertElem sf sl df 0 (if w.mod = 5 then mode % 8 else w.mod.toNat) mode a)) ∧
    (fmtInt sf = true → fmtInt df = true → fmtBytes sf < fmtBytes df → (fmtSigned df = true ∨ fmtSigned sf = false) →
      Claims.Computes (.cvtl w) (unary (fun g => g = sf) Claims.scLeft fun _ _ a => (Claims.wrap df (Claims.int sf (a % 2 ^ n)), 0)))

/-! ### Absent elements and faults of a firing (R96 to R98, R145, R147) -/

/-- R98: a FAULT operand is passed to every target over the pairing's tags, with no new record; where both operands are FAULT,
L's (the model's choice, log entry 131). -/
def Claims.FaultOperandsPass : Prop :=
  ∀ (s : State) (t : Nat) (p : Pairing) (i : Instr) (e : Claims.Element),
    (Claims.arithmetic i = some e ∨ Claims.bitwise i = some e ∨ Claims.floating i = some e) → s.focus = .firing t p →
    let pass (a : Token) : State :=
      (s.hold t (e.cls.cycles e.w.fmt.toNat p.len)).emit t p.slot p.ctx p.itag.toNat (toAll (s.targets t e.w.nt e.w.t1 e.w.t0)
        { act := .fault, fmt := e.out, len := p.len, ctx := p.ctx, itag := p.itag, mask := fullMask p.len, data := a.data })
    (p.left.act = .fault → exec i s = .next (pass p.left)) ∧
    (p.left.act ≠ .fault → e.two = true → e.w.kr = 0 → p.right.act = .fault → exec i s = .next (pass p.right))

/-- R145, R161: an operand in another format is an Illegal fault, subcode Format, whose one record gives the pairing's tag
and whose FAULT token goes to every target. -/
def Claims.WrongFormatFaults : Prop :=
  ∀ (s : State) (t : Nat) (p : Pairing) (i : Instr) (e : Claims.Element),
    (Claims.arithmetic i = some e ∨ Claims.bitwise i = some e ∨ Claims.floating i = some e) → s.focus = .firing t p →
    p.left.act ≠ .fault → (e.two = true → e.w.kr = 0 → p.right.act ≠ .fault) → e.left p.left.fmt.toNat = false →
    exec i s = .next ((s.hold t (e.cls.cycles e.w.fmt.toNat p.len)).slotFault t p.slot p.ctx (s.targets t e.w.nt e.w.t1 e.w.t0) e.out
      p.itag p.len p.itag.toNat 0x0B 0x02 0 0 0)

/-- R96, R97: ADD on runs with absent elements, with no FAULT policy: a tag with an absent element is absent from the
result unless every absence there is REPLACE, which takes K of constant 15; with no element present the result is an
EMPTY when some absence is FORWARD and nothing otherwise. A FAULT policy is an Empty fault: its record gives the
lowest such tag, in the address field, and the pairing's tag as ITAG (the model's reading, log entry 134). -/
def Claims.EmptyPolicies : Prop :=
  ∀ (s : State) (t : Nat) (p : Pairing) (w : DWord), s.focus = .firing t p → 0 < p.len → p.len ≤ 32 →
    p.left.act ≠ .fault → p.right.act ≠ .fault → w.kr = 0 → p.left.fmt = w.fmt → p.right.fmt = w.fmt → p.left.scale = p.right.scale →
    let absent (i : Nat) : List Nat := (if p.left.has i then [] else [w.el.toNat]) ++ (if p.right.has i then [] else [w.er.toNat])
    let k := s.konst t 15 % 2 ^ fmtBits w.fmt.toNat
    let elem (a : Token) (i : Nat) : Nat := if a.has i then a.elem i else k
    let there (i : Nat) : Bool := (absent i).all fun q => q = 2
    let n := fmtBits w.fmt.toNat
    let z := (s.hold t (Hold.simple.cycles w.fmt.toNat p.len))
    (∀ j < p.len, 3 ∈ absent j → (∀ i < j, 3 ∉ absent i) →
      exec (.add w) s = .next (z.slotFault t p.slot p.ctx (s.targets t w.nt w.t1 w.t0) w.fmt p.itag p.len p.itag.toNat 0x0A 0x00 (p.itag.toNat + j) 0 0)) ∧
    ((∀ i < p.len, 3 ∉ absent i) → (∃ i < p.len, there i = true) →
      ∃ tok : Token, exec (.add w) s = .next (Claims.emits s t p w (Hold.simple.cycles w.fmt.toNat p.len) 0 tok) ∧
        tok.act = .normal ∧ tok.fmt = w.fmt ∧ tok.len = p.len ∧ tok.itag = p.itag ∧
        ∀ i < p.len, tok.has i = there i ∧ (there i = true → tok.elem i = (low n (ival w.fmt.toNat (elem p.left i) + ival w.fmt.toNat (elem p.right i))))) ∧
    ((∀ i < p.len, 3 ∉ absent i ∧ there i = false) → (∃ i < p.len, 1 ∈ absent i) →
      exec (.add w) s = .next (Claims.emits s t p w (Hold.simple.cycles w.fmt.toNat p.len) 0
        { act := .empty, fmt := w.fmt, len := p.len, scale := p.left.scale, ctx := p.ctx, itag := p.itag })) ∧
    ((∀ i < p.len, 3 ∉ absent i ∧ there i = false) → (∀ i < p.len, 1 ∉ absent i) →
      exec (.add w) s = .next (z.addFlags p.ctx 0))

/-- R97: MASK keeps L's elements where Rt's raw bits are not zero; with none left the result is an EMPTY, since the
absences are its own. -/
def Claims.MaskElements : Prop :=
  ∀ (s : State) (t : Nat) (p : Pairing) (w : DWord), s.focus = .firing t p → 0 < p.len → p.len ≤ 32 →
    Claims.Full p.left p → Claims.Full p.right p → w.kr = 0 → p.left.fmt = w.fmt →
    ∃ tok : Token, exec (.mask w) s = .next (Claims.emits s t p w (Hold.simple.cycles w.fmt.toNat p.len) 0 tok) ∧
      tok.len = p.len ∧ tok.itag = p.itag ∧ tok.fmt = w.fmt ∧ tok.scale = p.left.scale ∧
      (tok.act = .empty ↔ ∀ i < p.len, p.right.elem i = 0) ∧ (tok.act = .empty ∨ tok.act = .normal) ∧
      (∀ i < p.len, tok.has i = decide (p.right.elem i ≠ 0)) ∧ ∀ i < p.len, p.right.elem i ≠ 0 → tok.elem i = p.left.elem i % 2 ^ 64

/-- R35, R133, R143: the frame of an element-wise firing whose targets all resolve and whose tags stay within the last one: memory, blocks, waits, clusters and domains are as they
were, other tiles too, its own tile but for the cycle until which it is held; tokens only join the network; of the Dean's
records only contexts change. -/
def Obligations.ElementFrame : Prop :=
  ∀ (s s' : State) (t : Nat) (p : Pairing) (i : Instr) (e : Claims.Element),
    (Claims.arithmetic i = some e ∨ Claims.bitwise i = some e ∨ Claims.floating i = some e) → s.focus = .firing t p →
    Claims.Full p.left p → (e.two = true → e.w.kr = 0 → Claims.Full p.right p) → e.left p.left.fmt.toNat = true →
    (e.two = true → e.w.kr = 0 → e.right p.right.fmt.toNat = true) →
    (e.scale p.left.scale.toInt (if e.two = true ∧ e.w.kr = 0 then some p.right.scale.toInt else none)).isSome = true →
    (i ∉ [Instr.agen e.w] ∨ e.w.kr = 0) →
    (∀ g ∈ s.targets t e.w.nt e.w.t1 e.w.t0, (s.resolve t g.2).isSome = true) → p.itag.toNat + p.len ≤ 2 ^ 32 →
    exec i s = .next s' →
    (∀ a : Nat, cellGet s'.mem a = cellGet s.mem a) ∧ s'.blocks = s.blocks ∧ s'.waits = s.waits ∧ s'.misses = s.misses ∧
    s'.walks = s.walks ∧ s'.clusters = s.clusters ∧ s'.domains = s.domains ∧ s'.intr = s.intr ∧ s'.cycle = s.cycle ∧
    (∀ u : Nat, u ≠ t → s'.tile u = s.tile u) ∧ { s'.tile t with lastRound := 0 } = { s.tile t with lastRound := 0 } ∧
    (∃ l, s'.net = s.net ++ l) ∧ s'.egress = s.egress ∧ s'.outputs = s.outputs ∧ { s'.dean with ctxs := [] } = { s.dean with ctxs := [] }

/-! ## Run instructions (R157 to R160) -/

/-- What a firing computes on when its operands hold every element. -/
def Claims.lanes (s : State) (t : Nat) (p : Pairing) (w : DWord) (two : Bool) : Lanes :=
  { l := p.left, r := p.right, x := (List.range p.len).map fun i => some (p.left.elem i),
    y := (List.range p.len).map fun i => some (if two then Claims.rightElem s t p w i else 0), fwd := false,
    k := s.konst t w.kidx.toNat, mode := (s.ctx p.ctx).mode.toNat }

/-- A run instruction: its word, whether it reads Rt and in which formats, its result's format, its class, and its result
with flags from L's elements, Rt's, K, the mode word and L's scale. -/
structure Claims.Run where
  w     : DWord
  two   : Bool := false
  right : Nat → Bool := fun _ => true
  out   : Fmt
  cls   : Hold := .reduce
  body  : Lanes → Res × Nat

/-- The elements of a run as integers of its format. -/
def Claims.ints (w : DWord) (z : Lanes) : List Int := z.x.map fun v => ival w.fmt.toNat (v.getD 0)

def Claims.runs : Instr → Option Claims.Run
  | .rsum w => if w.kr = 1 then none else some
      { w := w, out := w.fmt,
        body := fun z =>
          if fmtInt w.fmt.toNat then
            ({ fmt := w.fmt, scale := z.l.scale.toInt, vals := [some (Claims.wrap w.fmt.toNat (Claims.ints w z).sum)] }, 0)
          else ({ fmt := w.fmt, scale := sumScale w z, vals := [(treeSum w z).1] }, (treeSum w z).2) }
  | .rscan w => some
      { w := w, out := w.fmt,
        body := fun z =>
          if fmtInt w.fmt.toNat then
            ({ fmt := w.fmt, scale := z.l.scale.toInt,
               vals := (List.range z.x.length).map fun j => some (Claims.wrap w.fmt.toNat ((Claims.ints w z).take (j + 1)).sum) }, 0)
          else
            let r := scanSums (floatFmt w.fmt.toNat) (if w.mod = 5 then z.mode % 8 else w.mod.toNat) z.mode z.l.scale.toInt (.fin false 0 0) z.x
            ({ fmt := w.fmt, scale := 0, vals := r.1 }, r.2) }
  | .rmax w => some
      { w := w, out := w.fmt,
        body := fun z =>
          if fmtInt w.fmt.toNat then
            ({ fmt := w.fmt, scale := z.l.scale.toInt, vals := [some (((Claims.ints w z).max?.map (Claims.wrap w.fmt.toNat)).getD 0)] }, 0)
          else ({ fmt := w.fmt, scale := z.l.scale.toInt, vals := [(extreme w.fmt.toNat z.mode true z.x).1] }, (extreme w.fmt.toNat z.mode true z.x).2) }
  | .rmin w => some
      { w := w, out := w.fmt,
        body := fun z =>
          if fmtInt w.fmt.toNat then
            ({ fmt := w.fmt, scale := z.l.scale.toInt, vals := [some (((Claims.ints w z).min?.map (Claims.wrap w.fmt.toNat)).getD 0)] }, 0)
          else ({ fmt := w.fmt, scale := z.l.scale.toInt, vals := [(extreme w.fmt.toNat z.mode false z.x).1] }, (extreme w.fmt.toNat z.mode false z.x).2) }
  | .rargmx w => some
      { w := w, out := 11,
        body := fun z =>
          if fmtInt w.fmt.toNat then
            ({ fmt := 11, vals := [some ((Claims.ints w z).findIdx fun v => (Claims.ints w z).max? = some v)], own := true }, 0)
          else ({ fmt := 11, vals := [greatestAt w.fmt.toNat z.mode z.x none], own := true }, snanFlags w.fmt.toNat z.x) }
  | .bits w => some
      { w := w, out := 11,
        body := fun z => ({ fmt := 11, vals := [some (((List.range z.x.length).map fun i => (z.x.getD i none).getD 0 % 2 * 2 ^ i).sum)] }, 0) }
  | .rpop w => some { w := w, out := 11, body := fun z => ({ fmt := 11, vals := [some z.x.length] }, 0) }
  | .bcast w => some
      { w := w, out := w.fmt, cls := .permute,
        body := fun z => ({ fmt := w.fmt, scale := z.l.scale.toInt, vals := z.x.map fun _ => z.x.getD (z.k % 32) none, own := true }, 0) }
  | .rotl w => some
      { w := w, out := w.fmt, cls := .permute,
        body := fun z => ({ fmt := w.fmt, scale := z.l.scale.toInt,
                            vals := (List.range z.x.length).map fun i => z.x.getD ((i + z.k % 32) % z.x.length) none }, 0) }
  | .compact w => some
      { w := w, out := w.fmt, cls := .permute, body := fun z => ({ fmt := w.fmt, scale := z.l.scale.toInt, vals := z.x }, 0) }
  | .shuf w => some
      { w := w, two := true, right := fmtInt, out := w.fmt, cls := .permute,
        body := fun z => ({ fmt := w.fmt, scale := z.l.scale.toInt, vals := z.y.map fun v => z.x.getD (v.getD 0) none, own := true }, 0) }
  | .expand w => some
      { w := w, two := true, out := w.fmt, cls := .permute,
        body := fun z => ({ fmt := w.fmt, scale := z.l.scale.toInt, vals := z.x, own := true }, 0) }
  | _ => none

/-- R157 to R160: the run instructions on runs with every element present; integer sums and running sums wrap at the
width, an extreme is the greatest or least, RARGMX gives the lowest position of the greatest, and BCAST, ROTL, SHUF,
COMPACT and EXPAND place elements by index, an index past the run leaving its element absent. -/
def Claims.RunResults : Prop :=
  ∀ (s : State) (t : Nat) (p : Pairing) (i : Instr) (e : Claims.Run), Claims.runs i = some e →
    s.focus = .firing t p → 0 < p.len → p.len ≤ 32 → Claims.Full p.left p → p.left.fmt = e.w.fmt →
    (∀ j < p.len, p.left.elem j < 2 ^ fmtBits e.w.fmt.toNat) →
    (e.two = true → e.w.kr = 0 → Claims.Full p.right p ∧ e.right p.right.fmt.toNat = true) →
    fmtInt e.w.fmt.toNat = true ∨ fmtFloat e.w.fmt.toNat = true →
    let r := e.body (Claims.lanes s t p e.w e.two)
    exec i s = .next
      (((s.hold t (e.cls.cycles e.w.fmt.toNat p.len)).addFlags p.ctx r.2).emitRes t p (s.targets t e.w.nt e.w.t1 e.w.t0) false r.1)

/-- R160: RTOP2 sends the two greatest numbers to T0 and their positions to T1; on integers the second is the greatest of
the rest. -/
def Claims.TopTwo : Prop :=
  ∀ (s : State) (t : Nat) (p : Pairing) (w : DWord), s.focus = .firing t p → 2 ≤ p.len → p.len ≤ 32 → Claims.Full p.left p →
    p.left.fmt = w.fmt → fmtInt w.fmt.toNat = true →
    ∃ a b : Nat, a < p.len ∧ b < p.len ∧ a ≠ b ∧
      (∀ j < p.len, ival w.fmt.toNat (p.left.elem j) ≤ ival w.fmt.toNat (p.left.elem a)) ∧
      (∀ j < p.len, j ≠ a → ival w.fmt.toNat (p.left.elem j) ≤ ival w.fmt.toNat (p.left.elem b)) ∧
      (∀ j < a, ival w.fmt.toNat (p.left.elem j) < ival w.fmt.toNat (p.left.elem a)) ∧
      exec (.rtop2 w) s = .next
        (Claims.sentTo ((s.hold t (Hold.reduce.cycles w.fmt.toNat p.len)).addFlags p.ctx 0) t p (s.targets t w.nt w.t1 w.t0) w.fmt 2
          [{ ix := 0, tgt := w.t0, tok := Claims.fullRun p w.fmt p.left.scale.toInt [p.left.elem a, p.left.elem b] },
           { ix := 1, tgt := w.t1, tok := Claims.fullRun p 11 0 [a, b] }])

/-- R159: the accumulating RSUM on integers adds the run's sum to the register of its context and slot, which starts at 0,
keeps L's scale, and emits the register; another scale is an Illegal fault, subcode Scale, and changes nothing there. -/
def Claims.AccumulatingSum : Prop :=
  ∀ (s : State) (t : Nat) (p : Pairing) (w : DWord), s.focus = .firing t p → 0 < p.len → p.len ≤ 32 → w.kr = 1 → w.ord = 0 →
    Claims.Full p.left p → p.left.fmt = w.fmt → fmtInt w.fmt.toNat = true →
    let a := ((s.tile t).accReg p.ctx p.slot).getD { ctx := p.ctx, slot := p.slot }
    let total := (a.total.toNat + ((List.range p.len).map fun i => p.left.elem i).sum) % 2 ^ fmtBits w.fmt.toNat
    let z := s.hold t (Hold.reduce.cycles w.fmt.toNat p.len)
    let ts := s.targets t w.nt w.t1 w.t0
    ((a.scale = none ∨ a.scale = some p.left.scale) →
      exec (.rsum w) s = .next
        (((z.updTile t fun x => x.setAccReg { a with total := BitVec.ofNat 64 total, scale := some p.left.scale }).addFlags p.ctx 0).emit
          t p.slot p.ctx p.itag.toNat (toAll ts (Claims.fullRun p w.fmt p.left.scale.toInt [total])))) ∧
    (∀ sc, a.scale = some sc → sc ≠ p.left.scale →
      exec (.rsum w) s = .next (z.slotFault t p.slot p.ctx ts w.fmt p.itag p.len p.itag.toNat 0x0B 0x03 0 0 0))

/-! ## Dataflow control (R103, R104) -/

/-- The state after a firing of one cycle that emits one token to every target, or raises TagWrap in its place (R17). -/
def Claims.sends (s : State) (t : Nat) (p : Pairing) (w : DWord) (tok : Token) : State :=
  let ts := s.targets t w.nt w.t1 w.t0
  Claims.sentTo (s.hold t 1) t p ts tok.fmt tok.len (toAll ts tok)

/-- A piece of L of n elements from element a, as a run. -/
def Claims.pieceOf (p : Pairing) (a n : Nat) : Token :=
  { act := .normal, fmt := p.left.fmt, len := n, scale := p.left.scale, ctx := p.ctx, itag := p.itag + BitVec.ofNat 32 a,
    mask := BitVec.ofNat 32 (2 ^ n - 1), data := (List.range n).map fun i => BitVec.ofNat 64 (p.left.elem (a + i)) }

/-- A token that carries no element, over the pairing's tags. -/
def Claims.bare (p : Pairing) (act : Act) : Token := { act := act, fmt := p.left.fmt, len := p.len, ctx := p.ctx, itag := p.itag }

/-- R103: SINK, PASS, FANOUT, SYNC, EMIT, CTAG and STICK complete on every L with each of its elements, whatever its format:
SINK emits nothing; PASS and FANOUT emit L, SYNC too and drops Rt's data; EMIT puts K in every element; CTAG gives
the tags; STICK emits L as a sticky, pinned or droppable under recipe K[3:0]. -/
def Claims.DataflowResults : Prop :=
  ∀ (s : State) (t : Nat) (p : Pairing) (w : DWord), s.focus = .firing t p → 0 < p.len → p.len ≤ 32 → Claims.Full p.left p →
    let k := s.konst t w.kidx.toNat
    let l := Claims.pieceOf p 0 p.len
    exec (.sink w) s = .next (s.hold t 1) ∧
    exec (.pass w) s = .next (Claims.sends s t p w l) ∧
    exec (.fanout w) s = .next (Claims.sends s t p w l) ∧
    (Claims.Full p.right p → w.kr = 0 → exec (.sync w) s = .next (Claims.sends s t p w l)) ∧
    exec (.emit w) s = .next (Claims.sends s t p w
      { l with fmt := w.fmt, scale := 0, data := List.replicate p.len (BitVec.ofNat 64 (k % 2 ^ fmtBits w.fmt.toNat)) }) ∧
    exec (.ctag w) s = .next (Claims.sends s t p w
      { l with fmt := 11, scale := 0, data := (List.range p.len).map fun i => BitVec.ofNat 64 ((p.itag.toNat + i) % 2 ^ 32) }) ∧
    exec (.stick w) s = .next (Claims.sends s t p w
      { l with act := .sticky, drp := w.kr = 1, crib := if w.kr = 1 then BitVec.ofNat 4 (k % 16) else 0 })

/-- R18, R103: PURGE emits a PURGE of L's context, which has no tags, and CANCEL one over the pairing's tags; EGRESS delivers the token
that arrived, of any action, and MERGE the run that arrived, on either port. (That EGRESS passes its token in the step of its firing is the
model's reading, log 33.) -/
def Claims.DataflowPassing : Prop :=
  ∀ (s : State) (t : Nat) (p : Pairing) (w : DWord), s.focus = .firing t p →
    let ts := s.targets t w.nt w.t1 w.t0
    let out (os : List Out) : State := (s.hold t 1).emit t p.slot p.ctx p.itag.toNat os
    let arrived := if p.l.given then p.left else p.right
    (Claims.Full p.left p →
      exec (.purge w) s = .next (out (toAll ts { act := .purge, ctx := p.ctx })) ∧
      exec (.cancel w) s = .next (out (toAll ts (Claims.bare p .cancel)))) ∧
    exec (.egress w) s = .next (out (toAll ts p.l.value)) ∧
    (arrived.itag.toNat + arrived.len ≤ 2 ^ 32 → exec (.merge w) s = .next (out (toAll ts arrived)))

/-- R103: STEER sends to T0 the elements whose predicate is not zero and to T1 the others, each with its own MASK, and to a
side with none a CANCEL over the pairing's tags. -/
def Claims.SteerSplitsByPredicate : Prop :=
  ∀ (s : State) (t : Nat) (p : Pairing) (w : DWord), s.focus = .firing t p → 0 < p.len → p.len ≤ 32 → w.kr = 0 →
    Claims.Full p.left p → Claims.Full p.right p →
    ∃ a b : Token, exec (.steer w) s = .next (Claims.sentTo (s.hold t 1) t p (s.targets t w.nt w.t1 w.t0) p.left.fmt p.len
        [{ ix := 0, tgt := w.t0, tok := a }, { ix := 1, tgt := w.t1, tok := b }]) ∧
      (∀ x ∈ [a, b], x.len = p.len ∧ x.itag = p.itag ∧ x.ctx = p.ctx ∧ x.fmt = p.left.fmt ∧
        (x.act = .normal ∨ x.act = .cancel) ∧ (x.act = .cancel ↔ ∀ i < p.len, x.has i = false) ∧
        ∀ i < p.len, x.has i = true → x.elem i = p.left.elem i) ∧
      ∀ i < p.len, a.has i = decide (p.right.elem i ≠ 0) ∧ b.has i = decide (p.right.elem i = 0)

/-- R17, R103, R104: RETAG moves L to the tags from Rt's element 0 as N32, and tags past 0xFFFFFFFF are an Illegal fault,
subcode TagWrap; SPLIT cuts L at K[5:0] between T0 and T1 and UNPACK into runs of K[5:0], each with that fault where L's tags pass the last one;
an UNPACK length of 0 or past the format's longest run is Illegal, subcode Unpack. -/
def Claims.DataflowTags : Prop :=
  ∀ (s : State) (t : Nat) (p : Pairing) (w : DWord), s.focus = .firing t p → 0 < p.len → p.len ≤ 32 → Claims.Full p.left p →
    let n := s.konst t w.kidx.toNat % 64
    let b := p.right.elem 0 % 2 ^ 32
    let ts := s.targets t w.nt w.t1 w.t0
    let fault (sub : Nat) : State := (s.hold t 1).slotFault t p.slot p.ctx ts p.left.fmt p.itag p.len p.itag.toNat 0x0B sub 0 0 0
    let out (os : List Out) : State := (s.hold t 1).emit t p.slot p.ctx p.itag.toNat os
    let sent (os : List Out) : State := Claims.sentTo (s.hold t 1) t p ts p.left.fmt p.len os
    (w.kr = 0 → Claims.Full p.right p →
      (b + p.len ≤ 2 ^ 32 →
        exec (.retag w) s = .next (out (toAll ts { Claims.pieceOf p 0 p.len with itag := BitVec.ofNat 32 b }))) ∧
      (2 ^ 32 < b + p.len → exec (.retag w) s = .next (fault 0x05))) ∧
    exec (.split w) s = .next (sent
      (if n = 0 then [{ ix := 1, tgt := w.t1, tok := Claims.pieceOf p 0 p.len }]
       else if p.len ≤ n then [{ ix := 0, tgt := w.t0, tok := Claims.pieceOf p 0 p.len }]
       else [{ ix := 0, tgt := w.t0, tok := Claims.pieceOf p 0 n }, { ix := 1, tgt := w.t1, tok := Claims.pieceOf p n (p.len - n) }])) ∧
    (1 ≤ n → n ≤ fmtMaxLen p.left.fmt.toNat →
      exec (.unpack w) s = .next (sent ((List.range ((p.len + n - 1) / n)).flatMap fun j =>
        ts.map fun g => { ix := g.1, tgt := g.2, tok := Claims.pieceOf p (j * n) (min n (p.len - j * n)) }))) ∧
    (n = 0 ∨ fmtMaxLen p.left.fmt.toNat < n → exec (.unpack w) s = .next (fault 0x0A))

/-- R103, R104: PACK joins two runs of one FMT and SCALE whose LENs together stay within the format's longest, with every element
there, into one run from L's ITAG, or raises TagWrap where its tags would pass the last one; runs of another FMT or SCALE, or too long together, are
an Illegal fault, subcode Pack. (The tags over which the FAULT token stands are the model's reading, log 47.) -/
def Claims.PackJoins : Prop :=
  ∀ (s : State) (t : Nat) (p : Pairing) (w : DWord), s.focus = .firing t p →
    let l := p.l.value
    let r := p.r.value
    let n := l.len + r.len
    let ts := s.targets t w.nt w.t1 w.t0
    let bad := l.fmt ≠ r.fmt ∨ l.scale ≠ r.scale ∨ fmtMaxLen l.fmt.toNat < n
    l.act ≠ .fault → r.act ≠ .fault →
    (¬ bad → (∀ i < l.len, l.has i = true) → (∀ i < r.len, r.has i = true) → 0 < l.len →
      exec (.pack w) s = .next (Claims.sentTo ((s.hold t 1)) t p ts l.fmt n (toAll ts
        { act := .normal, fmt := l.fmt, len := n, scale := l.scale, ctx := p.ctx, itag := p.itag,
          mask := BitVec.ofNat 32 (2 ^ n - 1),
          data := ((List.range l.len).map fun i => BitVec.ofNat 64 (l.elem i)) ++ (List.range r.len).map fun i => BitVec.ofNat 64 (r.elem i) }))) ∧
    (bad → exec (.pack w) s = .next ((s.hold t 1).slotFault t p.slot p.ctx ts l.fmt p.itag (min p.len (fmtMaxLen l.fmt.toNat)) p.itag.toNat
      0x0B 0x09 0 0 0))

/-! ## Pools and tickets (R110 to R124) -/

/-- R111, R122: a pool instruction on an L with every element sends its operation, as a packet of the request channel from its output queue, to the tile its handle or K names, which is in
the region: ALLOC and TICKET leave their trigger in the tile's match store until the grant, GIVE carries K[7:0], TST Rt's
run and TLD the offset. -/
def Claims.PoolInstructionsSend : Prop :=
  ∀ (s : State) (t u : Nat) (p : Pairing) (w : DWord), s.focus = .firing t p → 0 < p.len → p.len ≤ 32 → Claims.Full p.left p →
    let k := s.konst t w.kidx.toNat
    let h := p.left.elem 0
    let l := p.left.withLanes ((List.range p.len).map fun i => some (p.left.elem i))
    let z := s.hold t 1
    let op (act : PoolAct) (name : Nat) : PoolOp :=
      { act := act, src := t, slot := p.slot, ctx := p.ctx, itag := p.itag, handle := BitVec.ofNat 32 name, fmt := w.fmt, nt := w.nt, l := l }
    let send (y : State) (o : PoolOp) : State :=
      { y with net := y.net ++ [{ tok := ({ act := .purge, ctx := p.ctx } : Token).sendTo u 0 0, edge := { tile := t, slot := p.slot },
                                  dest := .tile u, vc := 0, cargo := .op o, place := .outq t, sent := s.cycle + 1, since := s.cycle + 1 }] }
    let trigger (y : State) : State := y.updTile t fun x => x.addEntry .trigger l y.cycle
    (s.poolTile t (k % 2 ^ 32) = some u →
      exec (.alloc w) s = .next (send (trigger z) { op .alloc k with trig := (s.tile t).nextId }) ∧
      exec (.ticket w) s = .next (send (trigger z) { op .ticket k with trig := (s.tile t).nextId }) ∧
      exec (.retn w) s = .next (send z (op .retn k)) ∧ exec (.poolq w) s = .next (send z (op .poolq k))) ∧
    (s.poolTile t (h % 2 ^ 32) = some u →
      (1 ≤ k % 256 → k % 256 ≤ 15 → exec (.give w) s = .next (send z (op (.give (k % 256)) h))) ∧
      exec (.tld w) s = .next (send z { op .tld h with offset := if w.kr = 1 then k else 0 }) ∧
      (Claims.Full p.right p →
        exec (.release w) s = .next (send z (op .release h)) ∧
        (p.right.fmt = w.fmt → exec (.tst w) s = .next
          (send z { op .tst h with
            offset := if w.kidx = 0 then 0 else k
            r := p.right.withLanes ((List.range p.len).map fun i => some (p.right.elem i)) }))))

/-- A pool of a tile, not an accumulator pool, with the slot that a handle names in a state (R110). -/
abbrev Claims.SlotIn (s : State) (u : Nat) (o : PoolOp) (x : Pool) (z : PSlot) (st : SlotState) : Prop :=
  hPool o.handle.toNat ≠ 7 ∧ (s.tile u).status = .resident ∧ (s.tile u).pools[hPool o.handle.toNat]? = some x ∧ x.slots[hSlot o.handle.toNat]? = some z ∧
  z.st = st ∧ z.gen = hGen o.handle.toNat ∧ z.ownerCtx = o.ctx

/-- R111, R113: of the pool operations at the heads of a tile's input ports that no full wait list holds, the tile serves the one
that arrived first, and of those that arrived together the one of the first port, local, north, east, south, west. -/
def Claims.PoolOperationsOrder : Prop :=
  ∀ (s : State) (u i : Nat) (o : PoolOp), s.nextOp u = some (o, i) →
    ∃ q n, q < 5 ∧ s.opHead u q = some (n, o, i) ∧ s.opHeld u o = false ∧
      ∀ q' n' o' i', q' < 5 → s.opHead u q' = some (n', o', i') → s.opHeld u o' = false → n < n' ∨ (n = n' ∧ q ≤ q')

/-- R110, R111, R122, R124: served at its pool's tile, a GIVE makes a held slot GIVEN with its count; a RELEASE lowers the count
of a GIVEN slot that has more than one; a TST writes Rt's elements at the offset of a held slot and sets its SCALE; a TLD
reads them back; a handle of an earlier generation is Ownership (0x02), subcode Gen (0x01). Each result is emitted at the slot that asked; the
tile serves the next one cycle later, or after the moves of 32 bytes that a TST or TLD makes. -/
def Claims.PoolOperationsServe : Prop :=
  ∀ (s : State) (u k i : Nat) (o : PoolOp) (x : Pool) (z : PSlot), s.focus = .event u k → (s.tile u).opAt ≤ s.cycle →
    s.nextOp u = some (o, i) →
    let h := o.handle.toNat
    let n := if o.act = .tst ∨ o.act = .tld then 1 + (o.l.len * fmtBytes o.fmt.toNat + 31) / 32 else 1
    let y := ({ s with net := s.net.eraseIdx i } : State).updTile u fun a => { a with opAt := s.cycle + n }
    let put (z' : PSlot) : State := y.setPool u (hPool h) { x with slots := x.slots.set (hSlot h) z' }
    let at_ := s.slotBase u (hPool h) (hSlot h) + o.offset
    let w := fmtBytes o.fmt.toNat
    (∀ n, o.act = .give n → Claims.SlotIn s u o x z .held →
      exec .poolOp s = .next ((put { z with st := .given, n := n }).opEmit o o.l)) ∧
    (o.act = .release → Claims.SlotIn s u o x z .given → 2 ≤ z.n →
      exec .poolOp s = .next ((put { z with n := z.n - 1 }).opEmit o o.l)) ∧
    (o.act = .tst → Claims.SlotIn s u o x z .held → o.offset % 16 = 0 → o.offset + o.l.len * w ≤ x.size →
      exec .poolOp s = .next (((put { z with scale := o.r.scale }).updTile u fun a =>
        { a with store := writeElems a.store at_ w o.r ((List.range o.l.len).filter o.r.has) }).opEmit o o.l)) ∧
    (o.act = .tld → Claims.SlotIn s u o x z .given → o.offset % 16 = 0 → o.offset + o.l.len * w ≤ x.size →
      exec .poolOp s = .next (y.opEmit o { o.l with
        act := .normal, fmt := o.fmt, scale := z.scale,
        data := (List.range o.l.len).map fun i =>
          if o.l.has i then BitVec.ofNat 64 (ofBytes (cellsGet (s.tile u).store (at_ + i * w) w)) else 0 })) ∧
    (o.act ∈ [.release, .tst, .tld] → hPool h ≠ 7 → (s.tile u).status = .resident →
      (s.tile u).pools[hPool h]? = some x → x.slots[hSlot h]? = some z →
      z.gen ≠ hGen h → exec .poolOp s = .next (y.opFault o o.outFmt 0x02 0x01))

/-- R106, R122: elements written to a tile store read back at their places, and every other byte is as it was. -/
def Obligations.TileStoreReadsBack : Prop :=
  ∀ (m : List Host.Cell) (base w n : Nat) (r : Token), cellsWf m = true → 0 < w → w ≤ 8 →
    let m' := writeElems m base w r ((List.range n).filter r.has)
    cellsWf m' = true ∧
    (∀ i < n, r.has i = true → ofBytes (cellsGet m' (base + i * w) w) = r.elem i % 2 ^ (8 * w)) ∧
    ∀ a : Nat, (∀ i < n, r.has i = true → ¬ (base + i * w ≤ a ∧ a < base + i * w + w)) → cellGet m' a = cellGet m a

/-- R109, R112, R124: an ALLOC whose wait list is empty and pool has a free slot takes the lowest one for its iteration and
a grant with the slot's handle is sent, on the response channel, to the tile that asked; the grant's arrival takes the trigger and emits the handle
in every element over the trigger's tags. (That an ALLOC of an iteration which already holds or waits for a slot is the one
refused is the model's reading, log 8.) -/
def Claims.AllocationAndGrant : Prop :=
  (∀ (s : State) (u k i : Nat) (o : PoolOp) (x : Pool) (r : Region) (j : Nat), s.focus = .event u k → (s.tile u).opAt ≤ s.cycle →
    s.nextOp u = some (o, i) → o.act = .alloc → hPool o.handle.toNat ≠ 7 →
    (s.tile u).status = .resident → (s.tile u).pools[hPool o.handle.toNat]? = some x → s.regionAt u = some r → x.wait = [] →
    x.slots.findIdx? (fun z => z.st = .free) = some j → s.holdsRank u (hPool o.handle.toNat) o.ctx o.itag = false →
    ∃ s' p, exec .poolOp s = .next s' ∧
      (s'.tile u).pools[hPool o.handle.toNat]? = some
        { x with slots := x.slots.set j { x.slots.getD j {} with st := .held, ownerCtx := o.ctx, ownerTag := o.itag, n := 0 } } ∧
      s'.net = s.net.eraseIdx i ++ [p] ∧ p.place = .outq u ∧ p.dest = .tile o.src ∧ p.vc = 1 ∧
      p.cargo = .grant
        { trig := o.trig, tile := u, tk := hPool o.handle.toNat, ctx := o.ctx,
          handle := some (BitVec.ofNat 32 (mkHandle (x.slots.getD j {}).gen (hPool o.handle.toNat) (tileX u - r.x0) (tileY u - r.y0) j)) } ∧
      (s'.tile u).counters.alGrant = (s.tile u).counters.alGrant + 1 ∧ s'.mem = s.mem) ∧
  (∀ (s : State) (u k i : Nat) (p : Packet) (g : Grant) (e : Entry) (h : BitVec 32), s.focus = .event u k →
    s.headAt u k 1 = some (p, i) → p.cargo = .grant g → p.since ≤ s.cycle →
    g.handle = some h → (s.tile u).belled g.ctx = false →
    (s.tile u).entries.find? (fun e => e.use = .trigger && e.id = g.trig) = some e →
    exec .grantArrival s = .next
      ((({ s with net := s.net.eraseIdx i } : State).updTile u fun x => x.delEntry e.id).emit u e.tok.slot e.tok.ctx
        e.tok.itag.toNat (toAll (s.slotTargets u e.tok.slot) (handleRun e.tok h.toNat))))

/-- R244: DROP turns every droppable sticky of the context into a record and then emits L; RECALL with no record to recall
emits L, and else queues the records' replays and keeps L until they are done. -/
def Claims.RecallAndDrop : Prop :=
  ∀ (s : State) (t : Nat) (p : Pairing) (w : DWord), s.focus = .firing t p → 0 < p.len → p.len ≤ 32 → Claims.Full p.left p →
    let l := Claims.pieceOf p 0 p.len
    let ts := s.targets t w.nt w.t1 w.t0
    let z := s.hold t 1
    let k := s.konst t w.kidx.toNat
    let ids := ((s.tile t).drops.filter fun d =>
      d.poisoned.isNone && !d.purged && d.tok.ctx = p.ctx && d.tok.slot = k % 32 && d.tok.port = k / 32 % 2 &&
        agrees (s.tagMask t (k % 32)) d.tok.lo p.itag.toNat).map fun d => d.id
    exec (.drop w) s = .next
      (Claims.sentTo (z.updTile t fun x => Tile.dropAll p.ctx Config.matchEntries x) t p ts p.left.fmt p.len (toAll ts l)) ∧
    (ids = [] → exec (.recall w) s = .next (Claims.sends s t p w l)) ∧
    (ids ≠ [] → exec (.recall w) s = .next (z.updTile t fun x =>
      { x with recalls := x.recalls ++ [(p, ids)], replayQ := x.replayQ ++ ids.filter fun i => !x.replayQ.contains i }))

/-! ## Fabric memory instructions (R225 to R230) -/

/-- A fabric memory instruction: its word, kind, the format its Rt must have (none: Rt is not read for data), the format
it declares for its result, and its version mode for a named version. -/
structure Claims.Mem where
  w     : MWord
  kind  : MemKind
  right : Option Fmt
  out   : Fmt
  mode  : BitVec 16 → VMode

def Claims.memory : Instr → Option Claims.Mem
  | .ld w => some { w := w, kind := .ld, right := none, out := w.fmt,
                    mode := fun n => if w.mod = 1 then .eq n else if w.mod = 2 then .ge n else .any }
  | .st w => some { w := w, kind := .st, right := some w.fmt, out := 11, mode := fun n => if w.mod = 1 then .exp n else .next }
  | .atom w => some { w := w, kind := .atom, right := some w.fmt, out := w.fmt, mode := fun _ => .next }
  | .cas w => some { w := w, kind := .cas, right := some 29, out := w.fmt, mode := fun _ => .next }
  | .reclaim w => some { w := w, kind := .reclaim, right := none, out := 11, mode := fun _ => .any }
  | .vwait w => some { w := w, kind := .vwait, right := none, out := 11, mode := fun n => .ge n }
  | .ldb w => some { w := w, kind := .ldb, right := none, out := w.fmt,
                     mode := fun n => if w.mod = 1 then .eq n else if w.mod = 2 then .ge n else .any }
  | .stb w => some { w := w, kind := .stb, right := none, out := 11, mode := fun n => if w.mod = 1 then .exp n else .next }
  | _ => none

/-- The version that element i names (R226): none, its tag, K, or Rt's element. -/
def Claims.version (s : State) (t : Nat) (p : Pairing) (w : MWord) (i : Nat) : BitVec 16 :=
  if w.vsrc = 0 then 0 else if w.vsrc = 1 then BitVec.ofNat 16 (p.itag.toNat + i)
  else if w.vsrc = 2 then BitVec.ofNat 16 (s.konst t w.kidx.toNat) else BitVec.ofNat 16 (p.right.elem i)

/-- R225, R226: a memory instruction on an A64 run L with every element, and an Rt with every element in its format where
it reads one, puts its pairing at the tile's port, with its elements grouped by 64-byte block, a group's elements ascending
and the groups in the order of their lowest elements; LDB and STB take L's lowest element alone. A group fails before its
issue where its elements name different versions or one is misaligned; else it waits to be issued, with its operation, its version mode,
RET. (The bytes that it is charged with, those of its elements, are the model's reading, log 57.) -/
def Claims.MemoryGroupsIssue : Prop :=
  ∀ (s : State) (t : Nat) (p : Pairing) (i : Instr) (e : Claims.Mem), Claims.memory i = some e → s.focus = .firing t p →
    0 < p.len → p.len ≤ 32 → Claims.Full p.left p → p.left.fmt = 30 →
    (e.right.isSome = true ∨ e.kind = .stb ∨ e.w.vsrc = 3 → Claims.Full p.right p) → (∀ f, e.right = some f → p.right.fmt = f) →
    let n := if e.kind = .ldb ∨ e.kind = .stb then 1 else p.len
    let width := fmtBytes e.w.fmt.toNat
    let unit := if e.kind = .ldb ∨ e.kind = .stb then 64 else if e.kind = .vwait ∨ e.kind = .reclaim then 1 else width
    ∃ gs : List Group,
      exec i s = .next ((s.hold t 1).addPairing t
        { kind := e.kind, slot := p.slot, ctx := p.ctx, fmt := e.out, scope := e.w.scope.toNat,
          acq := decide (e.w.aqrl = 1 ∧ e.kind ≠ .st ∧ e.kind ≠ .stb),
          rel := decide (e.w.aqrl = 1 ∧ e.kind ∈ [.st, .stb, .atom, .cas]),
          l := { p.left with mask := BitVec.ofNat 32 (2 ^ n - 1) },
          r := if e.right.isSome = true ∨ e.kind = .stb ∨ e.w.vsrc = 3 then some p.right else none, groups := gs }) ∧
      (∀ g ∈ gs, ∃ b, g.elems = ((List.range n).filter fun j => p.left.elem j / 64 = b).map fun j => (j, p.left.elem j)) ∧
      (∀ j < n, ∃ g ∈ gs, (j, p.left.elem j) ∈ g.elems) ∧
      gs.Pairwise (fun g h => (g.elems.headD (0, 0)).1 < (h.elems.headD (0, 0)).1 ∧ (g.elems.headD (0, 0)).2 / 64 ≠ (h.elems.headD (0, 0)).2 / 64) ∧
      ∀ g ∈ gs,
        let v := Claims.version s t p e.w (g.elems.headD (0, 0)).1
        let same := ∀ x ∈ g.elems, Claims.version s t p e.w x.1 = v
        let aligned := ∀ x ∈ g.elems, x.2 % unit = 0
        (¬ same → g.st = .failed 0x0B 0x0F) ∧ (same → ¬ aligned → g.st = .failed 0x0F 0x06) ∧ (same → aligned → g.st = .todo) ∧
        g.acc.mode = e.mode v ∧ (g.acc.ret = true ↔ e.w.ret = 1) ∧
        (e.kind = .ld ∨ e.kind = .ldb → g.acc.op = .load) ∧ (e.kind = .vwait → g.acc.op = .probe) ∧
        (e.kind = .reclaim → g.acc.op = .reclaim v) ∧
        (e.kind = .st → g.acc.op = .store (g.elems.flatMap fun x => (List.range width).map fun b =>
          (x.2 % 64 + b, BitVec.ofNat 8 (p.right.elem x.1 / 256 ^ b)))) ∧
        (e.kind = .atom → g.acc.op = .atom (atomOf e.w.mod.toNat) (fmtSigned e.w.fmt.toNat)
          (g.elems.map fun x => (x.2 % 64, BitVec.ofNat 64 (p.right.elem x.1), 0))) ∧
        (e.kind = .cas → g.acc.op = .atom .cas false (g.elems.map fun x =>
          (x.2 % 64, BitVec.ofNat 64 (p.right.elem x.1 % 2 ^ 32), BitVec.ofNat 64 (p.right.elem x.1 / 2 ^ 32)))) ∧
        g.acc.moved = (if unit = 64 then 64 else if unit = 1 ∧ e.kind ∈ [.vwait, .reclaim] then 0 else g.elems.length * width)

/-- R226, R228, R229: FENCE puts an L of FMT A64 at the port, where it waits for its predecessors at SCOPE; an L of another
format is an Illegal fault, subcode Format. -/
def Claims.FenceIssues : Prop :=
  ∀ (s : State) (t : Nat) (p : Pairing) (w : MWord), s.focus = .firing t p → p.left.act ≠ .fault →
    (p.left.fmt = 30 → exec (.fence w) s = .next ((s.hold t 1).addPairing t
      { kind := .fence, slot := p.slot, ctx := p.ctx, fmt := p.left.fmt, scope := w.scope.toNat, l := p.left })) ∧
    (p.left.fmt ≠ 30 → exec (.fence w) s = .next ((s.hold t 1).slotFault t p.slot p.ctx (s.targets t w.nt w.t1 w.t0) p.left.fmt
      p.itag p.len p.itag.toNat 0x0B 0x02 0 0 0))

/-- R218 to R220, R226: HOME_ACCESS performs the k-th issued group of a port, where the port's order lets it, at its home: the group
is done and holds what the home answered, or it waits there, for a version or, a RET store, for a buffer entry, or it fails,
and a port that waits at its pairing for a walk or a record then goes on (R211, R229). An AGN's and a replay unit's access are their
units' next moves. -/
def Obligations.HomeAccessPerforms : Prop :=
  ∀ (s : State) (t u k j : Nat) (p : MemPairing) (g : Group), s.focus = .event u k → s.waits = [] →
    (∀ c a, exec (.homeAccess (.agn c a)) s = .next (s.agnMove c a).peerWaits) ∧
    exec (.homeAccess (.replayUnit t)) s = .next (s.replayUnit t).peerWaits ∧
    ((issuedGroups (s.tile t).port)[k]? = some (p, j, g) → s.mayPerform t p g = true → (∀ b : Nat, s.recordWaited b = false) →
      let waiting (entry : Bool) : State :=
        ({ s with waits := [{ who := .group t p.seq j, acc := g.acc, ctx := p.ctx, entry := entry, asid := some (s.ctx p.ctx).asid,
                              input := s.homeInput (clusterOf t) g.acc.block, born := s.cycle }] } : State).updTile t fun x =>
          x.updGroup p.seq j fun _ y => { y with st := .waiting }
      (∀ s' o, s.homeAct g.acc = .done s' o →
        exec (.homeAccess (.tilePort t)) s = .next (s'.updTile t fun x =>
          x.updGroup p.seq j fun m y => y.finish m.kind (fmtBytes m.fmt.toNat) o)) ∧
      ((∀ n, s.spaceOf (64 * g.acc.block) ≠ .peer n) →
        (s.homeAct g.acc = .wait → exec (.homeAccess (.tilePort t)) s = .next (waiting false)) ∧
        (s.homeAct g.acc = .noEntry → exec (.homeAccess (.tilePort t)) s = .next (waiting true))) ∧
      (∀ c f, s.homeAct g.acc = .bad c f →
        exec (.homeAccess (.tilePort t)) s = .next
          (let y := s.updTile t fun x => x.updGroup p.seq j fun _ y => { y with st := .failed c f }
           if (s.tile t).stall ≠ .none ∧ ((s.tile t).port.find? fun q => q.seq = (s.tile t).stopped).map MemPairing.seq = some p.seq then
             (({ y with misses := y.misses.filter fun w => w.who ≠ .tilePort t
                        walks := y.walks.filter fun w => w.who ≠ .tilePort t } : State).updTile t fun x =>
                { x with stall := .none }).issuePort t
           else y)))

/-- R217, R225, R226: the frame of a performed group of a store: the bytes of its elements are as Rt gave them under the tenant's key, every
other block of memory reads as before, and its block's version is one higher. -/
def Claims.FabricStoreFrame : Prop :=
  ∀ (s s' : State) (t u k j : Nat) (p : MemPairing) (g : Group) (o : AccessOut) (items : List (Nat × Byte)), s.focus = .event u k →
    (issuedGroups (s.tile t).port)[k]? = some (p, j, g) → s.mayPerform t p g = true → Claims.Still s → cellsWf s.mem = true →
    g.acc.op = .store items → (∀ x ∈ items, x.1 < 64) → (∀ n, s.spaceOf (64 * g.acc.block) ≠ .peer n) →
    (∃ z, s.homeAct g.acc = .done z o) → exec (.homeAccess (.tilePort t)) s = .next s' →
    (s'.blockMeta g.acc.block).version = (s.blockMeta g.acc.block).version + 1 ∧
    (∀ i : Nat, i < 64 → (∀ x ∈ items, x.1 ≠ i) →
      (s'.blockBytes g.acc.block g.acc.key).getD i 0 = (s.blockBytes g.acc.block g.acc.key).getD i 0) ∧
    (∀ l r x, items = l ++ x :: r → (∀ y ∈ r, y.1 ≠ x.1) → (s'.blockBytes g.acc.block g.acc.key).getD x.1 0 = x.2) ∧
    (∀ b : Nat, b ≠ g.acc.block → ∀ key : Nat, s'.blockBytes b key = s.blockBytes b key) ∧
    s'.clusters = s.clusters ∧ (∀ v : Nat, v ≠ t → s'.tile v = s.tile v) ∧ s'.net = s.net

/-- R221, R226 to R229: MEMORY_RESPONSE of a pairing whose groups are all performed emits a run over L's tags and MASK: the
words loaded or the old words, the versions created or awaited, or the entries freed; STB the one version; LDB the runs of the typed block
that it read, each of the format's longest LEN, over consecutive tags; a FENCE emits L once its predecessors
at SCOPE are performed. With a group failed it emits FAULT tokens that count the groups performed, the record giving the address of the
group's first misaligned element where that is the fault, else of its lowest. -/
def Obligations.MemoryResults : Prop :=
  ∀ (s : State) (u k : Nat) (m : MemPairing), s.focus = .event u k → (s.tile u).port[k]? = some m →
    let z := s.updTile u fun x => { x with port := x.port.eraseIdx k }
    let ts := s.slotTargets u m.slot
    let run (vals : Nat → Word) : Token :=
      { act := .normal, fmt := m.fmt, len := m.l.len, ctx := m.ctx, itag := m.l.itag, mask := m.l.mask, data := (List.range m.l.len).map vals }
    let out (tok : Token) : State := z.emit u m.slot m.ctx m.l.itag.toNat (toAll ts tok)
    ((∀ g ∈ m.groups, g.st = .done) → (m.groups.map fun g => g.elems.map Prod.fst).flatten.Nodup →
      (m.kind ∈ [.ld, .atom, .cas] → exec .memoryResponse s = .next (out (run fun i =>
        ((((m.groups.map fun g => g.vals).flatten).find? fun v => v.1 = i).map fun v => v.2).getD 0))) ∧
      (m.kind = .st ∨ m.kind = .vwait → exec .memoryResponse s = .next (out (run fun i =>
        ((m.groups.find? fun g => (g.elems.map Prod.fst).contains i).map fun g => BitVec.ofNat 64 g.ver.toNat).getD 0))) ∧
      (m.kind = .reclaim → exec .memoryResponse s = .next (out (run fun i =>
        ((m.groups.find? fun g => (g.elems.map Prod.fst).contains i).map fun g => BitVec.ofNat 64 g.count).getD 0))) ∧
      (m.kind = .stb → exec .memoryResponse s = .next (out
        { act := .normal, fmt := 11, len := 1, ctx := m.ctx, itag := m.l.itag, mask := 1,
          data := [BitVec.ofNat 64 (m.groups.headD {}).ver.toNat] })) ∧
      (m.kind = .ldb →
        let b := ((m.groups.headD {}).vals).map fun v => v.2.setWidth 8
        let f := field b 0 1 % 32
        let n := blockCount f
        let len := fmtMaxLen f
        let runs := (n + len - 1) / len
        field b 0 1 / 32 = 0 → fmtPlanes f = 0 → m.l.itag.toNat + runs * len ≤ 2 ^ 32 →
        exec .memoryResponse s = .next (z.emit u m.slot m.ctx m.l.itag.toNat ((List.range runs).flatMap fun j =>
          let size := min len (n - j * len)
          toAll ts { act := .normal, fmt := BitVec.ofNat 5 f, len := len, scale := BitVec.ofNat 8 (field b 1 1), ctx := m.ctx,
                     itag := m.l.itag + BitVec.ofNat 32 (j * len), mask := BitVec.ofNat 32 (2 ^ size - 1),
                     data := (List.range size).map fun i => BitVec.ofNat 64 (blockElem b f (j * len + i)) }))) ∧
      (m.kind = .fence → s.settledBefore (clusterOf u) m.scope (s.tile u).port m = true → exec .memoryResponse s = .next (out m.l))) ∧
    (∀ l g r c f, m.groups = l ++ g :: r → (∀ x ∈ l, x.fault? = none) → g.st = .failed c f → m.kind ≠ .fence →
      (∀ x ∈ m.groups, x.st ≠ .issued ∧ x.st ≠ .waiting) →
      let unit := if m.kind = .ldb ∨ m.kind = .stb then 64 else g.acc.width
      let lowest := (g.elems.headD (0, 0)).2
      let address := if c = 0x0F ∧ f = 0x06 then ((g.elems.find? fun e => e.2 % unit ≠ 0).map Prod.snd).getD lowest else lowest
      exec .memoryResponse s = .next (z.slotFault u m.slot m.ctx ts m.fmt m.l.itag m.l.len m.l.itag.toNat c f address
        (if c = 5 then g.acc.mode.version else 0) (m.groups.countP fun x => x.st = .done)))

/-! ## Translation (R206 to R213) -/

/-- R207: a leaf denies an access by the first failing right, of read (Protection, subcode Read), write (Write), execute
(Exec), PRIV (Priv) and TYPED (Typed), and else translates it; without an entry that covers it the access misses. An address
of 2^56 or more is Translation, subcode Canonical. -/
def Claims.TranslationRights : Prop :=
  ∀ (e : TEntry) (asid va : Nat) (kind : AccKind) (priv typed : Bool), va < 2 ^ 56 → inCommons va = false → inCode va = false →
    e.asid = asid → va / 2 ^ e.shift = e.vpage →
    (translate (some e) asid va kind priv typed = .home (e.pa + va % 2 ^ e.shift) ↔
      (kind = .read ∨ kind = .readWrite → e.r = true) ∧ (kind = .write ∨ kind = .readWrite → e.w = true) ∧
      (kind = .fetch → e.x = true) ∧ (e.priv = true → priv = true) ∧ (typed = true → e.typed = true)) ∧
    (let reads := kind = .read ∨ kind = .readWrite
     let writes := kind = .write ∨ kind = .readWrite
     let denied (sub : Nat) : Prop := translate (some e) asid va kind priv typed = .bad 0x07 sub
     (reads ∧ e.r = false → denied 0x01) ∧
     (¬ (reads ∧ e.r = false) →
       (writes ∧ e.w = false → denied 0x02) ∧
       (¬ (writes ∧ e.w = false) →
         (kind = .fetch ∧ e.x = false → denied 0x03) ∧
         (¬ (kind = .fetch ∧ e.x = false) →
           (e.priv = true ∧ priv = false → denied 0x04) ∧
           (¬ (e.priv = true ∧ priv = false) → typed = true ∧ e.typed = false → denied 0x05))))) ∧
    translate none asid va kind priv typed = .miss ∧
    (∀ a : Nat, 2 ^ 56 ≤ a → translate (some e) asid a kind priv typed = .bad 0x06 0x03)

/-- R209, R210, R308: WALK_START gives a free walk slot of a domain to its oldest miss, which starts at its ASID's root
table; WALK_STEP of a walk, its read charged to the stream's tenant (R344), goes to the next table or, at a leaf, fills the
stream's entry and ends; a miss of an ASID that
is not valid is a Translation fault, subcode BadEntry. -/
def Claims.WalksTranslate : Prop :=
  ∀ (s : State) (u k i : Nat) (w : Walk), s.focus = .event u k →
    (s.misses.findIdx? (fun w => streamDomain w.who = u) = some i → s.misses[i]? = some w →
      (s.walks.filter fun w => streamDomain w.who = u).length < 128 →
      let z : State := { s.setDomain u { s.domain u with wkWalk := (s.domain u).wkWalk + 1 } with misses := s.misses.eraseIdx i }
      let e := assocGet {} s.dean.asids w.asid
      (e.valid = true → e.tenant = w.tenant ∨ w.tenant = 0 →
        exec .walkStart s = .next { z with walks := s.walks ++ [{ w with level := 3, table := e.root }] }) ∧
      (e.valid = false → exec .walkStart s = .next (z.walkFault w 0x06 0x02))) ∧
    ((s.walks.zipIdx.filter fun x => streamDomain x.1.who = u)[k]? = some (w, i) →
      let n := s.actingTenant w.tenant w.asid
      let at_ := levelEntry w.level w.table w.va
      let z := if (s.keyFor n at_).isSome then s.addMeter n (s.spaceOf at_).meter 8 else s
      (∀ t, z.walkLevel w.asid n w.level w.table w.va = .next t →
        exec .walkStep s = .next { z with walks := s.walks.set i { w with level := w.level - 1, table := t } }) ∧
      (∀ e, z.walkLevel w.asid n w.level w.table w.va = .leaf e →
        exec .walkStep s = .next (({ z with walks := s.walks.eraseIdx i } : State).fillEntry w.who e)))

/-- R213: CSRW of XINV (0x010) in a task without MAP takes the Protection trap, subcode Map. With MAP, no translation entry of
gA's ASID is left, gD is 0, and the task goes on at once where no access translated under the ASID is open, and else waits. -/
def Claims.XinvWrites : Prop :=
  ∀ (s : State) (c k : Nat) (d a : BitVec 5), Claims.Runs s c k d →
    let t := s.task c k
    let n := (t.reg a).toNat % 2 ^ 16
    let z := (s.setTask c k (t.setReg d 0)).invalidate n
    (t.map = false → exec (.csrw d a 0x010) s = .next (s.trap c k 0x07 0x08 t.pc.toNat 0 t.pc 0)) ∧
    (t.map = true → z.translatedOpen n = false → exec (.csrw d a 0x010) s = .next (z.updTask c k Task.retire)) ∧
    (t.map = true → z.translatedOpen n = true → exec (.csrw d a 0x010) s = .next (z.block c k (.xinv n))) ∧
    (∀ t : Nat, ((z.tile t).entry.all fun e => e.asid ≠ n) = true ∧ ((z.tile t).rentry.all fun e => e.asid ≠ n) = true) ∧
    (∀ c k : Nat, ((z.task c k).dentry.all fun e => e.asid ≠ n) = true ∧ ((z.task c k).fentry.all fun e => e.asid ≠ n) = true) ∧
    ∀ c a : Nat, ((assocGet {} (z.cluster c).streamer.agns a).entry.all fun e => e.asid ≠ n) = true

/-- R213: XINV leaves no translation entry of its ASID in any stream, and each task whose CSRW waits for it is RUNNABLE at
the next word, its registers as they were, once no access translated under the ASID is open. -/
def Claims.XinvInvalidates : Prop :=
  ∀ (s : State) (asid : BitVec 16), s.xinvTasks asid.toNat ≠ [] → s.translatedOpen asid.toNat = false →
    ∃ s', exec (.xinv asid) s = .next s' ∧ s'.mem = s.mem ∧ s'.net = s.net ∧
      (∀ t : Nat, ((s'.tile t).entry.all fun e => e.asid ≠ asid.toNat) = true ∧ ((s'.tile t).rentry.all fun e => e.asid ≠ asid.toNat) = true) ∧
      (∀ c k : Nat, (s.task c k).st = .blocked (.xinv asid.toNat) → (s.xinvTasks asid.toNat).count (c, k) = 1 →
        (s'.task c k).st = .runnable ∧ (s'.task c k).pc = (s.task c k).pc + 4 ∧ (s'.task c k).regs = (s.task c k).regs) ∧
      (∀ c k : Nat, ((s'.task c k).dentry.all fun e => e.asid ≠ asid.toNat) = true ∧ ((s'.task c k).fentry.all fun e => e.asid ≠ asid.toNat) = true) ∧
      ∀ c a : Nat, ((assocGet {} (s'.cluster c).streamer.agns a).entry.all fun e => e.asid ≠ asid.toNat) = true

/-- R238, R241, R242: REPLAY of the record that a tile's replay unit is at work on, for a LIVE context, whose recipe's value has the sticky's FMT and SCALE,
readmits the sticky with its value, an element that the value lacks as 0 (log 140), ORing the recipe's flags; a value of another FMT or SCALE poisons the record. Readmitted with an
entry free, no bell rung and no token that waits at the tile going first (R90), it rests in the match store under its id, with the value in its present elements, and its record is gone. -/
def Claims.ReplayReadmits : Prop :=
  ∀ (s s' : State) (u k : Nat) (d : DropRec) (v : Token) (fl : Nat), s.focus = .event u k → (s.tile u).replayHead = some d →
    (s.tile u).rstall = .none → (s.tile u).rfail = none → (s.tile u).rrun = none → (s.ctx d.tok.ctx).st = .live →
    s.replayOps u d (recipeWords ((s.blockOf u).recipes.getD d.tok.crib.toNat [])) [] 0 = .value s' (v, fl) →
    let y := s'.addFlags d.tok.ctx fl
    let tok := { d.tok with data := (List.range d.tok.len).map fun i => BitVec.ofNat 64 ((v.lane i).getD 0) }
    (v.fmt = d.tok.fmt → v.scale = d.tok.scale →
      exec .replay s = .next (y.readmit u d tok) ∧
      ((y.tile u).belled d.tok.ctx = false → d.purged = false → (y.tile u).recalls = [] → (y.tile u).rrun = none →
        y.waitersBefore u y.cycle = false →
        (∃ x, Tile.admission (Tile.readmission d tok y.cycle) (Config.matchEntries + 1) (y.tile u) = (x, some {})) →
        ∃ z, exec .replay s = .next z ∧ (∃ e ∈ (z.tile u).entries, e.id = d.id ∧ e.use = .sticky ∧ e.tok = tok) ∧
          ∀ e ∈ (z.tile u).drops, e.id ≠ d.id)) ∧
    (v.fmt ≠ d.tok.fmt ∨ v.scale ≠ d.tok.scale → exec .replay s = .next (y.poison u d 0x0C 0x01))

/-! ## Engine instructions and their engines (R163 to R202, R249 to R268) -/

/-- R190, R195, R198, R199, R201: on an L with every element, COPY, GATHER and SCATTER read their descriptor at K and join
the streamer's queue; ARM binds a free template to a free channel and emits L; DISARM of a
template that nothing has bound emits L (the model's choice, log entry 23; that ARM and DISARM emit L and need no room in the queue is log entry 77); CPSTAT emits an AGN's state, cursor, CITAG and the queue's length, or raises TagWrap where the four tags would pass
the last one (R17), and CPSTOP of an AGN that does not work for the context emits L. A slot's command has its context's ASID, tenant and PRIV (log entry 78). -/
def Obligations.StreamInstructions : Prop :=
  ∀ (s : State) (t : Nat) (p : Pairing) (w : EWord), s.focus = .firing t p → 0 < p.len → p.len ≤ 32 → Claims.Full p.left p →
    let c := clusterOf t
    let k := s.konst t w.kidx.toNat
    let n := p.left.elem 0 % 8
    let x := s.ctx p.ctx
    let z := s.hold t 1
    let cmd (op : StreamOp) : StreamCmd :=
      { op := op, signed := decide (w.fmt = 8), src := .slot t p.slot p.left, ctx := p.ctx,
        tenant := s.actingTenant x.tenant x.asid, asid := x.asid, priv := x.priv, follow := decide (w.follow = 1) }
    let joins (q : StreamCmd) (y : State) : State :=
      y.setStreamer c { (y.cluster c).streamer with queue := (y.cluster c).streamer.queue ++ [{ q with born := y.cycle }] }
    let passes (y : State) : State := y.emit t p.slot p.ctx p.itag.toNat (toAll (y.slotTargets t p.slot) p.left)
    let reply (a b d e : Nat) : Token :=
      { act := .normal, fmt := 11, len := 4, ctx := p.ctx, itag := p.itag, mask := 15,
        data := [BitVec.ofNat 64 (a % 2 ^ 32), BitVec.ofNat 64 (b % 2 ^ 32), BitVec.ofNat 64 (d % 2 ^ 32), BitVec.ofNat 64 (e % 2 ^ 32)] }
    (∀ q y, z.openDesc c k (cmd .copy) false = .ok (q, y) → exec (.copy w) s = .next (joins q y)) ∧
    (∀ q y, z.openDesc c k (cmd .gather) false = .ok (q, y) → exec (.gather w) s = .next (joins q y)) ∧
    (∀ q y, z.openDesc c k (cmd .scatter) false = .ok (q, y) → exec (.scatter w) s = .next (joins q y)) ∧
    (∀ q y, z.openDesc c k (cmd .copy) true = .ok (q, y) → q.ctx = p.ctx → q.src = .slot t p.slot p.left →
      assocHas (y.cluster c).streamer.templates q.d.tmpl = false → assocGet Chan.none (y.cluster c).streamer.chans q.d.chan = .none →
      exec (.arm w) s = .next (passes (y.setStreamer c { (y.cluster c).streamer with
        templates := assocSet (y.cluster c).streamer.templates q.d.tmpl { cmd := q, chan := q.d.chan },
        chans := assocSet (y.cluster c).streamer.chans q.d.chan (.template q.d.tmpl) }))) ∧
    (∀ bs y, inOwnCommons c k = true → k % 128 = 0 → z.readCommons c (cmd .copy).tenant k 128 = .ok (bs, y) →
      ({ cmd .copy with d := descOf bs } : StreamCmd).descOk bs true = true → assocHas (y.cluster c).streamer.templates (descOf bs).tmpl = false →
      exec (.disarm w) s = .next (passes y)) ∧
    (assocHas (s.cluster c).streamer.agns n = false →
      exec (.cpstat w) s = .next (Claims.sentTo z t p (s.targets t w.nt w.t1 w.t0) 11 4 (toAll (s.targets t w.nt w.t1 w.t0)
        (reply 0 (assocGet ({} : Agn) (s.cluster c).streamer.agns n).cursor (assocGet ({} : Agn) (s.cluster c).streamer.agns n).cmd.d.citag.toNat
          (s.cluster c).streamer.queue.length)))) ∧
    (assocHas (s.cluster c).streamer.agns n = true → (assocGet ({} : Agn) (s.cluster c).streamer.agns n).stall = .resume →
      exec (.cpstat w) s = .next (Claims.sentTo z t p (s.targets t w.nt w.t1 w.t0) 11 4 (toAll (s.targets t w.nt w.t1 w.t0)
        (reply 2 (assocGet ({} : Agn) (s.cluster c).streamer.agns n).cursor (assocGet ({} : Agn) (s.cluster c).streamer.agns n).cmd.d.citag.toNat
          (s.cluster c).streamer.queue.length)))) ∧
    ((assocGet ({} : Agn) (s.cluster c).streamer.agns n).cmd.ctx ≠ p.ctx →
      exec (.cpstop w) s = .next (z.emit t p.slot p.ctx p.itag.toNat (toAll (s.targets t w.nt w.t1 w.t0) p.left)))

/-- R163, R176, R182, R250, R260: on an L with every element a matrix, Registrar or converter instruction joins the queue of
its cluster's array, its Registrar or its tile's node; ACCZ and ACCRD name the accumulator by L's lowest element, ACCWR by
Rt's; MMSTAT emits the array's status, or raises TagWrap where the four tags would pass the last one (R17), and takes no queue entry
(the model's, log entry 71); AUCSTEP takes 1 to 65536 rounds; AUCSET of a value that its register does not take, in range (R253, R262) or in format (log entry 83), is
a Reg fault. -/
def Obligations.EngineInstructionsQueue : Prop :=
  ∀ (s : State) (t : Nat) (p : Pairing) (w : EWord), s.focus = .firing t p → 0 < p.len → p.len ≤ 32 → Claims.Full p.left p →
    let c := clusterOf t
    let k := s.konst t w.kidx.toNat
    let h := p.left.elem 0
    let z := s.hold t 1
    let array (op : ArrayOp) (g : BitVec 32) : State :=
      z.setArray c { (s.cluster c).array with queue := (s.cluster c).array.queue ++
        [{ op := op, fmt := w.fmt.toNat, desc := k, shape := k, handle := g, src := .slot t p.slot p.left, ctx := p.ctx,
           tenant := (s.ctx p.ctx).tenant, itag := p.itag, l := p.left, r := p.right, born := s.cycle,
           behind := (s.cluster c).array.gives.any fun o => decide (hSlot o.handle.toNat = hSlot g.toNat) }] }
    let registrar (op : RegOp) : State :=
      z.setRegistrar c { (s.cluster c).registrar with queue := (s.cluster c).registrar.queue ++
        [{ op := op, desc := k, code := k % 8, value := h, src := .slot t p.slot p.left, ctx := p.ctx,
           tenant := (s.ctx p.ctx).tenant, itag := p.itag, born := s.cycle }] }
    let node (op : Nat) : State :=
      z.updTile t fun x =>
        { x with convQ := x.convQ ++ [{ id := x.nextId, op := op, w := w, slot := p.slot, ctx := p.ctx, l := p.left, born := s.cycle }],
                 nextId := x.nextId + 1 }
    exec (.mma w) s = .next (array .mma (s.peekHandle c k)) ∧
    exec (.mmac w) s = .next (array .mmac (s.peekHandle c k)) ∧
    exec (.accz w) s = .next (array .accz (BitVec.ofNat 32 h)) ∧
    exec (.accrd w) s = .next (array .accrd (BitVec.ofNat 32 h)) ∧
    (Claims.Full p.right p → exec (.accwr w) s = .next (array .accwr (BitVec.ofNat 32 (p.right.elem 0)))) ∧
    ((s.cluster c).array.queue = [] → (s.cluster c).array.gives = [] →
      exec (.mmstat w) s = .next (Claims.sentTo z t p (s.targets t w.nt w.t1 w.t0) 11 4 (toAll (s.targets t w.nt w.t1 w.t0)
        { act := .normal, fmt := 11, len := 4, ctx := p.ctx, itag := p.itag, mask := 15,
          data := [0, (s.cluster c).array.done.setWidth 64, (s.cluster c).array.busy.setWidth 64, 0] }))) ∧
    exec (.aucgo w) s = .next (registrar .aucgo) ∧
    (p.left.fmt = 11 → 1 ≤ h → h ≤ 65536 → exec (.aucstep w) s = .next (registrar .aucstep)) ∧
    (p.left.fmt ≠ 11 ∨ h = 0 ∨ 65536 < h → exec (.aucstep w) s = .next
      (z.slotFault t p.slot p.ctx (s.targets t w.nt w.t1 w.t0) 11 p.itag 1 p.itag.toNat 0x0B 0x02 0 0 0)) ∧
    (p.left.fmt = (if k % 8 = 0 ∨ k % 8 = 1 ∨ k % 8 = 4 then 1 else 11) →
      ((s.cluster c).registrar.write (k % 8) h).isSome = true → exec (.aucset w) s = .next (registrar .aucset)) ∧
    (p.left.fmt ≠ (if k % 8 = 0 ∨ k % 8 = 1 ∨ k % 8 = 4 then 1 else 11) ∨
      ((s.cluster c).registrar.write (k % 8) h).isSome = false → exec (.aucset w) s = .next
      (z.slotFault t p.slot p.ctx (s.targets t w.nt w.t1 w.t0) p.left.fmt p.itag p.len p.itag.toNat 0x0B 0x11 0 0 0)) ∧
    exec (.aucget w) s = .next (registrar .aucget) ∧
    exec (.aucstop w) s = .next (registrar .aucstop) ∧
    exec (.cvt w) s = .next (node 0xB0) ∧ exec (.reblk w) s = .next (node 0xB1) ∧ exec (.qplane w) s = .next (node 0xB2) ∧
    exec (.qunpl w) s = .next (node 0xB3) ∧ exec (.scalemx w) s = .next (node 0xB4)

/-- A token that a converter's node emits in a state for the pairing it worked on (R163). -/
def Claims.converted (s : State) (u : Nat) (q : ConvCmd) (flags : Nat) (tok : Token) : State :=
  ((s.addFlags q.ctx flags).emit u q.slot q.ctx q.l.itag.toNat (toAll (s.slotTargets u q.slot) tok)).progressed q.ctx

/-- The exact number of a finite value; 0 for the others. -/
def Claims.exact : Val → ℚ
  | .fin neg m e => (if neg then -1 else 1) * m * (2 : ℚ) ^ e
  | _ => 0

/-- Whether a value is a finite number. -/
def Claims.Finite (v : Val) : Prop := ∃ neg m e, v = .fin neg m e

/-- s' is the scale that R167 gives for a run and a format: the least with which the largest magnitude of its finite elements
does not pass the format's largest finite number, within -128 to 127, and 0 where no element has a magnitude. -/
def Claims.IsScale (mode fmt : Nat) (l : Token) (s' : Int) : Prop :=
  let mags := (List.range l.len).map fun i => if l.has i then |Claims.exact (elemVal l.fmt.toNat (l.elem i) l.scale.toInt mode)| else 0
  let m := mags.foldl max 0
  let b : ℚ := if fmtFloat fmt then Claims.exact (floatVal (floatFmt fmt) ((floatFmt fmt).largest false) 0 0)
    else if fmtPlanes fmt ≠ 0 then ((planeRange fmt).2 : ℚ) else ((intRange fmt).2 : ℚ)
  (m = 0 → s' = 0) ∧
  (m ≠ 0 → ∃ z : Int, s' = max (-128) (min 127 z) ∧ m * (2 : ℚ) ^ (-z) ≤ b ∧ b < m * (2 : ℚ) ^ (-(z - 1)))

/-- A tile has one re-block buffer of a slot, or none where `vs` is empty, whose first tags hold elements of the values
`vs`. -/
def Claims.Blocked (x : Tile) (ctx slot base : Nat) (fmt : Fmt) (scale : BitVec 8) (vs : List Nat) : Prop :=
  if vs = [] then x.rebufs = []
  else ∃ b : ReBuf, x.rebufs = [b] ∧ b.ctx = ctx ∧ b.slot = slot ∧ b.base = base ∧ b.typed = true ∧ b.fmt = fmt ∧ b.scale = scale ∧
    b.cancels = 0 ∧ b.covered = BitVec.ofNat 32 (2 ^ vs.length - 1) ∧ b.present = b.covered ∧
    (∀ v ∈ b.data, v.1 < vs.length) ∧
    ∀ i < vs.length, (b.data.find? fun v => v.1 = i).map (fun v => v.2) = some (BitVec.ofNat 64 (vs.getD i 0))

/-- R140, R167 to R169, R136: CONVERTER_PAIRING of a run with every element. CVT converts each element to FMT at the scale K[7:0] (SMODE 00), at L's
(01), a pair of bit formats unchanged, or at the one that SCALEMX gives (10); SCALEMX gives that scale, NV where an element is a signalling
NaN; QPLANE clamps each element and gives one N32 element per plane, most significant first, bit i of each the
bit of element i, and the MASK last; QUNPL of j of k planes gives I8 elements with their sign extended, or N8 elements, at L's scale plus
k - j; one of another length is Illegal, subcode Planes; REBLK of a run that goes on from what its slot's buffer holds of an output run, of at most that run's length, emits the output run once
all of it is there, and keeps the rest. A QPLANE or QUNPL whose result would pass the last tag is a TagWrap fault (R17); a QUNPL with no element
present gives an EMPTY. -/
def Obligations.ConverterResults : Prop :=
  ∀ (s : State) (u j : Nat) (q : ConvCmd) (rest : List ConvCmd), s.focus = .event u j → (s.tile u).convQ = q :: rest →
    q.l.act = .normal → 0 < q.l.len → q.l.len ≤ 32 → (∀ i < q.l.len, q.l.has i = true) →
    let l := q.l
    let z := s.updTile u fun x => { x with convQ := rest }
    let sf := l.fmt.toNat
    let df := q.w.fmt.toNat
    let mode := (s.ctx q.ctx).mode.toNat
    let kst := s.konst u q.w.kidx.toNat
    let full (n : Nat) : BitVec 32 := BitVec.ofNat 32 (2 ^ n - 1)
    let fault (fmt : Fmt) (sub : Nat) : State := (z.nodeFault u { l with slot := q.slot } q.slot fmt l.itag.toNat 0x0B sub).progressed q.ctx
    let bits8 : Fmt := if fmtPlaneSigned df then 10 else 13
    let convertible := (fmtFloat sf || fmtInt sf) = true ∧ (fmtFloat df || fmtInt df || fmtPlanes df ≠ 0) = true
    (∀ s' : Int, q.op = 0xB0 → convertible →
      (bits kst 9 8 = 0 ∧ s' = sval 8 kst) ∨ (bits kst 9 8 = 1 ∧ s' = l.scale.toInt) ∨ (bits kst 9 8 = 2 ∧ s' = scaleFor mode df l) →
      let r := (List.range l.len).map fun i => convertElem sf l.scale.toInt df s' (rmOf q.w.mod.toNat mode) mode (l.elem i)
      exec .converterPairing s = .next (Claims.converted z u q (r.foldl (fun n v => n ||| v.2) 0)
        { l with slot := q.slot, fmt := if fmtPlanes df = 0 then q.w.fmt else bits8,
                 scale := BitVec.ofInt 8 s', data := r.map fun v => BitVec.ofNat 64 v.1 })) ∧
    (q.op = 0xB0 → bits kst 9 8 = 1 → (sf, df) ∈ [(29, 30), (28, 30), (30, 29), (30, 28), (11, 31), (8, 31), (31, 11), (31, 8)] →
      exec .converterPairing s = .next (Claims.converted z u q 0 { l with slot := q.slot, fmt := q.w.fmt })) ∧
    (convertible → Claims.IsScale mode df l (scaleFor mode df l)) ∧
    (q.op = 0xB4 → convertible → exec .converterPairing s = .next (Claims.converted z u q
      (if (List.range l.len).any fun i => elemVal sf (l.elem i) l.scale.toInt mode = .snan then flagNV else 0)
      { act := .normal, fmt := 8, len := 1, ctx := l.ctx, itag := l.itag, mask := 1,
        data := [BitVec.ofNat 64 (scaleFor mode df l % 2 ^ 32).toNat] })) ∧
    (q.op = 0xB2 → fmtPlanes df ≠ 0 → l.itag.toNat + (fmtPlanes df + 1) ≤ 2 ^ 32 → l.fmt = bits8 →
      let v (i : Nat) : Int := if fmtPlaneSigned df then sval 8 (l.elem i) else l.elem i
      let clamped (i : Nat) : Nat := (max (planeRange df).1 (min (planeRange df).2 (v i)) % 2 ^ fmtPlanes df).toNat
      ∃ e : List Nat, e.length = fmtPlanes df ∧
        exec .converterPairing s = .next (Claims.converted z u q 0
          { act := .normal, fmt := 11, len := fmtPlanes df + 1, scale := l.scale, ctx := l.ctx, itag := l.itag,
            mask := full (fmtPlanes df + 1), data := (e ++ [l.mask.toNat]).map fun n => BitVec.ofNat 64 n }) ∧
        ∀ k < fmtPlanes df, ∀ i < 32, (e.getD k 0).testBit i = (decide (i < l.len) && (clamped i).testBit (fmtPlanes df - 1 - k))) ∧
    (∀ m : Nat, q.op = 0xB3 → l.fmt = 11 → l.len = m + 1 → 2 ≤ m → m ≤ fmtPlanes df → 1 ≤ kst % 64 → kst % 64 ≤ 32 →
      l.itag.toNat + kst % 64 ≤ 2 ^ 32 → l.scale.toInt + (fmtPlanes df - m : Nat) ≤ 127 →
      let out : Token := { act := .empty, fmt := bits8, len := kst % 64, scale := BitVec.ofInt 8 (l.scale.toInt + (fmtPlanes df - m : Nat)),
                           ctx := l.ctx, itag := l.itag }
      (l.elem m % 2 ^ (kst % 64) = 0 → exec .converterPairing s = .next (Claims.converted z u q 0 out)) ∧
      (l.elem m % 2 ^ (kst % 64) ≠ 0 → ∃ v : List Nat, v.length = kst % 64 ∧
        exec .converterPairing s = .next (Claims.converted z u q 0
          { out with act := .normal, mask := BitVec.ofNat 32 (l.elem m % 2 ^ (kst % 64)), data := v.map fun n => BitVec.ofNat 64 n }) ∧
        ∀ i < kst % 64, v.getD i 0 < 256 ∧ ∀ b < 8, (v.getD i 0).testBit b =
          if b < m then (l.elem (m - 1 - b)).testBit i else fmtPlaneSigned df && (l.elem 0).testBit i)) ∧
    (q.op = 0xB3 → fmtPlanes df ≠ 0 → l.fmt = 11 → l.len < 3 ∨ fmtPlanes df + 1 < l.len → exec .converterPairing s = .next (fault bits8 0x1A)) ∧
    (q.op = 0xB2 → fmtPlanes df ≠ 0 → 2 ^ 32 < l.itag.toNat + (fmtPlanes df + 1) → l.fmt = bits8 →
      exec .converterPairing s = .next (fault 11 0x05)) ∧
    (q.op = 0xB3 → fmtPlanes df ≠ 0 → l.fmt = 11 → l.len = fmtPlanes df + 1 → 2 ^ 32 < l.itag.toNat + kst % 64 →
      exec .converterPairing s = .next (fault bits8 0x05)) ∧
    (∀ (n base : Nat) (pre : List Nat), q.op = 0xB1 → kst % 64 = n → 1 ≤ n → n ≤ 32 → base % n = 0 → pre.length < n →
      l.itag.toNat = base + pre.length → l.len ≤ n → l.itag.toNat + l.len ≤ 2 ^ 32 → l.ctx = q.ctx →
      Claims.Blocked (s.tile u) q.ctx q.slot base l.fmt l.scale pre →
      let vs := pre ++ (List.range l.len).map l.elem
      ∃ y : Tile, { y with rebufs := [] } = { z.tile u with rebufs := [] } ∧
        (vs.length < n → Claims.Blocked y q.ctx q.slot base l.fmt l.scale vs ∧
          exec .converterPairing s = .next ((z.setTile u y).progressed q.ctx)) ∧
        (n ≤ vs.length → Claims.Blocked y q.ctx q.slot (base + n) l.fmt l.scale (vs.drop n) ∧
          exec .converterPairing s = .next (((z.setTile u y).emit u q.slot q.ctx base (toAll ((z.setTile u y).slotTargets u q.slot)
            { act := .normal, fmt := l.fmt, len := n, scale := l.scale, ctx := l.ctx, itag := BitVec.ofNat 32 base, mask := full n,
              data := (vs.take n).map (BitVec.ofNat 64) })).progressed q.ctx)))

/-- R187, R193, R194, R195: AGN_ASSIGN gives the lowest free AGN to the head of the streamer's queue; STREAM_COMPLETE frees
an AGN whose command has done all its positions and completes it with their count; TRIGGER_TOKEN of a run of four N32 or I32
elements fires the channel's template, with its offsets moved by elements 0 and 1, or, to the fabric, its source's by element 0 and TBASE
by element 3 (the model's reading, log entry 25), and one on a channel with none is Route (0x09), subcode NoTemplate (0x01); TRANSFORM_RETURN
takes a run back for the AGN whose return channel it is: the present elements of a NORMAL run are to be written at the positions of their
tags, or are written to the slot that a handle names, and an EMPTY or CANCEL run counts as received. -/
def Obligations.StreamEvents : Prop :=
  ∀ (s : State) (u k : Nat), s.focus = .event u k →
    let st := (s.cluster u).streamer
    (∀ q rest a, st.queue = q :: rest → ((List.range 8).find? fun n => !assocHas st.agns n) = some a →
      q.d.gate = false → q.d.xform = false →
      exec .agnAssign s = .next
        (let y := (s.setStreamer u { st with queue := rest }).wake u .engine
         y.setStreamer u { (y.cluster u).streamer with agns := assocSet (y.cluster u).streamer.agns a { cmd := q, total := q.positions } })) ∧
    (let g := assocGet ({} : Agn) st.agns k
     assocHas st.agns k = true → g.stall = .none → g.finished = true → g.failed = none → g.cmd.follow = false →
      exec .streamComplete s = .next ((((s.freeAgn u k g.cmd).streamDone u g.cmd
        (if g.cmd.d.gate then g.cmd.gateTokens else g.total)).unbindTemplates u).progressed g.cmd.ctx)) ∧
    (∀ p i, s.unitHead (.trig u k) = some (p, i) → p.tok.act = .normal → (s.ctx p.tok.ctx).st ≠ .frozen →
      let z : State := { s with net := s.net.eraseIdx i }
      (assocGet Chan.none st.chans k = .none →
        exec .triggerToken s = .next (z.raise
          { cause := 0x09, sub := 0x01, ctx := p.tok.ctx, tenant := (s.ctx p.tok.ctx).tenant, source := 1,
            x := tileX (tileIn u 0), y := tileY (tileIn u 0), itag := p.tok.itag.toNat }).1) ∧
      (∀ j, assocGet Chan.none st.chans k = .template j →
        let x := assocGet ({} : Template) st.templates j
        x.cmd.ctx = p.tok.ctx → x.unbind = [] → st.queue.length < 16 →
        p.tok.fmt = 11 ∨ p.tok.fmt = 8 → p.tok.len = 4 → p.tok.mask = 15 → x.cmd.d.dkind ≠ 4 →
        exec .triggerToken s = .next (z.setStreamer u { st with queue := st.queue ++
          [{ x.cmd with
             src := .template j (BitVec.ofNat 32 (p.tok.elem 2)), born := s.cycle
             d := { x.cmd.d with soff := sval 32 (p.tok.elem 0), doff := sval 32 (p.tok.elem 1), citag := BitVec.ofNat 32 (p.tok.elem 2) } }] })) ∧
      (∀ j, assocGet Chan.none st.chans k = .template j →
        let x := assocGet ({} : Template) st.templates j
        x.cmd.ctx = p.tok.ctx → x.unbind = [] → st.queue.length < 16 →
        p.tok.fmt = 11 ∨ p.tok.fmt = 8 → p.tok.len = 4 → p.tok.mask = 15 → x.cmd.d.dkind = 4 →
        exec .triggerToken s = .next (z.setStreamer u { st with queue := st.queue ++
          [{ x.cmd with
             src := .template j (BitVec.ofNat 32 (p.tok.elem 2)), born := s.cycle
             d := { x.cmd.d with
               soff := sval 32 (p.tok.elem 0), citag := BitVec.ofNat 32 (p.tok.elem 2)
               daddr := (x.cmd.d.daddr / 2 ^ 32 + p.tok.elem 3) % 2 ^ 32 * 2 ^ 32 + x.cmd.d.daddr % 2 ^ 32 } }] }))) ∧
    (∀ p i a, s.unitHead (.trig u k) = some (p, i) → assocGet Chan.none st.chans k = .xform a →
      let g := assocGet ({} : Agn) st.agns a
      let z : State := { s with net := s.net.eraseIdx i }
      let lo := p.tok.itag.toNat
      let past := if lo ≤ g.cursor then max g.cursor (min (lo + p.tok.len) g.total) else g.cursor
      p.tok.ctx = g.cmd.ctx → g.failed = none → g.wleft = [] →
      (p.tok.act = .empty ∨ p.tok.act = .cancel →
        exec .transformReturn s = .next (z.updAgn u a fun x => { x with gotOut := x.gotOut + 1, cursor := past })) ∧
      (p.tok.act = .normal → p.tok.fmt.toNat = g.cmd.d.dfmt →
        (g.cmd.d.dkind ≠ 3 →
          let put := ((List.range p.tok.len).filter fun n => p.tok.has n && decide (lo + n < g.total)).flatMap fun n =>
            match g.posAt (lo + n) with
            | .at_ _ at_ => (toBytes g.cmd.d.dbytes (p.tok.elem n)).zipIdx.map fun b => ((g.cmd.d.daddrOf at_ + b.2) % 2 ^ 64, b.1)
            | _ => []
          exec .transformReturn s = .next (z.updAgn u a fun x =>
            { x with wleft := put, wend := past, gotOut := x.gotOut + 1, cursor := if put = [] then past else x.cursor })) ∧
        (g.cmd.d.dkind = 3 → exec .transformReturn s = .next ((z.returnHandle u a g p.tok p.tok.present).updAgn u a fun x =>
          { x with gotOut := x.gotOut + 1, cursor := x.pastRun p.tok }))))

/-- R176, R180 to R182: ARRAY_COMMAND_START starts a command that nothing before it in the queue holds back and whose handle
names a slot of the array's pool, and MMAC_ROW_START a row whose members all accepted an MMAC; ARRAY_COMMAND_COMPLETE of a started ACCZ clears the
accumulator and emits L, of an ACCRD emits its rows, of an ACCWR writes L's elements at their rows and columns and emits the handle, of
an MMA, or an MMAC to which the rows of A have been passed, sums into the accumulator, whose handle is its result, and charges its M x N x K
MACs to the meter of its class (R344). -/
def Obligations.MatrixEvents : Prop :=
  ∀ (s : State) (u k : Nat) (q : ArrayCmd), s.focus = .event u k → (s.cluster u).array.queue[k]? = some q →
    let h := q.handle.toNat
    let x := (s.cluster u).array.acc h
    let gone (y : State) (toks : List Token) : State := (((y.dropArray u k).arrayResult q toks 0).serveGives u).progressed q.ctx
    let macs (y : State) : State := match mclass q.fmt with
      | some c => y.addMeter q.tenant (match c with
        | .half => 1 | .f19 => 2 | .f32 => 3 | .f64 => 4 | .byteFloat => 5 | .byteInt => 6 | .plane => 7) (q.d.m * q.d.n * q.d.k)
      | none => y
    (q.started = false → s.mayStart u k q = true →
      (q.op = .accz ∨ q.op = .accrd ∨ q.op = .accwr → s.accCheck u h q.ctx (decide (q.op ≠ .accrd)) = none →
        exec .arrayCommandStart s = .next (s.setArray u { (s.cluster u).array with
          queue := (s.cluster u).array.queue.set k { q with started := true } })) ∧
      (q.op = .mma → ∀ bs y fa d, s.readCommons u q.tenant q.desc 32 = .ok (bs, y) → y.checkMma u q bs = .ok (fa, d) →
        exec .arrayCommandStart s = .next (y.setArray u { (y.cluster u).array with
          queue := (y.cluster u).array.queue.set k { q with fmt := fa, d := d, handle := d.acch, started := true } }))) ∧
    (q.op = .mmac → s.headMmac u = some (k, q) → ∀ bs z ms open_ y, s.readCommons u q.tenant q.desc 32 = .ok (bs, z) →
      let d := mdescOf bs
      d.gx ≤ u % 32 → d.gy ≤ u / 32 → d.gx < d.gw → d.gy < d.gh →
      (∀ i < d.gw, ∀ j < d.gh, s.memberOk q.ctx (u % 32 - d.gx + i) (u / 32 - d.gy + j) = true) →
      s.rowMembers q.ctx (u / 32) (u % 32 - d.gx) d.gw = some ms → s.openRow ms = (open_, y, true) →
      (∀ m ∈ open_.zipIdx, rowAgrees (open_.headD (0, 0, {})).2.2 m.1.2.2 m.2 = true) → (∀ m ∈ open_, y.discord m = []) →
      exec .mmacRowStart s = .next (y.startRow open_)) ∧
    (q.started = true → (∀ z ∈ (s.cluster u).array.queue.take k, hSlot z.handle.toNat ≠ hSlot h ∨ z.started = false) →
      (q.op = .accz → exec .arrayCommandComplete s = .next (gone (s.setAcc u h { kind := kindOf q.fmt }) [q.l])) ∧
      (q.op = .accrd → exec .arrayCommandComplete s = .next (gone s (accRuns q x))) ∧
      (q.op = .accwr → q.fmt = q.l.fmt.toNat → kindOf q.fmt = .f32 → x.kind = .f32 →
        ∃ y : Acc, y.kind = .f32 ∧
          exec .arrayCommandComplete s = .next (gone ({ s with tick := s.tick + 2048 }.setAcc u h y) [{ q.l with
            act := .normal, fmt := 11, scale := 0, data := (List.range q.l.len).map fun i => if q.l.has i then BitVec.ofNat 64 h else 0 }]) ∧
          (q.l.len ≤ 64 → ∀ i < q.l.len, q.l.has i = true →
            y.at_ ((q.itag.toNat + i) / 64 % 32) ((q.itag.toNat + i) % 64) = q.l.elem i) ∧
          ∀ r < 32, ∀ c < 64, (∀ i < q.l.len, q.l.has i = true → ¬ ((q.itag.toNat + i) / 64 % 32 = r ∧ (q.itag.toNat + i) % 64 = c)) →
            y.at_ r c = x.at_ r c) ∧
      (q.op = .mma → q.passed = none → ∀ rows z y fl,
        s.readRows u q.tenant q.fmt (planesRead (fmtPlanes q.fmt) q.d.apl) q.d q.d.m 0 = ((rows, none), z) →
        z.sum u q.fmt q.ctx q.d rows = .ok y fl →
        exec .arrayCommandComplete s = .next (gone (macs (((z.setAcc u q.d.acch.toNat y).addFlags q.ctx fl).countMma u q))
          [oneN32 q.ctx q.itag q.d.acch.toNat])) ∧
      (q.op = .mmac → ∀ rows y fl, q.passed = some (rows, none) → s.sum u q.fmt q.ctx q.d rows = .ok y fl →
        exec .arrayCommandComplete s = .next (gone (macs (((s.setAcc u q.d.acch.toNat y).addFlags q.ctx fl).countMma u q))
          [oneN32 q.ctx q.itag q.d.acch.toNat])))

/-- R180: the integer sum of a row and a column is exact modulo 2^32; a float group is one rounding, to nearest even, of the exact sum of
its products and the total before it, with no flag but that rounding's; a product that is not a number, or is of a zero and an infinity, leaves the
canonical NaN. -/
def Claims.MatrixSums : Prop :=
  (∀ (acc : Nat) (ps : List (Int × Int)),
    (intSteps acc ps : Int) = ((acc : Int) + (ps.map fun p => p.1 * p.2).sum) % 2 ^ 32) ∧
  (∀ (f : FloatFmt) (mode acc : Nat) (ps : List (Val × Val)), Claims.Finite (floatVal f acc 0 mode) →
    (∀ p ∈ ps, Claims.Finite p.1 ∧ Claims.Finite p.2) →
    ∃ neg m e, groupStep f mode acc ps = roundVal f 0 mode (.fin neg m e) ∧ (m = 0 → neg = false) ∧
      Claims.exact (.fin neg m e) = Claims.exact (floatVal f acc 0 mode) + (ps.map fun p => Claims.exact p.1 * Claims.exact p.2).sum) ∧
  (∀ (f : FloatFmt) (mode acc : Nat) (ps : List (Val × Val)),
    (∃ p ∈ ps, p.1.isNan = true ∨ p.2.isNan = true ∨ ∃ n k e, (p.1 = .inf n ∧ p.2 = .fin k 0 e) ∨ (p.1 = .fin k 0 e ∧ p.2 = .inf n)) →
    (groupStep f mode acc ps).1 = f.nan)

/-- The result area of a stop (R252): the column of each row, the prices, the bids, rounds, status, EPS, phases and the rows that can
never bid. -/
def Claims.auctionResults (st : RegState) (eps : BitVec 32) (a : Auction) : List Byte :=
  ((List.range 128).flatMap fun i => toBytes 2 ((a.assigned i).getD 0xFFFF)) ++
  ((List.range 128).flatMap fun j => toBytes 4 (if j < a.ncol then a.price j else 0)) ++
  ((List.range 128).flatMap fun i => toBytes 4 (a.bids.getD i 0xFF800000)) ++
  toBytes 4 a.rounds ++ toBytes 4 st.code ++ toBytes 4 eps.toNat ++ toBytes 4 a.phase ++
  toBytes 16 ((List.range 128).foldl (fun n i => if a.unassignable i then n + 2 ^ i else n) 0) ++ toBytes 32 0

/-- R250, R253, R258, R260: REGISTRAR_SERVE takes the oldest command that can be served. AUCGET gives, in eight elements, the state, the rounds, EPS,
the rows assigned, the bidders, the phases, the owner and the commands left in the queue, or raises TagWrap where its tags would pass the last one (R17);
AUCGO, and an AUCSTEP with no problem to go on with, take ownership and run the problem that their descriptor names, or fail the problem; an
AUCSTEP of the owner goes on with it for its rounds; AUCSET writes its register and passes L; an AUCSTOP of a context that owns no problem passes L, and the
owner's waits for the end of the round, or stops a paused problem at once. -/
def Claims.AuctionEvents : Prop :=
  ∀ (s : State) (u k : Nat), s.focus = .event u k →
    let r := (s.cluster u).registrar
    ∀ i q, r.queue.findIdx? r.servable = some i → r.queue[i]? = some q →
      let z := (s.setRegistrar u { r with queue := r.queue.eraseIdx i }).wake u .engine
      let rz := { r with queue := r.queue.eraseIdx i }
      let start (steps : Option Nat) : Prop :=
        (∀ a regs y, z.openAuction u q = .ok (a, regs, y) →
          let y' := y.setRegistrar u { regs with state := .running, owner := some q.ctx, auction := some { a with steps := steps },
                                                 queue := (y.cluster u).registrar.queue }
          exec .registrarServe s = .next (if a.bidders = [] then y'.stopAuction u .done true else y')) ∧
        (∀ c f at_, z.openAuction u q = .error (c, f, at_) →
          exec .registrarServe s = .next ((z.setRegistrar u { rz with state := .failed, owner := none }).regFault u q c f at_))
      (∀ t sl l, q.src = .slot t sl l →
        let out (y : State) (tok : Token) : State := (y.emit t sl q.ctx q.itag.toNat (toAll (y.slotTargets t sl) tok)).progressed q.ctx
        (q.op = .aucget →
          (q.itag.toNat + 8 ≤ 2 ^ 32 → exec .registrarServe s = .next (out z
            { act := .normal, fmt := 11, len := 8, ctx := q.ctx, itag := q.itag, mask := 255,
              data := [r.state.code, (r.auction.map fun a => a.rounds).getD 0, r.eps.toNat,
                       (r.auction.map fun a => (a.assign.filter fun x => x.isSome).length).getD 0,
                       (r.auction.map fun a => a.bidders.length).getD 0, (r.auction.map fun a => a.phase).getD 0,
                       r.owner.getD 0xFFFFFFFF, r.queue.length - 1].map fun v => BitVec.ofNat 64 (v % 2 ^ 32) })) ∧
          (2 ^ 32 < q.itag.toNat + 8 → exec .registrarServe s = .next
            (let y := z.regRaise u q 0x0B 0x05 0
             out y.1 (faultToken 11 q.ctx q.itag 1 0x0B 0x05 false 0 y.2)))) ∧
        (q.op = .aucset → l.fmt = (if q.code = 0 ∨ q.code = 1 ∨ q.code = 4 then 1 else 11) →
          ∀ r', rz.write q.code q.value = some r' → exec .registrarServe s = .next (out (z.setRegistrar u r') l)) ∧
        (q.op = .aucstop → r.owner ≠ some q.ctx → exec .registrarServe s = .next (out z l))) ∧
      (q.op = .aucgo → start none) ∧
      (q.op = .aucstep → r.owner = none → start (some q.value)) ∧
      (∀ a c, q.op = .aucstep → r.owner = some c → r.auction = some a → exec .registrarServe s = .next (z.setRegistrar u
        { rz with state := .running, auction := some { a with cmd := q, cmdRounds := 0, steps := some q.value } })) ∧
      (q.op = .aucstop → r.owner = some q.ctx →
        (r.state = .running → exec .registrarServe s = .next (z.setRegistrar u { rz with stops := r.stops ++ [q] })) ∧
        (r.state ≠ .running → exec .registrarServe s = .next ((z.setRegistrar u { rz with stops := [q] }).stopAuction u .stopped false)))

/-- R252, R255, R258, R260: AUCTION_ROUND of a running problem runs one round with its end checks: DONE with no bidder left and no further
phase, CEILING with a price above PRICEMAX, LIMIT after ROUNDMAX rounds of the command. It goes on while none holds, no AUCSTOP waits and the step is not over; else
the problem stops, DONE, CEILING, LIMIT, STOPPED or PAUSED: the result area is stored, ownership is kept where it pauses and freed else, and the running command
completes with the state and the rounds, then the AUCSTOPs with their L. -/
def Claims.AuctionEnds : Prop :=
  (∀ (s : State) (u k : Nat), s.focus = .event u k →
    let r := (s.cluster u).registrar
    ∀ a r' a' e, r.state = .running → r.auction = some a → r.endChecks (a.round r.eps.toNat) = (r', a', e) →
      (e = none → r.stops = [] → a'.steps ≠ some a'.cmdRounds →
        exec .auctionRound s = .next (s.setRegistrar u { r' with auction := some a' })) ∧
      ∀ st, e = some st ∨ (e = none ∧ r.stops ≠ [] ∧ st = .stopped) ∨ (e = none ∧ r.stops = [] ∧ a'.steps = some a'.cmdRounds ∧ st = .paused) →
        let y := s.setRegistrar u { r' with auction := some a', state := st, owner := if st = .paused then r'.owner else none, stops := [] }
        let word := st.code + 256 * (a'.rounds % 2 ^ 24)
        ∀ z, y.storeBytes a'.cmd.tenant (commonsBase u + bits a'.oaddr 18 0) 23 (Claims.auctionResults st r'.eps a') = some z →
          exec .auctionRound s = .next (r.stops.foldl (fun (z : State) q => z.regOver q)
            ((z.regResult a'.cmd (oneN32 a'.cmd.ctx a'.cmd.itag word) word).progressed a'.cmd.ctx))) ∧
  ∀ (r : Registrar) (a : Auction),
    let above := ∃ j < a.ncol, f32Lt r.priceMax.toNat (a.price j) = true
    (a.bidders = [] → r.epsDiv.toNat ≤ 1 ∨ f32Lt r.epsMin.toNat r.eps.toNat = false → r.endChecks a = (r, a, some .done)) ∧
    (a.bidders ≠ [] → above → r.endChecks a = (r, a, some .ceiling)) ∧
    (a.bidders ≠ [] → ¬ above → r.endChecks a = (r, a, if a.cmdRounds = r.roundMax.toNat then some .limit else none))

/-- R255: after a round every column holds at most as many rows as its capacity, only rows of the problem are assigned, and
to columns of it, and the price of a column that is not full is as before. -/
def Obligations.AuctionRoundKeepsCapacity : Prop :=
  ∀ (a : Auction) (eps : Nat),
    let b := a.round eps
    b.rounds = a.rounds + 1 ∧ b.caps = a.caps ∧ b.scores = a.scores ∧ b.assign.length = a.nrow ∧
    (∀ i j, b.assigned i = some j → i < a.nrow ∧ j < a.ncol) ∧
    (∀ j < a.ncol, ((List.range a.nrow).filter fun i => b.assigned i = some j).length ≤ a.caps.getD j 0) ∧
    ∀ j < a.ncol, ((List.range a.nrow).filter fun i => b.assigned i = some j).length < a.caps.getD j 0 → b.price j = a.price j

/-- R266 to R268: GATE_TOKEN takes the vector of the first GATE command, forms one logit per expert under the matrix rule
and one weight for each, and gives them to the AGN to write: the logits at the token's row and the weights at theirs; the
flags go to the context's mode word. On a gate set of another tenant the command fails (R265). -/
def Claims.GateScoresAVector : Prop :=
  ∀ (s : State) (u k c a e h n : Nat) (rest : List (Nat × Nat)), s.focus = .event u k → (s.domain u).gateQ = (c, a) :: rest →
    (s.domain u).gate = some (n, e, h) → domainOf c = u →
    let g := assocGet ({} : Agn) (s.cluster c).streamer.agns a
    g.vectorReady = true → g.wleft = [] → g.failed = none →
    (g.cmd.tenant ≠ n → exec .gateToken s = .next (s.updAgn c a fun x => { x.fail 0x07 0x0B 0 with buf := [], scorer := true })) ∧
    (g.cmd.tenant = n → g.cmd.d.cnt0 = h →
    let t := (g.fetched - 1) / h
    let vec := g.buf.map fun p => (p.val.getD 0).toNat
    let ls := (List.range e).map fun i =>
      gateLogit g.cmd.d.sfmt (s.ctx g.cmd.ctx).mode.toNat vec ((List.range h).map fun j => (assocGet 0 (s.domain u).sram (i * h + j)).toNat)
    let ws := gateWeights (ls.map fun l => l.1)
    t + 1 < g.cmd.gateTokens →
    exec .gateToken s = .next ((s.addFlags g.cmd.ctx (ls.foldl (fun n l => n ||| l.2) 0)).updAgn c a fun x =>
      { x with buf := [], wend := t + 1, gmask := if ws.2 then x.gmask ||| 2 ^ t else x.gmask,
               wleft :=
                 let d := x.cmd.d
                 let row (off : Int) (vs : List Nat) : List (Nat × Byte) :=
                   (vs.flatMap (toBytes 4)).zipIdx.map fun b => (low 64 ((d.daddr : Int) + 4 * (d.doff + off + t * d.ds1)) + b.2, b.1)
                 row 0 (ls.map fun l => l.1) ++ row d.ds2 ws.1 }))

/-! ## Debug and the Dean's engine (R305 to R307, R326, R327) -/

/-- R326, R327: on an L with every element TRAP is a fault of its own cause 0x10 with K[7:0], and FAULT tokens over L's
tags; PROBE stores its record and emits L; STATQ emits the counter that K names (here ME_DROP, K = 2); CENSUS emits the tokens of
the context in the fabric and in its engines, or raises TagWrap where L's ITAG is the last tag (R17); BELLIN emits L and then rings the context's bells, unless a bell is in progress. -/
def Obligations.DebugInstructions : Prop :=
  ∀ (s : State) (t : Nat) (p : Pairing) (w : DWord), s.focus = .firing t p → 0 < p.len → p.len ≤ 32 → Claims.Full p.left p →
    let k := s.konst t w.kidx.toNat
    let z := s.hold t 1
    let ts := s.targets t w.nt w.t1 w.t0
    let l := p.left.withLanes ((List.range p.len).map fun i => some (p.left.elem i))
    let out (y : State) (tok : Token) : State := y.emit t p.slot p.ctx p.itag.toNat (toAll ts tok)
    exec (.trap w) s = .next (z.slotFault t p.slot p.ctx ts p.left.fmt p.itag p.len p.itag.toNat 0x10 (k % 256) 0 0 0) ∧
    exec (.probe w) s = .next (out (z.storeProbe p.ctx (z.probeBytes t p.slot l)) l) ∧
    (k % 32 = 2 → exec (.statq w) s = .next (out z (oneN32 p.ctx p.itag (s.tile t).counters.meDrop.toNat))) ∧
    exec (.census w) s = .next (Claims.sentTo z t p ts 11 2 (toAll ts
      { act := .normal, fmt := 11, len := 2, ctx := p.ctx, itag := p.itag, mask := 3,
        data := [BitVec.ofNat 64 (z.census p.ctx % 2 ^ 32), BitVec.ofNat 64 (z.engines p.ctx % 2 ^ 32)] })) ∧
    (((out z l).ctx p.ctx).bell ≠ none → exec (.bellin w) s = .next (out z l)) ∧
    (((out z l).ctx p.ctx).bell = none → exec (.bellin w) s = .next ((out z l).ringBells p.ctx true))

/-- The context that CTXNEW starts (R22, R306, R313): LIVE under its queue's record, its injection hold set while initial
tokens are to come. -/
def Claims.newCtx (s : State) (q image tag n : Nat) : Ctx :=
  let r := (s.queue q).rcd
  { st := .live, hold := decide (n ≠ 0), inject := n, queue := q, image := image, cls := r.cls % 4, asid := r.asid, tenant := r.tenant,
    mode := BitVec.ofNat 32 (r.mode % 256 / 16 * 16 + (if r.mode % 8 ≤ 4 then r.mode % 8 else 0)), bucket := r.bucket,
    fbase := r.fbase, priv := decide ((s.regionOf image).map (fun z => z.priv) = some true), tag := tag, tNew := s.cycle }

/-- R306, R307, R340, R342, R344: a privileged instruction of the Dean's engine on an L of its own format and length, with every
element. CTXNEW, unless its image's region is to go (R301), takes the lowest FREE tag, and
its host tag and NTOK from its queue's head launch (the model's choice, log entry 29); CTXFREE frees a reclaimed context; INJECT reads a token image, checks it and sends it for a
LIVE context; SCRUB starts the Eraser; PLACEH gives PLACE's answer; METER stores a report; KEYLD loads or unloads a key slot; BELLOUT
rings a LIVE context's bells and waits. -/
def Claims.PrivilegedInstructions : Prop :=
  ∀ (s : State) (t : Nat) (p : Pairing) (w : DWord), s.focus = .firing t p → 0 < p.len → p.len ≤ 32 → Claims.Full p.left p →
    p.left.fmt = w.fmt →
    let x := s.ctx p.ctx
    let e0 := p.left.elem 0
    let e1 := p.left.elem 1
    let z := s.hold t 1
    let ts := s.targets t w.nt w.t1 w.t0
    let l := p.left.withLanes ((List.range p.len).map fun i => some (p.left.elem i))
    let out (y : State) (tok : Token) : State := y.emit t p.slot p.ctx p.itag.toNat (toAll ts tok)
    let first := s.predecessorsDone t (s.tile t).portSeq p.ctx = true
    (p.len = 2 → s.dean.newWaits = [] → e0 < 1024 → (s.queue e0).rcd.weight ≠ 0 → s.regionOf e1 ≠ none → (∀ r, s.regionOf e1 = some r → s.shut r = false) → ∀ c, s.freeTag = some c →
      exec (.ctxnew w) s = .next
        (let a := z.launchOf e0 e1
         let y := z.setCtx c (Claims.newCtx z e0 e1 a.1 a.2)
         let y := y.updRegion e1 fun r => { r with lastStart := s.cycle }
         out (y.clearArea c) (oneN32 p.ctx p.itag c))) ∧
    (p.len = 1 → e0 < 4096 → (s.ctx e0).st = .retiring → (s.ctx e0).reclaimed = true →
      exec (.ctxfree w) s = .next (out (z.freeCtx e0) l)) ∧
    (p.len = 1 → e0 % 16 = 0 → first → ∀ h y bs y' tok, z.deanRead x.asid x.tenant x.priv e0 16 = .ok (h, y) →
      z.deanRead x.asid x.tenant x.priv e0 (imageBytes (field h 0 8)) = .ok (bs, y') → tokenOfImage bs = some tok →
      (y'.ctx tok.ctx).st = .live →
      exec (.inject w) s = .next (out (((y'.deanInject tok { tile := tok.destTile, slot := 35 }).updCtx tok.ctx fun c =>
        { c with inject := c.inject - 1, hold := c.hold && decide (1 < c.inject) })) l)) ∧
    (p.len = 4 → e0 &&& 0x7FFF3F7F = e0 → e1 < 2 ^ 16 → p.left.elem 2 < 2 ^ 12 → p.left.elem 3 = 0 →
      exec (.scrub w) s = .next (z.setDean { s.dean with scrubs := s.dean.scrubs ++
        [{ rect := e0, banks := e1, tenant := p.left.elem 2, src := some (t, { p with l := .held l }, w.nt) }] })) ∧
    (p.len = 2 → e1 &&& 0x701FF = e1 →
      (s.session (e1 % 512) (bits e1 18 16) ≠ none → exec (.placeh w) s = .next (out z (oneN64 p.ctx p.itag (placeFailed 0x13)))) ∧
      (s.session (e1 % 512) (bits e1 18 16) = none → ∀ h y, z.deanRead x.asid x.tenant x.priv e0 hdrBytes = .ok (h, y) →
        exec (.placeh w) s = .next (out (y.placeSearch (e1 % 512) (bits e1 18 16) e0 h).2
          (oneN64 p.ctx p.itag (y.placeSearch (e1 % 512) (bits e1 18 16) e0 h).1)))) ∧
    (p.len = 2 → e0 < 2 ^ 18 → bits e0 17 16 < 2 → bits e0 15 12 = 0 → e1 % 64 = 0 → first → ∀ nonce y bs y',
      z.deanRead x.asid x.tenant x.priv (e1 + 0x80) 32 = .ok (nonce, y) →
      y.deanWrite x.asid x.tenant x.priv e1 (y.meterReport (e0 % 2 ^ 16) (bits e0 17 16) nonce) = .ok (bs, y') →
      exec (.meter w) s = .next (out y' l)) ∧
    (p.len = 2 → e0 < 2 ^ 24 → bits e0 23 20 = 0 → ∀ bs y k, z.deanRead x.asid x.tenant x.priv e1 64 = .ok (bs, y) → y.unwrap (bits e0 23 8) bs = some k →
      (∀ q ∈ y.dean.keys, q.2.tenant = bits e0 23 8 → q.1 = e0 % 256) →
      exec (.keyld w) s = .next (out (y.setDean { y.dean with
        keys := assocSet y.dean.keys (e0 % 256) { tenant := bits e0 23 8, key := k } }) l)) ∧
    (p.len = 2 → 2 ^ 24 ≤ e0 → e0 < 2 ^ 25 → bits e0 23 20 = 0 → s.keyIdle (bits e0 23 8) = true →
      exec (.keyld w) s = .next (out (z.setDean { s.dean with
        keys := s.dean.keys.filter fun q => !(q.1 = e0 % 256 && q.2.tenant = bits e0 23 8) }) l)) ∧
    (p.len = 1 → e0 < 4096 → (s.ctx e0).st = .live →
      exec (.bellout w) s = .next
        (let y := if (s.ctx e0).bell = none then z.ringBells e0 false else z
         y.setDean { y.dean with bellWaits := y.dean.bellWaits ++ [(e0, t, { p with l := .held l })] }))

/-- R340: when the Eraser is done, the tiles and banks of the SCRUB are erased, the accesses that waited for it
are met again, and its firing emits L. -/
def Claims.EraserCompletes : Prop :=
  ∀ (s : State) (u k : Nat) (x : Scrub), s.focus = .event u k → s.dean.scrubs[k]? = some x →
    let e := (s.setDean { s.dean with scrubs := s.dean.scrubs.eraseIdx k }).erase (bits x.rect 6 0) (bits x.rect 13 8) (bits x.rect 23 16)
      (bits x.rect 30 24) x.banks x.tenant
    let y := e.serveWaits (2 * e.waits.length)
    (x.src = none → exec .eraserDone s = .next y) ∧
    (∀ t p n, x.src = some (t, p, n) → exec .eraserDone s = .next
      (y.emit t p.slot p.ctx p.itag.toNat (toAll (y.slotTargets t p.slot) p.left)))

/-! ## Events of the fabric and the Dean -/

/-- R89 to R91, R319: TOKEN_ARRIVAL takes the head of a tile's input port: a token of a context that is neither LIVE nor FROZEN
is discarded, a PURGE purges its slot's port; an admitted token leaves the buffer, and one that is not admitted stays at its place,
stalled. A token that has not come yet, or before which the head of another port, a replayed value (R90) or a token that a restore has put in at the
tile (R322) is taken, stays as it is. -/
def Claims.TokenArrival : Prop :=
  ∀ (s : State) (u k i : Nat) (p : Packet), s.focus = .event u k → s.inputHead u k = some (p, i) →
    (s.cycle < p.since ∨ s.doorBefore u p = true ∨ s.replayBefore u p = true ∨ (∃ q < 5, s.headBefore u q p k = true) → exec .tokenArrival s = .next s) ∧
    (p.since ≤ s.cycle → s.doorBefore u p = false → s.replayBefore u p = false → (∀ q < 5, s.headBefore u q p k = false) →
    let z : State := { s with net := s.net.eraseIdx i }
    let c := p.tok.ctx
    (p.tok.act ≠ .bell → (s.tile u).belled c = false → (s.tile u).savedFor c = false → (s.ctx c).st ≠ .live → (s.ctx c).st ≠ .frozen → exec .tokenArrival s = .next z) ∧
    (p.tok.act = .purge → (s.tile u).belled c = false → (s.tile u).savedFor c = false → (s.ctx c).st = .live → (s.slotInfo u p.tok.slot).op ≠ 0x0F →
      exec .tokenArrival s = .next (z.updTile u fun x => x.purge c p.tok.slot p.tok.port)) ∧
    (∀ s', z.arrive u p = .taken s' → exec .tokenArrival s = .next s') ∧
    (∀ s' hit, z.arrive u p = .held s' hit →
      exec .tokenArrival s = .next { s' with net := s'.net.insertIdx i { p with stalled := true, collided := hit } }))

/-- R22, R23: CONTEXT_RECLAIM does steps 1 to 4 for a RETIRING context and then frees it, and leaves any other as it is. -/
def Claims.ContextReclaim : Prop :=
  ∀ (s : State) (u k : Nat), s.focus = .event u k →
    ((s.ctx k).st = .retiring → (s.ctx k).reclaimed = false → exec .contextReclaim s = .next (s.reclaim k)) ∧
    ((s.ctx k).st = .retiring → (s.ctx k).reclaimed = true → exec .contextReclaim s = .next (s.freeCtx k)) ∧
    ((s.ctx k).st ≠ .retiring → exec .contextReclaim s = .next s)

/-- R293, R294, R298: an image written to a bound ingress window joins its queue's buffer when there is room and nothing is held
before it, else it is held; DEAN_SELECT tries the eligible queues by pass and number; LOADER_REPORT of a good report accepts the image
under the queue's tenant and ASID, unless it shares a cluster with another tenant's (R339), which ends the loading with code 0x15 and
unloads the image (that it is found at the report is the model's choice, log 151). The queues are tried until one launch is dispatched (the model's
reading, log 102). -/
def Claims.LaunchEvents : Prop :=
  ∀ (s : State) (u k : Nat), s.focus = .event u k →
    (∀ q img, (s.dean.windows.find? fun p => p.1 = k) = some (k, q) → s.dean.mail.boot = .ready →
      let raw := img.flatMap fun w : Word => toBytes 8 w.toNat
      let bs := slice raw 0 (imageBytes (field raw 0 8))
      ((s.queue q).held = [] → (s.queue q).bytes + bs.length ≤ 4096 * (s.queue q).rcd.qlen →
        exec (.ingressWrite k img) s = .next ((s.bufferImage q bs).queueGain q (s.queue q))) ∧
      ((s.queue q).held ≠ [] ∨ 4096 * (s.queue q).rcd.qlen < (s.queue q).bytes + bs.length →
        exec (.ingressWrite k img) s = .next (s.setQueue q { s.queue q with held := (s.queue q).held ++ [bs] }))) ∧
    (let z := s.raisePasses
     exec .deanSelect s = .next (z.tryQueues (((z.dean.queues.filter fun p => z.eligible p.1 p.2).insertionSort fun a b =>
        serialLt a.2.pass b.2.pass || (a.2.pass = b.2.pass && a.1 ≤ b.1)).map fun p => p.1))) ∧
    (∀ l bs y r, (s.dean.loading.find? fun l => l.queue = k && !l.accepted) = some l →
      reached (s.blockMeta (l.report / 64)).version l.version = true →
      s.loadBytes (s.actingTenant 0 (s.queue k).rcd.asid) l.report 2 8 = some (bs, y) → bit (field bs 0 8) 63 = false →
      y.regionOf l.image = some r → r.moving = false →
      let q := (s.queue k).rcd
      let z := y.updRegion l.image fun z => { z with tenant := q.tenant, asid := q.asid }
      (z.strangers q.tenant r.x0 r.y0 r.w r.h = false → exec .loaderReport s = .next
        (z.setDean { z.dean with loading := z.dean.loading.map fun z => if z = l then { z with accepted := true } else z })) ∧
      (z.strangers q.tenant r.x0 r.y0 r.w r.h = true → exec .loaderReport s = .next
        ((z.unload { r with tenant := q.tenant, asid := q.asid }).failLoading l 0x15)))

/-- R301, R370, R72: BANK_ASSIGN lays out an image whose banks are all its tenant's or pinned; DRAIN marks a region that is to go
and is empty; IMAGE_UNLOAD unloads it, and the CTXNEWs that wait are met again. -/
def Claims.RegionEvents : Prop :=
  ∀ (s : State) (u k : Nat) (r : Region), s.focus = .event u k → s.regionOf k = some r →
    (r.banked = false → s.dean.loading = [] → s.bankMoves r = [] → ∀ y,
      (((s.regionTiles r).foldl (fun (z : State) t => z.takeTile r.tenant t) s).updRegion k fun z => { z with banked := true }).layOut r = some y →
      exec .bankAssign s = .next y) ∧
    (r.leaving = true → s.imageCtxs k (fun x => x ≠ .saved) = [] → s.drained r = true →
      exec .drain s = .next (s.updRegion k fun x => { x with drained := true })) ∧
    (r.leaving = true → r.drained = true → exec .imageUnload s = .next ((s.unload r).serveNew s.dean.newWaits.length)) ∧
    (r.leaving = false → exec .imageUnload s = .next s)

/-- R297, R271: a token to dean.0 joins the completion ring with STATUS 3; a launch header to dean.1 adds a launch; a bucket
request to dean.2 of an N32 run of four that is in range adds its plan's launches once the accesses that its sender's port held before it are
performed (R221), and their count goes to the target once all have completed
(here none is named); dean.3 to dean.7 are a Route fault, subcode Dean. What dean.8 to dean.15, the firmware's, do with a
token is left open: that it is consumed with no effect here is the model's choice (log 167). -/
def Claims.ChannelEvents : Prop :=
  ∀ (s : State) (u k : Nat), s.focus = .event u k →
    (∀ p y, s.channelHead 0 = some (p, y) → p.tok.act ≠ .bell →
      exec .hostMessage s = .next (y.complete (y.ctx p.tok.ctx).queue
        { tag := (y.ctx p.tok.ctx).tag, ctx := p.tok.ctx, status := 3, msg := p.tok.image })) ∧
    (∀ p y, s.channelHead 1 = some (p, y) → p.tok.act = .normal → p.tok.fmt = 31 → p.tok.len = 4 → p.tok.mask = 15 → p.tok.elem 3 = 0 →
      exec .childLaunch s = .next (y.addLaunch (y.ctx p.tok.ctx).queue
        { image := p.tok.elem 0, tag := p.tok.elem 2,
          tokens := [{ act := .normal, fmt := 31, len := 4, mask := 15, itag := p.tok.itag, data := p.tok.data }] })) ∧
    (∀ p y, s.channelHead 2 = some (p, y) → p.tok.act = .normal → p.tok.fmt = 11 → p.tok.len = 4 → p.tok.mask = 15 →
      let x := y.ctx p.tok.ctx
      x.bucket ≠ [] → p.tok.elem 0 < 256 → p.tok.elem 2 + p.tok.elem 1 ≤ 2 ^ 24 →
      (s.accessesDone p.edge.tile p.tok.ctx p.sent = false → exec .bucketRequest s = .next s) ∧
      (s.accessesDone p.edge.tile p.tok.ctx p.sent = true → exec .bucketRequest s = .next
        (let plan := bucketPlan x.bucket (p.tok.elem 1)
         let z := y.setDean { y.dean with
           nextBucket := y.dean.nextBucket + 1
           buckets := y.dean.buckets ++ [{ id := y.dean.nextBucket, tile := p.edge.tile, ctx := p.tok.ctx,
                                           tgt := BitVec.ofNat 18 (p.tok.elem 3), itag := p.tok.itag, total := plan.length, left := plan.length }] }
         z.addBuckets x.queue x.tag y.dean.nextBucket (p.tok.elem 0) (p.tok.elem 2) plan))) ∧
    (∀ b, (s.dean.buckets.find? fun b => b.left = 0 && (s.ctx b.ctx).st ≠ .saved) = some b → b.tgt = 0 →
      exec .bucketCompletion s = .next (s.setDean { s.dean with buckets := s.dean.buckets.filter fun z => z.id ≠ b.id })) ∧
    (∀ p y, s.channelHead k = some (p, y) → p.tok.act ≠ .bell → 3 ≤ k → k < 16 →
      exec .deanChannelReserved s = .next (if k < 8 then
        (y.raise (y.slotRecord p.edge.tile p.edge.slot p.tok.ctx p.tok.lo 0x09 0x02 0 0 0)).1 else y))

/-- R271: the rows of a bucket plan add up to the count asked for, no launch has more rows than its bound, and only the last may have
fewer, under a table whose bounds rise. -/
def Claims.BucketPlanCoversRows : Prop :=
  ∀ (table : List (Nat × Nat)) (count : Nat), table ≠ [] → (∀ b ∈ table, 0 < b.1) → table.Pairwise (fun a b => a.1 < b.1) →
    let plan := bucketPlan table count
    (plan.map fun p => p.2.1).sum = count ∧ (∀ p ∈ plan, 0 < p.2.1 ∧ p.2.1 ≤ p.2.2 ∧ (p.2.2, p.1) ∈ table) ∧
    ∀ l r p, plan = l ++ p :: r → r ≠ [] → p.2.1 = p.2.2

/-- R303, R316, R317, R357: TIMETABLE_SAMPLE every 4,096 cycles samples each stage, whose active replicas stay from 1 to its NREP;
over the cap (R304) no replica is added; POWER_ESTIMATE every 4,096 cycles makes an estimate, any value (log entry 15), which stands until the next; after THERMAL_TRIP no context is LIVE and the
cap is 300 W; THERMAL_RECOVERY ends the heat; PROCTOR_EXPIRY of a region whose counter has reached its interval while a LIVE context has work
freezes its LIVE contexts, keeps the occupancy map and raises a Hang for each with work (the map's private address and the next one's are the
model's, log 106). -/
def Claims.WatchEvents : Prop :=
  ∀ (s : State) (u k : Nat), s.focus = .event u k →
    (s.dean.lastSample + 4096 ≤ s.cycle → exec .timetableSample s = .next (s.setDean { s.dean with
      lastSample := s.cycle, regions := s.dean.regions.map fun r => { r with stages := r.stages.map fun g => s.sampleStage r g } })) ∧
    (∀ (r : Region) (g : Stage), 1 ≤ g.active → g.active ≤ g.nrep →
      1 ≤ (s.sampleStage r g).active ∧ (s.sampleStage r g).active ≤ (s.sampleStage r g).nrep ∧
      (s.dean.cap < s.dean.estimate → (s.sampleStage r g).active ≤ g.active)) ∧
    (s.dean.lastPower + 4096 ≤ s.cycle → ∃ watts : Nat, exec .powerEstimate s = .next
      { s.setDean { s.dean with lastPower := s.cycle, estimate := watts } with tick := s.tick + 1 }) ∧
    (∃ s', exec .thermalTrip s = .next s' ∧ (∀ c, (s'.ctx c).st ≠ .live) ∧ s'.dean.cap = 300 ∧ s'.dean.hot = true ∧ s'.mem = s.mem ∧
      s'.net = s.net ∧ ∀ c, (s.ctx c).st = .live → (s'.ctx c).st = .frozen ∧ (s'.ctx c).why = .thermal) ∧
    (s.dean.hot = true → exec .thermalRecovery s = .next
      (s.dean.ctxs.foldl (fun (z : State) p => if (z.ctx p.1).st = .frozen && (z.ctx p.1).why = .thermal then z.unfreeze p.1 else z)
        (s.setDean { s.dean with hot := false }))) ∧
    (∀ r, s.regionOf k = some r → r.progress + 2 ^ r.pexp ≤ s.cycle → s.heldStill r = false →
      let live := s.imageCtxs k fun x => x = .live
      let busy := (live.map fun c => (c, s.census c)).filter fun c => c.2 ≠ 0 || s.engines c.1 ≠ 0
      busy ≠ [] →
      exec .proctorExpiry s = .next
        (let z := live.foldl (fun (z : State) c => z.freeze c .fault) s
         let m := s.occupancy r
         let z := z.setDean { z.dean with maps := assocSet z.dean.maps s.dean.nextMap m, nextMap := s.dean.nextMap + (m.length + 63) / 64 * 64 }
         busy.foldl (fun (z : State) c => z.hang r s.dean.nextMap c) z))

/-- R319, R320: TILE_SAVE of a tile whose bells have come and whose started firings are done saves it for the context, and a tile that
is not due is left alone; BELL_STUCK after the Proctor interval is BellProtocol, subcode 0x02. -/
def Claims.BellEvents : Prop :=
  ∀ (s : State) (u k : Nat), s.focus = .event u k →
    (((s.tile u).bellOf k).due = true → ((s.tile u).bellOf k).saved = false → (s.ctx k).bell ≠ none → s.firingsOpen u k = false →
      exec .tileSave s = .next (s.saveTile u k)) ∧
    (((s.tile u).bellOf k).due = false → exec .tileSave s = .next s) ∧
    (∀ since r, (s.ctx k).bell = some since → s.ctxRegion k = some r → since + 2 ^ r.pexp ≤ s.cycle →
      exec .bellStuck s = .next (s.bellProtocol (tileOf r.x0 r.y0) k 0x02))

/-- R275, R278, R286, R289, R290: VC_DELIVERY appends a token to a VC's queue of fewer than 4 and leaves it in the network else; where a
task has bound the VC, its RECV of it or its WFI ends;
QUANTUM_EXPIRY yields the running task once another is RUNNABLE and 1,024 instructions have retired; SLEEP_EXPIRY ends a
sleep that is over, and with it every WFI of its core (log entry 136); FETCH_BLOCK fills the fetch line of a task in the image code window from its own image. -/
def Claims.CoreEvents : Prop :=
  ∀ (s : State) (u k : Nat), s.focus = .event u k →
    (∀ p i, s.unitHead (.vc u k) = some (p, i) → p.tok.act ≠ .bell →
      (4 ≤ (s.vc u k).queue.length → exec .vcDelivery s = .next s) ∧
      ((s.vc u k).queue.length < 4 →
        let y := ({ s with net := s.net.eraseIdx i } : State).setVc u k { s.vc u k with queue := (s.vc u k).queue ++ [p.tok] }
        ((s.vc u k).bound = none → exec .vcDelivery s = .next y) ∧
        ∀ j, (s.vc u k).bound = some j →
          ((s.task u j).st = .blocked (.recv k) → exec .vcDelivery s = .next (y.updTask u j fun t => { t with st := .runnable })) ∧
          ((s.task u j).st = .blocked .wfi → exec .vcDelivery s = .next (y.updTask u j fun t =>
            { t with pc := t.pc + 4, instret := t.instret + 1, ranged := [], st := .runnable })) ∧
          ((s.task u j).st ≠ .blocked (.recv k) → (s.task u j).st ≠ .blocked .wfi → exec .vcDelivery s = .next (y.updTask u j fun t => t)))) ∧
    (∀ j, (s.cluster u).core.running = some j → s.quantumOver u = true →
      exec .quantumExpiry s = .next ((s.yieldTask u j).switchTask u)) ∧
    (∀ n, (s.task u k).st = .blocked (.sleep n) →
      (n ≤ s.cycle → ∃ s', exec .sleepExpiry s = .next s' ∧ s'.mem = s.mem ∧ s'.net = s.net ∧ s'.tiles = s.tiles ∧ s'.dean = s.dean ∧
        (∀ c, c ≠ u → s'.cluster c = s.cluster c) ∧
        ∀ j, s'.task u j = if j = k ∨ (s.task u j).st = .blocked .wfi
          then { s.task u j with pc := (s.task u j).pc + 4, instret := (s.task u j).instret + 1, ranged := [], st := .runnable } else s.task u j) ∧
      (s.cycle < n → exec .sleepExpiry s = .next s)) ∧
    ((s.task u k).st = .blocked .fetch → 
      let t := s.task u k
      ∀ im off len r, t.image = some (im, off, len) → s.regionOf im = some r → t.pc.toNat < 2 ^ 56 → inCode t.pc.toNat = true →
      off ≤ t.pc.toNat % 2 ^ 32 → t.pc.toNat % 2 ^ 32 < off + len →
      exec .fetchBlock s = .next (s.updTask u k fun t =>
        { t with line := some (t.pc.toNat / 64, slice r.bytes (t.pc.toNat % 2 ^ 32 / 64 * 64) 64), st := .runnable }))

/-- R330, R331, R333, R334: PACKET_HOP moves a packet that has come to its place, that nothing has to leave before, whose next buffer
has room and that its output port sends next, one place on towards its tile, to the end of that buffer, where it comes after the cycles of its
hop, and takes the output for as many cycles as it has flits; it moves no other packet, tile or byte; one that may not go stays. A flit retry delays the
hop that a packet is in by 4 cycles and changes nothing else. -/
def Claims.NetworkHops : Prop :=
  ∀ (s : State) (u k d : Nat) (p : Packet), s.focus = .event u k → s.net[k]? = some p → p.mcast = none → p.dest = .tile d →
    (∀ pl, p.since ≤ s.cycle → s.behind k p = false → s.nextPlace p d = some pl → s.served k (outputOf p pl) = true →
      ((∀ c, p.place ≠ .source c) → exec .packetHop s = .next { s with
        net := s.net.eraseIdx k ++ [{ p with place := pl, since := s.cycle + p.hopCycles pl }],
        outputs := match outputOf p pl with
          | some o => assocSet s.outputs o { vc := p.vc, free := s.cycle + p.flits }
          | none => s.outputs }) ∧
      ∃ s', exec .packetHop s = .next s' ∧ s'.net = s.net.eraseIdx k ++ [{ p with place := pl, since := s.cycle + p.hopCycles pl }] ∧
        s'.mem = s.mem ∧ s'.tiles = s.tiles ∧ s'.dean = s.dean) ∧
    (s.cycle < p.since ∨ s.behind k p = true ∨ s.nextPlace p d = none → exec .packetHop s = .next s) ∧
    (∀ pl, s.nextPlace p d = some pl → s.served k (outputOf p pl) = false → exec .packetHop s = .next s) ∧
    (s.inHop p = true → exec .flitRetry s = .next { s with net := s.net.set k { p with since := p.since + 4 } }) ∧
    (s.inHop p = false → exec .flitRetry s = .next s)

/-- R333: the packet that an output port sends next may go through it now; no packet that may is of a virtual channel whose turn
comes earlier, in the order config, response, request, token from the one after the last served; and of its channel it comes from an
uncontended edge where any does, then is the oldest, then at the first port in the order local, north, east, south, west. A port
sends something where any packet may go. -/
def Claims.OutputArbitration : Prop :=
  ∀ (s : State) (o : Nat),
    let may (i : Nat) (p : Packet) : Prop := s.net[i]? = some p ∧ ∃ pl, s.moveOf i p = some pl ∧ outputOf p pl = some o
    let turn (vc : Nat) : Nat := ((match vc with | 3 => 0 | 1 => 1 | 0 => 2 | _ => 3) + 7 -
      (match (assocGet {} s.outputs o).vc with | 3 => 0 | 1 => 1 | 0 => 2 | _ => 3)) % 4
    (∀ i, s.arbitrate o = some i → ∃ p, may i p ∧ ∀ j q, may j q → q.vc < 4 → turn p.vc ≤ turn q.vc ∧ (q.vc = p.vc →
      (s.uncontended q = true → s.uncontended p = true) ∧
      (s.uncontended q = s.uncontended p → p.sent ≤ q.sent ∧ (p.sent = q.sent → p.place.port ≤ q.place.port)))) ∧
    (∀ i p, may i p → p.vc < 4 → ∃ j, s.arbitrate o = some j)

/-- R330: on the torus a packet for another cluster comes one hop nearer with every router, so that it arrives. -/
def Obligations.TorusRoutesApproach : Prop :=
  ∀ c d : Nat, c < 512 → d < 512 → c ≠ d →
    let dist (a b n : Nat) : Nat := min ((b + n - a) % n) ((a + n - b) % n)
    let far (a : Nat) : Nat := dist (a % 32) (d % 32) 32 + dist (a / 32) (d / 32) 16
    let n := torusNext c (torusWay c d)
    n < 512 ∧ far n + 1 = far c ∧ 1 ≤ torusWay c d ∧ torusWay c d ≤ 4

/-! ## The host: commands, mailbox, aperture and bring-up (R350 to R355) -/

/-- A command's end (R351): STATUS in its record, HEAD one further, and the command interrupt where one is set. -/
def Claims.answered (s : State) (code detail : Nat) : State :=
  let m := s.dean.mail
  let z := s.hostStore (m.record + 8) 2 (toBytes 4 (code + 256 * detail))
  let z := z.setDean { z.dean with doing := .idle, mail := { z.dean.mail with head := m.head + 1 } }
  if m.cmdIntr = 0 then z else { z with intr := z.intr ++ [(m.cmdIntr, (m.head + 1).toNat)] }

/-- A command of the host with its arguments, in its first turn. -/
abbrev Claims.Command (s : State) (a : CmdArgs) : Prop := s.focus = .command a ∧ s.dean.doing = .idle

/-- R292, R293, R308, R309, R316, R336, R343, R345 to R347, R350, R357: the commands on queues, bindings, tables, gates, keys and
reports, on arguments in range: each has its effect and ends with OK. QSET and IMPORT take in what the queue's link holds and has
room for, and lose none of it (R293); a record that names ASID 0 passes no check (R308). (That IMPORT reads the queue's images again from
QBUF under the record's tenant is the model's choice, log 112. Unbinding a window, KEY's unload and EXPORT of a final record are not stated here.) -/
def Obligations.HostTableCommands : Prop :=
  ∀ (s : State) (a : CmdArgs), Claims.Command s a →
    let a0 := a.a0.toNat
    let a1 := a.a1.toNat
    let a2 := a.a2.toNat
    let a3 := a.a3.toNat
    let a4 := a.a4.toNat
    let ok (y : State) : Host.Outcome State Fault Refusal := .next (Claims.answered y 0 0)
    (a0 < 1024 → ∀ bs y, s.physRead 0 a1 256 = some (bs, y) → queueRecOk bs = true → y.recordRefused a0 (queueRecOf bs) = false →
      let x := y.queue a0
      exec .hostQset s = ok (((y.setQueue a0 { x with rcd := queueRecOf bs }).admitHeld a0 x.held.length).queueGain a0 x) ∧
      (x.held = [] → exec .hostQset s = ok (y.updQueue a0 fun x => { x with rcd := queueRecOf bs }))) ∧
    (∀ bs, (queueRecOf bs).asid = 0 → queueRecOk bs = false) ∧
    (a0 < 2 ^ 22 → groupOf (bits a0 21 12) = bits a0 5 0 →
      exec .hostWbind s = ok (s.setDean { s.dean with
        windows := assocSet s.dean.windows (64 * bits a0 5 0 + bits a0 11 6) (bits a0 21 12) })) ∧
    (a0 < 2 → a1 < 4096 → exec .hostPortten s = ok (s.setDean { s.dean with portTen := s.dean.portTen.set a0 a1 })) ∧
    exec .hostPowcap s = ok (s.setDean { s.dean with cap := max 300 (min 1800 a0) }) ∧
    (a0 < 1008 → ∀ bs y, s.physRead 0 a1 512 = some (bs, y) → (∀ b ∈ bs, b.toNat < 32) →
      exec .hostMcast s = ok (y.setDean { y.dean with
        mcast := bs.zipIdx.foldl (fun t p => assocSet t (512 * a0 + p.2) (BitVec.ofNat 5 p.1.toNat)) y.dean.mcast })) ∧
    (0 < a0 → a0 < 2 ^ 16 → a1 < 2 ^ 52 → a1 % 2 ^ 20 = 0 → a2 < 4096 → (assocGet {} s.dean.asids a0).tenant = a2 →
      (s.invalidate a0).translatedOpen a0 = false →
      exec .hostAsid s = ok ((s.invalidate a0).setDean { (s.invalidate a0).dean with
        asids := assocSet (s.invalidate a0).dean.asids a0 { valid := decide (a1 ≠ 0), root := a1, tenant := a2 } })) ∧
    (a0 < 16 → a1 < 4096 → a2 = 0 → s.gateRunning a0 = false → (s.domain a0).gate = none →
      exec .hostGate s = ok (s.setDomain a0 { s.domain a0 with gate := none, loading := false })) ∧
    (a0 < 16 → a1 < 4096 → 0 < a2 → a2 ≤ 128 → 32 ≤ a3 → a3 ≤ 2048 → a3 % 32 = 0 → a2 * a3 * 2 ≤ 512 * 1024 →
      s.gateRunning a0 = false → (s.domain a0).gate = none → ∀ bs y, s.physRead a1 a4 (2 * a2 * a3) = some (bs, y) →
      exec .hostGate s = ok (y.setDomain a0 { s.domain a0 with
        loading := false, gate := some (a1, a2, a3),
        sram := (List.range (a2 * a3)).foldl (fun m i => assocSet m i (BitVec.ofNat 16 (field bs (2 * i) 2))) (s.domain a0).sram })) ∧
    (a0 < 256 → a1 < 4096 → a3 = 0 → ∀ bs y k, s.physRead a1 a2 64 = some (bs, y) → y.unwrap a1 bs = some k →
      (∀ q ∈ y.dean.keys, q.2.tenant = a1 → q.1 = a0) →
      exec .hostKey s = ok (y.setDean { y.dean with keys := assocSet y.dean.keys a0 { tenant := a1, key := k } })) ∧
    (a0 < 1024 → a3 = 0 → (s.queue a0).rcd.tenant ≠ 0 → ∀ y z, s.physWrite 0 a1 (s.exportBytes a0) = some y →
      y.physWrite 0 a2 (s.queue a0).bitmap = some z → exec .hostExport s = ok (z.updQueue a0 fun q => { q with dirty := [] })) ∧
    (a0 < 4096 → a1 < 2 → a2 % 64 = 0 → ∀ n y z, s.physRead a0 (a2 + 0x80) 32 = some (n, y) →
      y.physWrite a0 a2 (y.meterReport a0 a1 n) = some z → exec .hostMeter s = ok z) ∧
    (assocHas s.dean.maps a0 = true → a2 ≤ (assocGet [] s.dean.maps a0).length → ∀ y,
      s.physWrite 0 a1 ((assocGet [] s.dean.maps a0).take a2) = some y → exec .hostMapget s = ok y) ∧
    (10 ≤ a1 → a1 ≤ 30 → s.regionOf a0 ≠ none → exec .hostProctor s = ok (s.updRegion a0 fun r => { r with pexp := a1 })) ∧
    (a0 < 1024 → a3 % 64 = 0 → a4 % 4096 = 0 → (s.queue a0).rcd.weight = 0 → s.queueCtxs a0 (fun _ => true) = false →
      ∀ bs y buf z, s.physRead 0 a1 256 = some (bs, y) → field bs 0 4 = 0x58455551 →
      let rcd := slice bs 4 8 ++ toBytes 8 a2 ++ toBytes 8 a3 ++ slice bs 0x1C 8 ++ toBytes 8 a4 ++ slice bs 0x2C 4 ++ toBytes 84 0 ++
        (List.range 16).flatMap fun i => toBytes 4 (field bs (0x52 + 6 * i) 4) ++ toBytes 2 (field bs (0x50 + 6 * i) 2) ++ toBytes 2 0
      queueRecOk rcd = true → y.recordRefused a0 (queueRecOf rcd) = false → bit (field bs 0x34 1) 7 = false →
      y.bufferBytes (queueRecOf rcd) (field bs 0x38 4) (field bs 0x3C 4) (decide (field bs 0x44 4 ≠ 0)) = some (buf, z) →
      let x : Queue :=
        { rcd := queueRecOf rcd, head := field bs 0x38 4, tail := field bs 0x3C 4, images := imagesIn buf.length buf,
          pass := z.dean.vtime + BitVec.ofNat 32 (field bs 0x30 4), skips := field bs 0x34 1 % 128, n := field bs 0x40 4,
          held := (z.queue a0).held }
      exec .hostImport s = ok (((z.setQueue a0 x).admitHeld a0 x.held.length).queueGain a0 x))

/-- R300, R322, R351, R364, R370, R72: the commands on contexts, images and banks: ABORT of a LIVE or FROZEN context holds the ring until
the context has been reclaimed and then ends with OK; RESUME of one a
fault froze, DISCARD of a SAVED one and RESTORE of one into its laid out region, in which a launch may start, end with OK; PREEMPT rings a LIVE
context's bells and waits; UNLOAD marks a region with no context to go, waits, and ends with OK once it is gone; BANKS that change no
owner pins or unpins them. A context in another state gives State, and one past 4095 NotFound (and not Range: the model's choice, log 110). -/
def Claims.ContextCommands : Prop :=
  ∀ (s : State) (a : CmdArgs), Claims.Command s a →
    let c := a.a0.toNat
    let x := s.ctx c
    let ok (y : State) : Host.Outcome State Fault Refusal := .next (Claims.answered y 0 0)
    let wait (y : State) (d : Doing) : Host.Outcome State Fault Refusal := .next (y.setDean { y.dean with doing := d })
    (c < 4096 →
      (x.st = .live ∨ x.st = .frozen → exec .hostAbort s = wait (s.abort c) .waiting) ∧
      (x.st ≠ .live → x.st ≠ .frozen → exec .hostAbort s = .next (Claims.answered s 2 0)) ∧
      (x.st = .frozen → x.why = .fault → exec .hostResume s = ok ((s.unfreeze c).progressed c)) ∧
      (x.why ≠ .fault → exec .hostResume s = .next (Claims.answered s 2 0)) ∧
      (x.st = .live → x.bell = none → exec .hostPreempt s = wait (s.ringBells c false) (.bell c)) ∧
      (x.st ≠ .live → exec .hostPreempt s = .next (Claims.answered s 2 0)) ∧
      (x.st = .saved → exec .hostDiscard s = ok (s.discard c)) ∧
      (x.st ≠ .saved → exec .hostDiscard s = .next (Claims.answered s 2 0)) ∧
      (∀ r y, x.st = .saved → a.a1 = 0 → s.dean.loading = [] → s.regionOf x.image = some r → r.laid = true → s.shut r = false →
        (s.unloadMoved x.image).restoreInto c r = some y →
        exec .hostRestore s = ok ((y.progressed c).serveNew (y.progressed c).dean.newWaits.length)) ∧
      (x.st ≠ .saved → exec .hostRestore s = .next (Claims.answered s 2 0))) ∧
    (4096 ≤ c → ∀ i ∈ [Instr.hostAbort, .hostResume, .hostPreempt, .hostDiscard, .hostRestore], exec i s = .next (Claims.answered s 3 0)) ∧
    (s.regionOf c ≠ none → s.imageCtxs c (fun _ => true) = [] →
      exec .hostUnload s = wait (s.updRegion c fun r => { r with leaving := true }) .waiting) ∧
    (s.regionOf c = none → exec .hostUnload s = .next (Claims.answered s 3 0)) ∧
    (c < 512 → a.a1.toNat < 2 ^ 16 → a.a2.toNat < 4096 → a.a3.toNat < 2 →
      (∀ b < 16, bit a.a1.toNat b = true → (s.cluster c).banks.getD b 0 = a.a2.toNat) →
      exec .hostBanks s = .next
        (let y := Claims.answered (s.setCluster c { s.cluster c with
           pins := (s.cluster c).pins.zipIdx.map fun p => if bit a.a1.toNat p.2 then decide (a.a3.toNat = 1) else p.1 }) 0 0
         y.serveNew y.dean.newWaits.length))

/-- R351, R352: a command that has been decided ends with its code, an UNLOAD that waits ends with OK once its region is gone and an ABORT
once its context is no more RETIRING, until when it holds the ring, and an
unknown command ends with BadCmd. -/
def Claims.HostCommandsEnd : Prop :=
  ∀ (s : State) (a : CmdArgs), s.focus = .command a →
    (∀ code detail, s.dean.doing = .decided code detail →
      ∀ i ∈ [Instr.hostQset, .hostWbind, .hostPortten, .hostPowcap, .hostMcast, .hostAsid, .hostGate, .hostKey, .hostUnload, .hostAbort,
             .hostResume, .hostPreempt, .hostRestore, .hostDiscard, .hostMeter, .hostExport, .hostImport, .hostProctor, .hostMapget, .hostBanks],
        exec i s = .next (Claims.answered s code detail)) ∧
    (s.dean.doing = .waiting → s.regionOf a.a0.toNat = none → exec .hostUnload s = .next (Claims.answered s 0 0)) ∧
    (s.dean.doing = .waiting → a.a0.toNat < 4096 →
      ((s.ctx a.a0.toNat).st = .retiring → exec .hostAbort s = .next s) ∧
      ((s.ctx a.a0.toNat).st ≠ .retiring → exec .hostAbort s = .next (Claims.answered s 0 0))) ∧
    ∀ op : BitVec 16, s.dean.doing = .idle → exec (.badCommand op) s = .next (Claims.answered s 1 0)

/-- R351, R350, R353: TAIL is clamped to HEAD plus the ring's entries; a mailbox write changes its own field, and the ring's base and
size only while HEAD is TAIL; a host load through the aperture gives the bytes under its port's tenant, and a host store of one block is a store
at NEXT at its home under that tenant, whose queue pages become dirty (R346); a load past the aperture gives zeros; a store there
is discarded, as a peer's access past it is. The tenant of a peer's access is any 12-bit value (log entry 12). -/
def Obligations.HostEdge : Prop :=
  ∀ (s : State), let m := s.dean.mail
    (∀ v : BitVec 32, exec (.tail v) s = .next (s.setDean { s.dean with mail := { m with
      tail := if (v - m.head).toNat ≤ m.entries then v else m.head + BitVec.ofNat 32 m.entries } })) ∧
    (∀ v : Word,
      exec (.mailboxWrite 0x10 v) s = .next (s.setDean { s.dean with mail := { m with firmware := v.toNat } }) ∧
      exec (.mailboxWrite 0x38 v) s = .next (s.setDean { s.dean with mail := { m with cmdIntr := v.toNat } }) ∧
      (m.head = m.tail → v.toNat < 2 ^ 44 → v.toNat % 4096 = 0 →
        exec (.mailboxWrite 0x20 v) s = .next (s.setDean { s.dean with mail := { m with ring := v.toNat } })) ∧
      (m.head ≠ m.tail → exec (.mailboxWrite 0x20 v) s = .next s ∧ exec (.mailboxWrite 0x28 v) s = .next s)) ∧
    (∀ port off n bs y, port < 2 → off < 2 ^ 38 → s.edgeBlocked off n = false → s.loadBytes (s.dean.portTen.getD port 0) off (blocksFor n) n = some (bs, y) →
      exec (.hostApertureAccess port off n []) s = .next { y with hostRead := bs }) ∧
    (∀ port off n data key z o, port < 2 → off < 2 ^ 38 → data ≠ [] → off % 64 + data.length ≤ 64 → Claims.Still s →
      s.keyFor (s.dean.portTen.getD port 0) off = some key →
      s.homeAct { block := off / 64, op := .store (data.zipIdx.map fun p => (off % 64 + p.2, p.1)), mode := .next, key := key,
                  tenant := s.dean.portTen.getD port 0, moved := data.length } = .done z o →
      exec (.hostApertureAccess port off n data) s = .next (z.soilPages off data.length)) ∧
    (∀ port off n data, port < 2 → 2 ^ 38 ≤ off →
      exec (.hostApertureAccess port off n []) s = .next { s with hostRead := List.replicate n 0 } ∧
      (data ≠ [] → exec (.hostApertureAccess port off n data) s = .next s)) ∧
    (∀ off n op, 2 ^ 38 ≤ off → exec (.peerAccess off n op) s = .next s) ∧
    ∀ off, off < 2 ^ 38 → ∃ tenant : Nat, tenant < 4096 ∧
      let z : State := { s with tick := s.tick + 1 }
      (∀ n bs y, s.edgeBlocked off n = false → z.loadBytes tenant off (blocksFor n) n = some (bs, y) →
        exec (.peerAccess off n .load) s = .next y) ∧
      (∀ n data key y o, data ≠ [] → off % 64 + data.length ≤ 64 → Claims.Still s → z.keyFor tenant off = some key →
        z.homeAct { block := off / 64, op := .store (data.zipIdx.map fun p => (off % 64 + p.2, p.1)), mode := .next, key := key,
                    tenant := tenant, moved := data.length } = .done y o →
        exec (.peerAccess off n (.store data false)) s = .next y)

/-- R354, R355: the boot ROM stops at the first step that fails: with a host port that failed, at step 3 with that port as its detail; with no
firmware image, at step 4 with SIGCHK's 4; with a signature that fails, at step 4 with its status; else the boot is ready at step 5, slot 0 holds the
Dean's key for tenant 0, and memory outside the commons and the meters are as they were (the model's choice, log entry 30). -/
def Obligations.BringUp : Prop :=
  ∀ (s : State) (rom : BootInputs), ((List.range 16).filter rom.failedDomains.contains).length < 16 →
    let z := s.bootStart rom
    let stops (step detail : Nat) : Prop := ∃ s', exec (.reset rom) s = .next s' ∧ s'.dean.mail.boot = .failed ∧
      s'.dean.mail.step = step ∧ s'.dean.mail.detail = detail
    (rom.failedPorts.contains 0 = true → stops 3 0) ∧
    (rom.failedPorts.contains 0 = false → rom.failedPorts.contains 1 = true → stops 3 1) ∧
    (rom.failedPorts.contains 0 = false → rom.failedPorts.contains 1 = false →
      (z.firmwareImage = none → stops 4 4) ∧
      (∀ bs, z.firmwareImage = some bs → z.sigStatus bs 0 ≠ 0 → stops 4 (z.sigStatus bs 0 % 256)) ∧
      (∀ bs, z.firmwareImage = some bs → z.sigStatus bs 0 = 0 → ∃ s', exec (.reset rom) s = .next s' ∧
        s'.dean.mail.boot = .ready ∧ s'.dean.mail.step = 5 ∧ s'.dean.keys = [(0, { tenant := 0, key := rom.firmwareDataKey })] ∧
        (∀ c, (s'.ctx c).st = .free) ∧ s'.dean.meters = s.dean.meters ∧ s'.cycle = 0 ∧ s'.net = [] ∧
        ∀ b, b < 2 ^ 52 → cellGet s'.mem b = cellGet s.mem b))

/-! ## Encodings, steps, reset and whole-machine rules -/

/-- R40, R42, R31, R36, R37, R38: words of the two instruction sets written out from their encodings, with the instructions they stand
for. -/
def Obligations.WordsDecode : Prop :=
  -- R41's examples, ERET, a nonzero zero field, and an opcode that is not in the table
  decodeCore 0x50429A34#32 = .ok (.ldC 4 5 6 2 1 2 1) ∧ decodeCore 0x72107FFE#32 = .ok (.bne 1 0 0x7FFE) ∧
  decodeCore 0xC6000000#32 = .ok .eret ∧
  decodeCore 0xC6000001#32 = .error (.badField 0x63) ∧ decodeCore 0xFE000000#32 = .error (.badOp 0x7F) ∧
  -- the examples of R35, and of the pool, matrix, crib and system instructions
  decodeFabric 0x420860404014000A#64 = .ok (.fmul { fmt := 1, el := 1, er := 2, nt := 2, t1 := 0x1005, t0 := 0xA }) ∧
  decodeFabric 0x204048A000020400#64 = .ok (.add { fmt := 8, el := 1, kr := 1, kidx := 1, nt := 1, t0 := 0x20400 }) ∧
  decodeFabric 0x1000492000000002#64 = .ok (.alloc { el := 1, kr := 1, kidx := 2, nt := 1, t0 := 2 }) ∧
  decodeFabric 0xB03001A000000006#64 = .ok (.cvt { fmt := 6, kidx := 3, nt := 1, t0 := 6 }) ∧
  decodeFabric 0xB800312000000004#64 = .ok (.aucgo { scope := 1, acq := 1, kidx := 2, nt := 1, t0 := 4 }) ∧
  decodeFabric 0xE058402000000014#64 = .ok (.ctxnew { fmt := 11, el := 1, nt := 1, t0 := 0x14 }) ∧
  decodeFabric 0xFF00000000000000#64 = .error (.reservedOpcode 0xFF)

/-- R30 to R42: decode of encode is the instruction, for every well-formed instruction with an encoding, every operand at every value. -/
def Claims.DecodeAfterEncode : Prop := ∀ i : Instr, Sys2Proof.Laws.EncodeDecode.Statement i

/-- R30 to R42: each word has one meaning: what decodes encodes back to the same word, in both instruction sets, and a slot word
decodes to a well-formed instruction. -/
def Claims.EncodeAfterDecode : Prop :=
  (∀ (w : BitVec 64) (i : Instr), decodeFabric w = .ok i → encodeFabric i = some w ∧ i.wf = true) ∧
  (∀ (w : BitVec 32) (i : Instr), decodeCore w = .ok i → encodeCore i = some w) ∧
  (∀ w : BitVec 32, decodeCore w = .error (.badOp (w.toNat / 2 ^ 25)) ∨ decodeCore w = .error (.badField (w.toNat / 2 ^ 25)) ∨
    ∃ i, decodeCore w = .ok i)

/-- R24, R41, R290, R351: a turn of a tile, a core, an event or the host's command ring runs the instruction that its slot word, the word at its pc, the
event or the command record stands for: step is exec of it in the state that the turn makes, and the end of the step (log entry 1). -/
def Obligations.StepRunsInstruction : Prop :=
  ∀ (s : State) (dl : Nat) (who : Actor) (rest : List Turn), s.agenda = { delay := dl, actor := who } :: rest →
    s.dean.mail.boot ≠ .failed →
    let z := ({ s with agenda := rest } : State).passTime dl
    (∀ t p n i, who = .fire t → (z.tile t).lastRound < z.cycle → z.outputRoom t = true → z.select t = some (p, n) →
      decodeFabric ((z.blockOf t).slots.getD p.slot 0) = .ok i →
      ∃ y p', y.focus = .firing t p' ∧ p'.slot = p.slot ∧ p'.ctx = p.ctx ∧ p'.itag = p.itag ∧ p'.len = p.len ∧
        y.mem = z.mem ∧ y.net = z.net ∧ y.cycle = z.cycle ∧ step s = closeOutcome (exec i y)) ∧
    (∀ c k w i, who = .core c → (z.cluster c).core.running = some k → z.quantumOver c = false → (z.task c k).fetched = some w →
      decodeCore w = .ok i → (∀ r ∈ instrRegs i, (z.task c k).pending r = false) → (z.task c k).dirty = [] →
      step s = closeOutcome (exec i { z with focus := .task c k })) ∧
    (∀ c k w, who = .core c → (z.cluster c).core.running = some k → z.quantumOver c = false → (z.task c k).fetched = some w →
      (∀ i, decodeCore w ≠ .ok i) → (z.task c k).dirty = [] →
      step s = closeOutcome (exec (.badOp w) { z with focus := .task c k })) ∧
    (∀ i u k, who = .event i u k → isEvent i = true → step s = closeOutcome (exec i { z with focus := .event u k })) ∧
    (∀ y i, who = .deanCommand → z.nextCommand = some (y, i) → step s = closeOutcome (exec i y))

/-- R43: a word whose opcode is not in the table takes the Illegal fault, subcode BadOp, and one whose zero field is not zero BadField;
neither is skipped. -/
def Claims.IllegalCoreWords : Prop :=
  ∀ (s : State) (c k op : Nat) (w : BitVec 32), s.focus = .task c k →
    (decodeCore w = .error (.badOp op) → exec (.badOp w) s = .next (s.trap c k 0x0B 0x07 (s.task c k).pc.toNat 0 (s.task c k).pc 0)) ∧
    (decodeCore w = .error (.badField op) → exec (.badOp w) s = .next (s.trap c k 0x0B 0x08 (s.task c k).pc.toNat 0 (s.task c k).pc 0))

/-- R43, R351, R354: no step is refused, and only a failed boot faults: whatever moves, a machine whose boot has not failed has a next state, and one
whose boot has failed still takes a reset and a write of TAIL. -/
def Obligations.EveryStepGoesOn : Prop :=
  (∀ s : State, s.dean.mail.boot ≠ .failed → ∃ t, step s = .next t) ∧
  (∀ (s : State) (r : Refusal), step s ≠ .refused r) ∧
  (∀ (s : State) (dl u k : Nat) (rom : BootInputs) (rest : List Turn),
    s.agenda = { delay := dl, actor := .event (.reset rom) u k } :: rest → ∃ t, step s = .next t) ∧
  (∀ (s : State) (dl u k : Nat) (v : BitVec 32) (rest : List Turn),
    s.agenda = { delay := dl, actor := .event (.tail v) u k } :: rest → ∃ t, step s = .next t)

/-- R354: at reset no context is LIVE, no task and no region exists, the boot status reads running with HEAD and TAIL 0, every queue is
unconfigured, each tile's match store is empty with its peak 0 (R88), and each Registrar IDLE (R249). That the arrays, streamers and tile stores are
empty and no gate set is held, and that no address is listed, so that memory reads as zero, is the model's choice (log entries 3 and 4). -/
def Claims.ResetValues : Prop :=
  let s := State.reset
  s.mem = [] ∧ s.net = [] ∧ s.cycle = 0 ∧ (∀ c, (s.ctx c).st = .free) ∧ (∀ c k, (s.task c k).st = .free) ∧ s.dean.regions = [] ∧
  s.dean.mail.boot = .running ∧ s.dean.mail.head = 0 ∧ s.dean.mail.tail = 0 ∧ (∀ q, (s.queue q).rcd.weight = 0) ∧
  (∀ t, (s.tile t).entries = [] ∧ (s.tile t).counters.mePeak = 0 ∧ (s.tile t).store = []) ∧
  (∀ c, (s.cluster c).array.queue = [] ∧ (s.cluster c).registrar.state = .idle ∧ (s.cluster c).streamer.agns = []) ∧
  ∀ d, (s.domain d).gate = none

/-- At reset the memory is in its canonical form, addresses ascending and no blank byte, which is the model's own (log 4). -/
def Claims.ResetMemoryCanonical : Prop := cellsWf State.reset.mem = true

/-- Every step keeps the memory in its canonical form: addresses ascending, and no byte listed that equals what an unlisted address reads
as. The form is the model's own (log 4), and by it memories that read alike are equal data. -/
def Obligations.StepsKeepMemoryCanonical : Prop :=
  ∀ s t : State, cellsWf s.mem = true → step s = .next t → cellsWf t.mem = true

/-! ## Rules stated whole -/

/-- R9: for every x below 128 and y below 64, the tile named (x, y) has those coordinates, belongs to cluster floor(y/4) x
32 + floor(x/4), which is below 512, and has the local index (y mod 4) x 4 + (x mod 4), below 16; and tN of that
cluster is that tile. -/
def Obligations.TileNames : Prop :=
  ∀ x y : Nat, x < 128 → y < 64 →
    let t := tileOf x y
    tileX t = x ∧ tileY t = y ∧ clusterOf t = (y / 4) * 32 + x / 4 ∧ clusterOf t < 512 ∧
    localOf t = (y % 4) * 4 + x % 4 ∧ localOf t < 16 ∧ tileIn (clusterOf t) (localOf t) = t

/-- R81: in a task with CFG and an open session, CFGRB ends the session with its staged blocks, makes every RESERVED tile
of the rectangle FREE and no other tile different, leaves the committed regions and memory as they are, and gives the
number of staged blocks; with no session it gives 0; a word with gA or gB not g0 is refused as BadField. The task is BLOCKED for the
cycles of R371. (A task holds at most one session, R74; in a state where it held more, all of them end.) -/
def Obligations.RollbackDiscards : Prop :=
  (∀ (s : State) (c k : Nat) (d : BitVec 5), Claims.Configures s c k d →
    (s.session c k = none → exec (.cfgrb d) s = .next (Claims.resulted s c k d 0 40)) ∧
    (∀ x, s.session c k = some x → (∀ y ∈ s.dean.sessions, y.ofTask c k = true → y.x0 + y.w ≤ 128) → ∃ z : State,
      exec (.cfgrb d) s = .next (Claims.resulted z c k d (BitVec.ofNat 64 x.staged.length) (40 + x.w * x.h + 3 * farthest c x.tiles)) ∧
      z.session c k = none ∧ z.dean.regions = s.dean.regions ∧ z.mem = s.mem ∧
      (∀ t, x.holds t = true → s.fused t = false → (s.tile t).status = .reserved → z.tile t = { s.tile t with status := .free }) ∧
      ∀ t, (∀ y ∈ s.dean.sessions, y.ofTask c k = true → y.holds t = false) ∨ (s.tile t).status ≠ .reserved → z.tile t = s.tile t)) ∧
  ∀ w : BitVec 32, w.toNat / 2 ^ 25 = 0x4C → w.toNat % 2 ^ 20 ≠ 0 → decodeCore w = .error (.badField 0x4C)

/-- R83: FUSEQ writes to gD, in bit i, whether tile (64 x gA[6] + i, gA[5:0]) is FUSED, whatever the higher bits of gA;
where all 16 tiles of a cluster are fused, its tiles' bits are 1; a word with gB not g0 is refused as BadField. The task is BLOCKED
for the 4 cycles of R371. -/
def Obligations.FuseRowRead : Prop :=
  (∀ (s : State) (c k : Nat) (d a : BitVec 5), Claims.Runs s c k d →
    let v := ((s.task c k).reg a).toNat
    ∃ w : Word, exec (.fuseq d a) s = .next (Claims.resulted s c k d w 4) ∧
      (∀ i < 64, w.getLsbD i = s.fused (tileOf (64 * (v / 64 % 2) + i) (v % 64))) ∧
      ∀ cl i, (∀ l < 16, s.fused (tileIn cl l) = true) → i < 64 → cl < 512 → clusterOf (tileOf (64 * (v / 64 % 2) + i) (v % 64)) = cl → w.getLsbD i = true) ∧
  ∀ w : BitVec 32, w.toNat / 2 ^ 25 = 0x4E → w.toNat % 2 ^ 15 ≠ 0 → decodeCore w = .error (.badField 0x4E)

/-- R282: DIV and DIVU by zero give all ones and REM and REMU by zero gA; DIV of -2^63 by -1 gives -2^63 and REM of it 0;
every integer instruction answers a next state, whatever its values, with no mode word changed; a word with a nonzero
FN, B of CLZ or POPC, or IMM15[14:6] of a shift decodes to BadField and takes the Illegal trap, subcode BadField. -/
def Obligations.IntegerBorderCases : Prop :=
  (∀ (s : State) (c k : Nat) (d a b : BitVec 5), Claims.Runs s c k d →
    let g := (s.task c k).reg
    (g b = 0 →
      exec (.divC d a b) s = .next (Claims.wrote s c k d 0xFFFFFFFFFFFFFFFF) ∧ exec (.divu d a b) s = .next (Claims.wrote s c k d 0xFFFFFFFFFFFFFFFF) ∧
      exec (.remC d a b) s = .next (Claims.wrote s c k d (g a)) ∧ exec (.remu d a b) s = .next (Claims.wrote s c k d (g a))) ∧
    (g a = 0x8000000000000000 → g b = 0xFFFFFFFFFFFFFFFF →
      exec (.divC d a b) s = .next (Claims.wrote s c k d 0x8000000000000000) ∧ exec (.remC d a b) s = .next (Claims.wrote s c k d 0))) ∧
  -- no integer instruction faults on its values or sets a flag
  (∀ (s : State) (c k : Nat) (i : Instr) (d : BitVec 5) (f : (BitVec 5 → Word) → Word), Claims.coreValue i = some (d, f) → Claims.Runs s c k d →
    ∃ v : Word, exec i s = .next (Claims.wrote s c k d v) ∧ (Claims.wrote s c k d v).dean = s.dean) ∧
  -- a field that must be zero: FN, B of CLZ and POPC, IMM15[14:6] of a shift
  ∀ w : BitVec 32, let op := w.toNat / 2 ^ 25
    (1 ≤ op ∧ op ≤ 0x15 ∧ w.toNat % 2 ^ 10 ≠ 0) ∨ ((op = 0x14 ∨ op = 0x15) ∧ w.toNat % 2 ^ 15 ≠ 0) ∨
      (0x1C ≤ op ∧ op ≤ 0x1E ∧ w.toNat % 2 ^ 15 / 2 ^ 6 ≠ 0) →
    decodeCore w = .error (.badField op) ∧
    ∀ (s : State) (c k : Nat), s.focus = .task c k →
      exec (coreStep w) s = .next (s.trap c k 0x0B 0x08 (s.task c k).pc.toNat 0 (s.task c k).pc 0)

/-- R355: the boot status word has DETAIL in [15:8], STEP in [7:4], STATE in [3:0] (0 running, 1 ready, 2 failed) and
zeros above; it is 0 at reset; after the boot ROM has run, STEP is the last step begun, 1 to 5, and DETAIL of a
failure is SIGCHK's code for step 4, else the number of a failing domain or port. -/
def Obligations.BootStatusWord : Prop :=
  (∀ m : Mailbox, m.step < 16 →
    bits m.bootWord 63 16 = 0 ∧ m.bootWord < 2 ^ 64 ∧ bits m.bootWord 15 8 = m.detail % 256 ∧ bits m.bootWord 7 4 = m.step ∧
    bits m.bootWord 3 0 = (if m.boot = .running then 0 else if m.boot = .ready then 1 else 2)) ∧
  State.reset.dean.mail.bootWord = 0 ∧
  ∀ (s : State) (rom : BootInputs), ∃ s', exec (.reset rom) s = .next s' ∧
    let m := s'.dean.mail
    let z := s.bootStart rom
    m.boot ≠ .running ∧ 1 ≤ m.step ∧ m.step ≤ 5 ∧ (m.boot = .ready → m.step = 5) ∧ m.detail < 256 ∧
    (m.boot = .failed → m.step = 4 → (z.firmwareImage = none ∧ m.detail = 4) ∨ ∃ bs, z.firmwareImage = some bs ∧ m.detail = z.sigStatus bs 0 % 256) ∧
    (m.boot = .failed → m.step = 3 → rom.failedPorts.contains m.detail = true) ∧
    (m.boot = .failed → m.step = 2 → rom.failedDomains.contains m.detail = true) ∧
    (m.boot = .failed → m.step ≠ 1 ∧ m.step ≠ 5)

/-! ## Statements of several parts: each is the conjunction of the claims above -/

/-- Branches and jumps of a core set the pc, and JAL and JALR the link register. -/
def Obligations.CoreControlFlow : Prop := Claims.CoreBranches ∧ Claims.CoreJumps

/-- CSRR reads and CSRW replaces a task's control registers. -/
def Obligations.ControlRegisters : Prop := Claims.ControlRegisterReads ∧ Claims.ControlRegisterWrites

/-- When an instruction of a task takes a Recipe, Bounds, Illegal or Protection trap. -/
def Obligations.TaskTraps : Prop := Claims.CorePinnedRegisterTraps ∧ Claims.CoreMemoryTraps ∧ Claims.ConfigurationNeedsCfg ∧ Claims.IllegalCoreWords

/-- Memory instructions of a task block it for the access, and HOME_ACCESS completes them with what the home answers. -/
def Obligations.CoreMemoryCompletes : Prop := Claims.CoreMemoryAccesses ∧ Claims.CoreBlockInstructions

/-- Stores of a task and of the fabric change their own bytes and block version alone. -/
def Obligations.StoreFrames : Prop := Claims.CoreStoreFrame ∧ Claims.FabricStoreFrame

/-- New words of atomics, and the sums of the matrix arrays, in integer arithmetic. -/
def Obligations.WordArithmetic : Prop := Claims.AtomicWords ∧ Claims.MatrixSums

/-- RECV, SEND and BIND move tokens between VCs, memory and the fabric; byte ranges are accessed piece by piece. -/
def Obligations.TaskTokens : Prop := Claims.ReceiveToken ∧ Claims.RangeAccesses ∧ Claims.SendToken ∧ Claims.BindChannel

/-- SPAWN, YIELD, SLEEP, KILL and WFI, and HALT, BELL and QUIESCE on a context. -/
def Obligations.TaskControl : Prop := Claims.TaskScheduling ∧ Claims.ContextControl

/-- Configuration sessions: PLACE, CFGW, CFGMC, CFGCRC, CFGCOM and SIGCHK. -/
def Obligations.Configuration : Prop := Claims.ConfigurationSessions ∧ Claims.MulticastConfiguration ∧ Claims.SignatureChecks

/-- Engine commands of a task mark gD pending and are accepted; RESUME; RTAG and RUNTAG. -/
def Obligations.TaskEngineCommands : Prop := Claims.EngineCommands ∧ Claims.ResumeStream ∧ Claims.RecipeTags

/-- Element-wise integer and bit instructions compute each element and its flags. -/
def Obligations.IntegerElements : Prop := Claims.IntegerArithmetic ∧ Claims.IntegerBits

/-- Element-wise float, special-function and conversion instructions compute each element. -/
def Obligations.FloatElements : Prop := Claims.FloatArithmetic ∧ Claims.SpecialFunctionElements ∧ Claims.LocalConversions

/-- A number is its own rounding, and the exact cases of the special functions. -/
def Obligations.ElementValues : Prop := Claims.RoundingKeepsNumbers ∧ Claims.SpecialFunctionPoints

/-- FAULT operands pass with no record; an operand in another format is Illegal, Format. -/
def Obligations.OperandFaults : Prop := Claims.FaultOperandsPass ∧ Claims.WrongFormatFaults

/-- Empty policies of R96 and R97 on ADD, and MASK's own absences. -/
def Obligations.AbsentElements : Prop := Claims.EmptyPolicies ∧ Claims.MaskElements

/-- Reductions, scans, permutations and top-two over a run. -/
def Obligations.RunInstructions : Prop := Claims.RunResults ∧ Claims.TopTwo ∧ Claims.AccumulatingSum

/-- Dataflow instructions: what each sends to its targets. -/
def Obligations.DataflowInstructions : Prop := Claims.DataflowResults ∧ Claims.DataflowPassing ∧ Claims.SteerSplitsByPredicate ∧ Claims.DataflowTags ∧ Claims.PackJoins

/-- Pool instructions send their operation; DROP, RECALL and replay of dropped stickies. -/
def Obligations.PoolInstructions : Prop := Claims.PoolInstructionsSend ∧ Claims.RecallAndDrop ∧ Claims.ReplayReadmits

/-- Which pool operation a tile serves, what each does there, and the grant of an ALLOC. -/
def Obligations.PoolOperations : Prop := Claims.PoolOperationsOrder ∧ Claims.PoolOperationsServe ∧ Claims.AllocationAndGrant

/-- Fabric memory instructions form groups by block and join the tile's port; FENCE. -/
def Obligations.MemoryInstructionsIssue : Prop := Claims.MemoryGroupsIssue ∧ Claims.FenceIssues

/-- Rights against a leaf, table walks, and XINV. -/
def Obligations.Translation : Prop := Claims.TranslationRights ∧ Claims.WalksTranslate ∧ Claims.XinvWrites ∧ Claims.XinvInvalidates

/-- Registrar service, auction rounds and gate scoring. -/
def Obligations.AuctionAndGateEvents : Prop := Claims.AuctionEvents ∧ Claims.AuctionEnds ∧ Claims.GateScoresAVector

/-- Privileged instructions of the Dean's engine, and the Eraser's completion. -/
def Obligations.DeanInstructions : Prop := Claims.PrivilegedInstructions ∧ Claims.EraserCompletes

/-- A token's arrival at a tile, and the reclaim of a context. -/
def Obligations.ArrivalAndReclaim : Prop := Claims.TokenArrival ∧ Claims.ContextReclaim

/-- Ingress, queue selection, loader reports, bank assignment, drain and unload. -/
def Obligations.LaunchAndRegionEvents : Prop := Claims.LaunchEvents ∧ Claims.RegionEvents

/-- Tokens to the Dean's channels, and bucket plans that cover their rows. -/
def Obligations.DeanChannels : Prop := Claims.ChannelEvents ∧ Claims.BucketPlanCoversRows

/-- Timetable, power, thermal and Proctor events; tile saves and stuck bells. -/
def Obligations.WatchAndBellEvents : Prop := Claims.WatchEvents ∧ Claims.BellEvents

/-- VC delivery, quanta, sleeps, fetches, packet hops and the arbitration of outputs. -/
def Obligations.CoreAndNetworkEvents : Prop := Claims.CoreEvents ∧ Claims.NetworkHops ∧ Claims.OutputArbitration

/-- Host commands on contexts, images and banks, and how commands end. -/
def Obligations.HostContextCommands : Prop := Claims.ContextCommands ∧ Claims.HostCommandsEnd

/-- Decode and encode agree in both instruction sets. -/
def Obligations.EncodingsAgree : Prop := Claims.DecodeAfterEncode ∧ Claims.EncodeAfterDecode

/-- The machine at reset, and that its memory is canonical. -/
def Obligations.ResetState : Prop := Claims.ResetValues ∧ Claims.ResetMemoryCanonical


end
end

