-- ==== Sys2Proof/Laws/Firing.lean ====
section
/-! SUPPORT. What a firing computes on where its operands hold every element: the body of `State.withLanes`, and the run
that `Res.token` makes of present elements. -/

namespace Sys2Proof.Machine

theorem policy_present (each : Bool) (el er kl kr a b : Nat) :
    policy each el er kl kr (some a) (some b) = some (some a, some b, false) := by simp [policy]

/-- R96 leaves elements that both operands hold as they are. -/
theorem lanesFrom_present (each : Bool) (el er kl kr : Nat) (l : List (Nat × Nat)) (n : Nat) :
    lanesFrom each el er kl kr (l.map fun v => (some v.1, some v.2)) n =
      .ok (l.map fun v => some v.1, l.map fun v => some v.2, false) := by
  induction l generalizing n with
  | nil => rfl
  | cons v l ih => simp [lanesFrom, policy_present, ih]

/-- A hold changes when the tile may fire next, not its block. -/
@[simp] theorem State.hold_konst (s : State) (t n i : Nat) : (s.hold t n).konst t i = s.konst t i := by
  simp [State.konst, State.blockOf, State.hold, State.updTile, State.tile]

@[simp] theorem State.hold_dean (s : State) (t n : Nat) : (s.hold t n).dean = s.dean := rfl
@[simp] theorem State.hold_ctx (s : State) (t n c : Nat) : (s.hold t n).ctx c = s.ctx c := rfl

/-- The right element of a firing whose operands hold every element. -/
def rightOf (s : State) (t : Nat) (p : Pairing) (w : DWord) (two : Bool) (i : Nat) : Nat :=
  if two then if w.kr = 1 then s.konst t w.kidx.toNat % 2 ^ fmtBits w.fmt.toNat else p.right.elem i else 0

/-- A firing on operands that hold every element, with no check of `ok` failing, is its body on those elements. -/
theorem State.withLanes_full (s : State) (t : Nat) (p : Pairing) (w : DWord) (two : Bool) (out : Fmt) (held : Nat)
    (ok : Token → Token → Option (Nat × Nat)) (body : State → List (Nat × BitVec 18) → Lanes → State) (each : Bool)
    (hl : p.left.act ≠ .fault) (h : ∀ i < p.len, p.left.has i = true)
    (hr : two = true → w.kr = 0 → p.right.act ≠ .fault ∧ ∀ i < p.len, p.right.has i = true)
    (ho : ok p.left p.right = none) :
    s.withLanes t p w two out held ok body each =
      body (s.hold t held) (s.targets t w.nt w.t1 w.t0)
        { l := p.left, r := p.right, x := (List.range p.len).map fun i => some (p.left.elem i),
          y := (List.range p.len).map fun i => some (rightOf s t p w two i), fwd := false, k := s.konst t w.kidx.toNat,
          mode := (s.ctx p.ctx).mode.toNat } := by
  have hk : (s.hold t held).konst t w.kidx.toNat = s.konst t w.kidx.toNat := State.hold_konst s t held _
  have e : (List.range p.len).map (fun i => (p.left.lane i, rightLane w two ((s.hold t held).konst t w.kidx.toNat) p.right i)) =
      ((List.range p.len).map fun i => (p.left.elem i, rightOf s t p w two i)).map fun v => (some v.1, some v.2) := by
    rw [List.map_map]
    apply List.map_congr_left
    intro i hi
    have hi := List.mem_range.mp hi
    have h1 : w.kr = 0 ∨ w.kr = 1 := (by decide : ∀ b : BitVec 1, b = 0 ∨ b = 1) w.kr
    cases two with
    | false => simp [Token.lane, rightLane, rightOf, h i hi]
    | true =>
      rcases h1 with h1 | h1
      · simp [Token.lane, rightLane, rightOf, h i hi, h1, (hr rfl h1).2 i hi]
      · simp [Token.lane, rightLane, rightOf, h i hi, h1, hk]
  have hb : ¬ (two && decide (w.kr = 0) && decide (p.right.act = .fault)) = true := by
    cases two with
    | false => simp
    | true => simpa using fun h1 => (hr rfl h1).1
  simp only [State.withLanes, if_neg hl, if_neg hb, ho]
  rw [e, lanesFrom_present]
  simp [List.map_map, Function.comp_def]

theorem maskOf_present (l : List Nat) : maskOf (l.map some) = 2 ^ l.length - 1 := by
  induction l with
  | nil => rfl
  | cons v l ih =>
    simp only [List.map_cons, maskOf, ih, List.length_cons, Option.isSome_some, if_true]
    have := Nat.one_le_two_pow (n := l.length)
    omega

/-- A result with every element present is a run of them (R97). -/
theorem Res.tokenAt_present (r : Res) (l : List Nat) (hv : r.vals = l.map some) (hl : l ≠ []) (c : Nat) (g : BitVec 32) (n : Nat)
    (f : Bool) :
    r.tokenAt c g n f = some { act := .normal, fmt := r.fmt, len := l.length, scale := BitVec.ofInt 8 r.scale, ctx := c, itag := g,
                               mask := BitVec.ofNat 32 (2 ^ l.length - 1), data := l.map fun v => BitVec.ofNat 64 v } := by
  have h : ¬ (r.vals.all fun v => decide (v = none)) = true := by
    cases l with
    | nil => exact absurd rfl hl
    | cons a l => simp [hv]
  rw [Res.tokenAt, if_neg h, hv, maskOf_present]
  simp [Function.comp_def]

end Sys2Proof.Machine
end

