-- ==== Sys2Proof/Laws/Frames.lean ====
section
/-! SUPPORT. What the shared operations over homes, faults, tasks and emission do to memory: most leave it alone, and
those that store keep its canonical form. -/

namespace Sys2Proof.Machine

/-! ## Folds and lists of updates -/

/-- A fold keeps what each of its steps keeps. -/
theorem foldl_keeps {α β : Type} (P : β → Prop) (f : β → α → β) (hf : ∀ z a, P z → P (f z a)) (l : List α) (z : β) (h : P z) :
    P (l.foldl f z) := by
  induction l generalizing z with
  | nil => exact h
  | cons a l ih => exact ih _ (hf z a h)

/-- A fold leaves memory alone where each of its steps does. -/
theorem foldl_mem {α : Type} (f : State → α → State) (hf : ∀ z a, (f z a).mem = z.mem) (l : List α) (s : State) :
    (l.foldl f s).mem = s.mem :=
  foldl_keeps (fun z => z.mem = s.mem) f (fun z a h => (hf z a).trans h) l s rfl

/-- A fold keeps the canonical form where each of its steps does. -/
theorem foldl_memWf {α : Type} (f : State → α → State) (hf : ∀ z a, State.memWf z → (f z a).memWf) (l : List α) (s : State)
    (h : s.memWf) : (l.foldl f s).memWf :=
  foldl_keeps State.memWf f hf l s h

/-- Equal memories are in canonical form together. -/
theorem State.memWf_of_mem {s z : State} (h : z.mem = s.mem) (hw : s.memWf) : z.memWf := by rw [State.memWf, h]; exact hw

@[simp] theorem State.updTile_mem (s : State) (t : Nat) (f : Tile → Tile) : (s.updTile t f).mem = s.mem := rfl
@[simp] theorem State.updCtx_mem (s : State) (c : Nat) (f : Ctx → Ctx) : (s.updCtx c f).mem = s.mem := rfl
@[simp] theorem State.updTask_mem (s : State) (c k : Nat) (f : Task → Task) : (s.updTask c k f).mem = s.mem := rfl
@[simp] theorem State.updQueue_mem (s : State) (q : Nat) (f : Queue → Queue) : (s.updQueue q f).mem = s.mem := rfl
@[simp] theorem State.updDean_mem (s : State) (f : Dean → Dean) : (s.updDean f).mem = s.mem := rfl
@[simp] theorem State.freshWord_mem (s : State) : s.freshWord.2.mem = s.mem := rfl
@[simp] theorem State.updAgn_mem (s : State) (c a : Nat) (f : Agn → Agn) : (s.updAgn c a f).mem = s.mem := rfl

@[simp] theorem State.updBusyAgn_mem (s : State) (c a : Nat) (f : Agn → Agn) : (s.updBusyAgn c a f).mem = s.mem := by
  unfold State.updBusyAgn; split <;> rfl

/-! ## Streams, waits and accesses (R208, R217 to R220) -/

@[simp] theorem State.addMiss_mem (s : State) (w : Walk) : (s.addMiss w).mem = s.mem := by
  unfold State.addMiss; dsimp only; split <;> rfl

@[simp] theorem State.issuePort_mem (s : State) (t : Nat) : (s.issuePort t).mem = s.mem := by
  unfold State.issuePort; dsimp only; split
  · rfl
  · split
    · rfl
    · rw [State.addMiss_mem]; rfl

@[simp] theorem State.waiterDone_mem (s : State) (w : HomeWait) (o : AccessOut) : (s.waiterDone w o).mem = s.mem := by
  unfold State.waiterDone; split <;> simp

@[simp] theorem State.restartPort_mem (s : State) (t : Nat) : (s.restartPort t).mem = s.mem := by
  rw [State.restartPort, State.issuePort_mem]; rfl

@[simp] theorem State.groupFails_mem (s : State) (t seq k c u : Nat) : (s.groupFails t seq k c u).mem = s.mem := by
  unfold State.groupFails; dsimp only; split <;> simp

@[simp] theorem State.waiterBad_mem (s : State) (w : HomeWait) (c u : Nat) : (s.waiterBad w c u).mem = s.mem := by
  unfold State.waiterBad; split <;> simp

@[simp] theorem State.recordStored_mem (s : State) (b : Nat) : (s.recordStored b).mem = s.mem := by
  unfold State.recordStored
  dsimp only
  rw [foldl_mem, foldl_mem]
  · intro z p
    split <;> split <;> simp
  · intro z p
    rw [foldl_mem]
    intro z q
    split <;> rfl

@[simp] theorem State.stored_mem (s : State) (a : Access) : (s.stored a).mem = s.mem := by
  unfold State.stored; split <;> simp

/-- Waits served keep the canonical form. -/
theorem State.memWf_serveWaits (s : State) (n : Nat) (h : s.memWf) : (s.serveWaits n).memWf := by
  induction n generalizing s with
  | zero => exact h
  | succ n ih =>
    simp only [State.serveWaits]
    split
    · exact h
    · split
      · exact h
      · split
        · split
          · next s' o hd =>
            have hm := State.memWf_homeAct _ _ _ _ hd h
            exact ih _ (State.memWf_of_mem (by rw [State.waiterDone_mem, State.stored_mem]) hm)
          · exact h
        · exact ih _ (State.memWf_of_mem (State.waiterBad_mem _ _ _ _) h)
        · exact ih _ h
        · exact h

/-- What follows a performed access keeps the canonical form. -/
theorem State.memWf_afterAccess (s : State) (a : Access) (h : s.memWf) : (s.afterAccess a).memWf := by
  unfold State.afterAccess
  exact State.memWf_serveWaits _ _ (State.memWf_of_mem (State.stored_mem _ _) h)

/-- An access performed at once keeps the canonical form. -/
theorem State.memWf_actNow (s : State) (a : Access) (s' : State) (o : AccessOut) (h : s.actNow a = .done s' o) (hw : s.memWf) :
    s'.memWf := by
  unfold State.actNow at h
  split at h
  · split at h
    · split at h
      · cases h
      · split at h <;> cases h <;> exact hw
    · cases h
  · exact State.memWf_homeAct _ _ _ _ h hw

/-- A performed access keeps the canonical form. -/
theorem State.memWf_perform_done (s : State) (a : Access) (who : Waiter) (c : Nat) (asid : Option Nat) (s' : State) (o : AccessOut)
    (h : s.perform a who c asid = .done s' o) (hw : s.memWf) : s'.memWf := by
  unfold State.perform at h
  dsimp only at h
  split at h
  · cases h
  · split at h
    · next z p hz =>
      split at h
      · cases h
      · cases h; exact State.memWf_afterAccess _ _ (State.memWf_homeAct _ _ _ _ hz hw)
    all_goals cases h

/-- An access that joins a wait list leaves memory alone. -/
theorem State.perform_waits_mem (s : State) (a : Access) (who : Waiter) (c : Nat) (asid : Option Nat) (s' : State)
    (h : s.perform a who c asid = .waits s') : s'.mem = s.mem := by
  unfold State.perform at h
  dsimp only at h
  split at h
  · cases h
  · split at h
    · split at h <;> cases h
      rfl
    all_goals (cases h <;> rfl)

/-- Bytes stored by the Dean or an engine keep the canonical form. -/
theorem State.memWf_storeBytes (tenant : Nat) (n : Nat) (s : State) (h : Nat) (bs : List Byte) (s' : State)
    (hs : s.storeBytes tenant h n bs = some s') (hw : s.memWf) : s'.memWf := by
  induction n generalizing s h bs with
  | zero => simp only [State.storeBytes, Option.some.injEq] at hs; rw [← hs]; exact hw
  | succ n ih =>
    simp only [State.storeBytes] at hs
    split at hs
    · injection hs with hs; rw [← hs]; exact hw
    · split at hs
      · cases hs
      · split at hs
        · next z o hz => exact ih _ _ _ hs (State.memWf_afterAccess _ _ (State.memWf_actNow _ _ _ _ hz hw))
        · cases hs

/-- So do bytes loaded by them. -/
theorem State.memWf_loadBytes (tenant : Nat) (n : Nat) (s : State) (h k : Nat) (bs : List Byte) (s' : State)
    (hs : s.loadBytes tenant h n k = some (bs, s')) (hw : s.memWf) : s'.memWf := by
  induction n generalizing s h k bs with
  | zero =>
    simp only [State.loadBytes, Option.some.injEq, Prod.mk.injEq] at hs; rw [← hs.2]; exact hw
  | succ n ih =>
    simp only [State.loadBytes] at hs
    split at hs
    · simp only [Option.some.injEq, Prod.mk.injEq] at hs; rw [← hs.2]; exact hw
    · split at hs
      · cases hs
      · split at hs
        · next z o hz =>
          split at hs
          · next r z' hr =>
            simp only [Option.some.injEq, Prod.mk.injEq] at hs
            obtain ⟨-, rfl⟩ := hs
            exact ih _ _ _ _ hr (State.memWf_actNow _ _ _ _ hz hw)
          · cases hs
        · cases hs

theorem State.memWf_storeVirtual (s : State) (asid tenant va : Nat) (priv : Bool) (bs : List Byte) (s' : State)
    (hs : s.storeVirtual asid tenant va priv bs = some s') (hw : s.memWf) : s'.memWf := by
  unfold State.storeVirtual at hs
  split at hs
  · exact State.memWf_storeBytes _ _ _ _ _ _ hs hw
  · cases hs

theorem State.memWf_loadVirtual (s : State) (asid tenant va : Nat) (priv : Bool) (n : Nat) (bs : List Byte) (s' : State)
    (hs : s.loadVirtual asid tenant va priv n = some (bs, s')) (hw : s.memWf) : s'.memWf := by
  unfold State.loadVirtual at hs
  split at hs
  · exact State.memWf_loadBytes _ _ _ _ _ _ _ hs hw
  · cases hs

/-! ## Fault records (R312, R313) -/

@[simp] theorem State.deanFault_mem (s : State) (r : FaultRec) : (s.deanFault r).1.mem = s.mem := rfl

theorem State.memWf_areaStore (s : State) (c at_ : Nat) (mk : Nat → List Byte × Nat) (h n : Nat) (s' : State)
    (hs : s.areaStore c at_ mk = some (h, s', n)) (hw : s.memWf) : s'.memWf := by
  unfold State.areaStore at hs
  split at hs
  · cases hs
  · dsimp only at hs
    split at hs
    · cases hs
    · next b0 s1 h1 =>
      have w1 := State.memWf_loadVirtual _ _ _ _ _ _ _ _ h1 hw
      split at hs
      · split at hs
        · cases hs
        · next s2 h2 =>
          have w2 := State.memWf_storeVirtual _ _ _ _ _ _ _ h2 w1
          split at hs
          · cases hs
          · next s3 h3 =>
            simp only [Option.some.injEq, Prod.mk.injEq] at hs
            rw [← hs.2.1]
            exact State.memWf_storeVirtual _ _ _ _ _ _ _ h3 w2
      · cases hs

/-- Writing a fault record keeps the canonical form. -/
theorem State.memWf_raise (s : State) (r : FaultRec) (hw : s.memWf) : (s.raise r).1.memWf := by
  unfold State.raise
  dsimp only
  split
  · exact hw
  · split
    · exact hw
    · split
      · next h s' n ha => exact State.memWf_of_mem (State.updCtx_mem _ _ _) (State.memWf_areaStore _ _ _ _ _ _ _ ha hw)
      · exact hw

/-! ## Tasks (R276, R279) -/

@[simp] theorem State.startChild_mem (s : State) (c : Nat) (q : SpawnReq) (k : Nat) : (s.startChild c q k).mem = s.mem := rfl
@[simp] theorem State.startImage_mem (s : State) (c : Nat) (r : Region) (n k : Nat) : (s.startImage c r n k).mem = s.mem := rfl
@[simp] theorem State.mapSrc_mem (s : State) (f : CmdSource → CmdSource) : (s.mapSrc f).mem = s.mem := rfl

@[simp] theorem State.grantContext_mem (s : State) (c : Nat) : (s.grantContext c).mem = s.mem := by
  unfold State.grantContext
  dsimp only
  split
  · simp
  · split <;> simp
  · rfl

@[simp] theorem State.freeSession_mem (s : State) (x : Session) : (s.freeSession x).mem = s.mem := by
  unfold State.freeSession
  dsimp only
  rw [foldl_mem]
  intro z t
  split
  · rfl
  · rw [State.updTile_mem]

@[simp] theorem State.endSessions_mem (s : State) (f : Session → Bool) : (s.endSessions f).mem = s.mem := by
  unfold State.endSessions
  rw [State.setDean_mem, foldl_mem _ State.freeSession_mem]

@[simp] theorem State.rollback_mem (s : State) (c k : Nat) : (s.rollback c k).mem = s.mem := State.endSessions_mem _ _

@[simp] theorem State.endTask_mem (s : State) (c k : Nat) : (s.endTask c k).mem = s.mem := by
  unfold State.endTask
  simp

/-- Taking a trap keeps the canonical form. -/
theorem State.memWf_trap (s : State) (c k cause sub address bad : Nat) (ret : Word) (version : Nat) (hw : s.memWf) :
    (s.trap c k cause sub address bad ret version).memWf := by
  unfold State.trap
  dsimp only
  split
  · exact State.memWf_of_mem (State.setTask_mem _ _ _ _) (State.memWf_raise _ _ hw)
  · exact State.memWf_of_mem (State.endTask_mem _ _ _) (State.memWf_raise _ _ hw)

/-! ## Contexts (R21, R22) -/

@[simp] theorem State.countBad_mem (s : State) (c : Nat) : (s.countBad c).mem = s.mem := by
  unfold State.countBad; split <;> rfl

@[simp] theorem State.freeze_mem (s : State) (c : Nat) (w : FreezeWhy) : (s.freeze c w).mem = s.mem := by
  unfold State.freeze; split <;> rfl

@[simp] theorem State.unpark_mem (s : State) (c : Nat) : (s.unpark c).mem = s.mem := by
  unfold State.unpark
  rw [foldl_mem]
  intro z p
  rw [foldl_mem]
  intro y q
  split <;> rfl

@[simp] theorem State.bellResult_mem (s : State) (c v : Nat) : (s.bellResult c v).mem = s.mem := by
  unfold State.bellResult
  dsimp only
  rw [foldl_mem]
  · split <;> rfl
  · intro z p
    rw [foldl_mem]
    intro y q
    split
    · split <;> rfl
    · rfl

@[simp] theorem State.bellOver_mem (s : State) (c : Nat) : (s.bellOver c).mem = s.mem := by
  unfold State.bellOver
  rw [State.bellResult_mem, State.unpark_mem, State.updCtx_mem]

@[simp] theorem State.settle_mem (s : State) : s.settle.mem = s.mem := by
  unfold State.settle
  rw [foldl_mem]
  intro z p
  split
  · dsimp only
    rw [State.setCtx_mem]
    split <;> simp
  · rfl

@[simp] theorem State.progressed_mem (s : State) (c : Nat) : (s.progressed c).mem = s.mem := rfl

/-! ## Emission (R34, R35, R302) -/

@[simp] theorem State.redirect_mem (s : State) (c src dst : Nat) : (s.redirect c src dst).1.mem = s.mem := by
  unfold State.redirect
  split
  · rfl
  · split
    · rfl
    · dsimp only
      split <;> rfl

@[simp] theorem State.sendFrom_mem (s : State) (t : Nat) (p : Packet) : (s.sendFrom t p).mem = s.mem := rfl

@[simp] theorem State.post_mem (s : State) (t : Nat) (e : Edge) (tok : Token) (d : Dest × Nat × Nat) :
    (s.post t e tok d).mem = s.mem := by
  unfold State.post
  split
  · rw [State.sendFrom_mem, State.redirect_mem]
  · rfl

@[simp] theorem State.postAll_mem (s : State) (t slot : Nat) (outs : List Out) : (s.postAll t slot outs).mem = s.mem := by
  induction outs generalizing s with
  | nil => rfl
  | cons o os ih =>
    simp only [State.postAll]
    split
    · exact ih s
    · rw [ih, State.post_mem]

@[simp] theorem State.inject_mem (s : State) (c : Nat) (tok : Token) (e : Edge) (d : Dest) : (s.inject c tok e d).mem = s.mem := rfl

/-- A firing's emission keeps the canonical form. -/
theorem State.memWf_emit (s : State) (t slot ctx itag : Nat) (outs : List Out) (hw : s.memWf) : (s.emit t slot ctx itag outs).memWf := by
  unfold State.emit
  split
  · exact State.memWf_of_mem (State.postAll_mem _ _ _ _) hw
  · exact State.memWf_of_mem (State.postAll_mem _ _ _ _) (State.memWf_raise _ _ hw)

/-- So does a fault at a slot. -/
theorem State.memWf_slotFault (s : State) (t slot ctx : Nat) (ts : List (Nat × BitVec 18)) (fmt : Fmt) (itag : BitVec 32)
    (len lowest cause sub address version count : Nat) (hw : s.memWf) :
    (s.slotFault t slot ctx ts fmt itag len lowest cause sub address version count).memWf :=
  State.memWf_emit _ _ _ _ _ _ (State.memWf_raise _ _ hw)

end Sys2Proof.Machine
end

