-- ==== Sys2Proof/Laws/Shapes.lean ====
section
/-! SUPPORT. What the shapes that meanings are written in can answer: a firing, a task's instruction, an instruction that
computes a register or branches, an element-wise firing, a task's memory access. -/

namespace Sys2Proof.Machine

/-! ## A firing and a task's instruction -/

theorem firing_next {s : State} {t : Nat} {p : Pairing} (f : Nat → Pairing → State) (h : s.focus = .firing t p) :
    firing s f = .next (f t p) := by
  unfold firing; rw [h]

/-- A firing that goes on is the meaning at the focus's tile and pairing. -/
theorem firing_cases {s s' : State} {f : Nat → Pairing → State} (h : firing s f = .next s') :
    ∃ t p, s.focus = .firing t p ∧ s' = f t p := by
  unfold firing at h
  split at h
  · next t p hf => exact ⟨t, p, hf, by simpa using h.symm⟩
  · cases h

theorem firing_no_fault (s : State) (f : Nat → Pairing → State) (e : Fault) : firing s f ≠ .fault e := by
  unfold firing; split <;> simp

theorem tasking_next {s : State} {c k : Nat} (f : Nat → Nat → Task → State) (h : s.focus = .task c k) :
    tasking s f = .next (f c k (s.task c k)) := by
  unfold tasking; rw [h]

/-- A task's instruction that goes on is the meaning at the focus's task. -/
theorem tasking_cases {s s' : State} {f : Nat → Nat → Task → State} (h : tasking s f = .next s') :
    ∃ c k, s.focus = .task c k ∧ s' = f c k (s.task c k) := by
  unfold tasking at h
  split at h
  · next c k hf => exact ⟨c, k, hf, by simpa using h.symm⟩
  · cases h

theorem tasking_no_fault (s : State) (f : Nat → Nat → Task → State) (e : Fault) : tasking s f ≠ .fault e := by
  unfold tasking; split <;> simp

/-- An instruction that computes gD either traps, where gD is pinned, or writes gD and moves on. -/
theorem computing_cases {s s' : State} {d : BitVec 5} {f : Task → Word} (h : computing s d f = .next s') :
    ∃ c k, s.focus = .task c k ∧
      (((s.task c k).pinned d.toNat = true ∧ s' = s.taskFault c k 0x0C 0x05) ∨
       ((s.task c k).pinned d.toNat = false ∧ s' = s.setTask c k ((s.task c k).setReg d (f (s.task c k))).retire)) := by
  obtain ⟨c, k, hf, rfl⟩ := tasking_cases h
  refine ⟨c, k, hf, ?_⟩
  unfold State.writing
  cases hp : (s.task c k).pinned d.toNat <;> simp

/-- A branch jumps where its condition holds, and else moves on. -/
theorem branching_cases {s s' : State} {f : BitVec 15} {holds : Task → Bool} (h : branching s f holds = .next s') :
    ∃ c k, s.focus = .task c k ∧
      s' = s.setTask c k (if holds (s.task c k) then (s.task c k).jump ((s.task c k).pc + (f.signExtend 64 <<< 2)) else (s.task c k).retire) :=
  tasking_cases h

theorem State.memWf_taskFault (s : State) (c k cause sub : Nat) (hw : s.memWf) : (s.taskFault c k cause sub).memWf :=
  State.memWf_trap _ _ _ _ _ _ _ _ _ hw

theorem State.memWf_writing (s : State) (c k : Nat) (t : Task) (d : BitVec 5) (go : State) (hw : s.memWf) (hg : go.memWf) :
    (s.writing c k t d go).memWf := by
  unfold State.writing
  split
  · exact State.memWf_taskFault _ _ _ _ _ hw
  · exact hg

theorem memWf_computing (s s' : State) (d : BitVec 5) (f : Task → Word) (h : computing s d f = .next s') (hw : s.memWf) : s'.memWf := by
  obtain ⟨c, k, -, ⟨-, rfl⟩ | ⟨-, rfl⟩⟩ := computing_cases h
  · exact State.memWf_taskFault _ _ _ _ _ hw
  · exact hw

theorem memWf_branching (s s' : State) (f : BitVec 15) (holds : Task → Bool) (h : branching s f holds = .next s') (hw : s.memWf) :
    s'.memWf := by
  obtain ⟨c, k, -, rfl⟩ := branching_cases h
  exact hw

/-! ## Element-wise firings -/

@[simp] theorem State.hold_mem (s : State) (t n : Nat) : (s.hold t n).mem = s.mem := rfl
@[simp] theorem State.addFlags_mem (s : State) (c fl : Nat) : (s.addFlags c fl).mem = s.mem := rfl

theorem State.memWf_passFault (s : State) (t : Nat) (p : Pairing) (ts : List (Nat × BitVec 18)) (fmt : Fmt) (a : Token)
    (hw : s.memWf) : (s.passFault t p ts fmt a).memWf :=
  State.memWf_emit _ _ _ _ _ _ hw

theorem State.memWf_fireFault (s : State) (t : Nat) (p : Pairing) (ts : List (Nat × BitVec 18)) (fmt : Fmt) (tag cause sub : Nat)
    (hw : s.memWf) : (s.fireFault t p ts fmt tag cause sub).memWf :=
  State.memWf_slotFault _ _ _ _ _ _ _ _ _ _ _ _ _ _ hw

theorem State.memWf_emptyFault (s : State) (t : Nat) (p : Pairing) (ts : List (Nat × BitVec 18)) (fmt : Fmt) (tag : Nat)
    (hw : s.memWf) : (s.emptyFault t p ts fmt tag).memWf :=
  State.memWf_slotFault _ _ _ _ _ _ _ _ _ _ _ _ _ _ hw

theorem State.memWf_emitRuns (s : State) (t : Nat) (p : Pairing) (ts : List (Nat × BitVec 18)) (fmt : Fmt) (outs : List Out)
    (hw : s.memWf) : (s.emitRuns t p ts fmt outs).memWf := by
  unfold State.emitRuns
  split
  · exact State.memWf_fireFault _ _ _ _ _ _ _ _ hw
  · exact State.memWf_emit _ _ _ _ _ _ hw

theorem State.memWf_emitRun (s : State) (t : Nat) (p : Pairing) (ts : List (Nat × BitVec 18)) (tok : Token)
    (hw : s.memWf) : (s.emitRun t p ts tok).memWf := by
  unfold State.emitRun
  split
  · exact State.memWf_fireFault _ _ _ _ _ _ _ _ hw
  · exact State.memWf_emit _ _ _ _ _ _ hw

theorem State.memWf_emitRes (s : State) (t : Nat) (p : Pairing) (ts : List (Nat × BitVec 18)) (fwd : Bool) (r : Res)
    (hw : s.memWf) : (s.emitRes t p ts fwd r).memWf := by
  unfold State.emitRes
  split
  · exact hw
  · exact State.memWf_emitRun _ _ _ _ _ hw

/-- A firing in the default layout keeps the canonical form where its body does. -/
theorem State.memWf_withLanes (s : State) (t : Nat) (p : Pairing) (w : DWord) (two : Bool) (out : Fmt) (held : Nat)
    (ok : Token → Token → Option (Nat × Nat)) (body : State → List (Nat × BitVec 18) → Lanes → State) (each : Bool)
    (hb : ∀ z ts x, State.memWf z → (body z ts x).memWf) (hw : s.memWf) : (s.withLanes t p w two out held ok body each).memWf := by
  have h1 : (s.hold t held).memWf := hw
  unfold State.withLanes
  dsimp only
  split
  · exact State.memWf_passFault _ _ _ _ _ _ h1
  · split
    · exact State.memWf_passFault _ _ _ _ _ _ h1
    · split
      · exact State.memWf_fireFault _ _ _ _ _ _ _ _ h1
      · split
        · exact State.memWf_emptyFault _ _ _ _ _ _ h1
        · exact hb _ _ _ h1

/-- Every element-wise firing keeps the canonical form. -/
theorem State.memWf_lanewise (s : State) (t : Nat) (p : Pairing) (w : DWord) (o : LaneOp) (hw : s.memWf) : (s.lanewise t p w o).memWf := by
  unfold State.lanewise
  refine State.memWf_withLanes _ _ _ _ _ _ _ _ _ _ (fun z ts x hz => ?_) hw
  dsimp only
  split
  · exact State.memWf_fireFault _ _ _ _ _ _ _ _ hz
  · exact State.memWf_emitRes _ _ _ _ _ _ hz

/-- A firing in the default layout whose operands carry no fault, pass the format check and leave no Empty fault is its body
on the elements that R96 leaves. -/
theorem State.withLanes_body (s : State) (t : Nat) (p : Pairing) (w : DWord) (two : Bool) (out : Fmt) (held : Nat)
    (ok : Token → Token → Option (Nat × Nat)) (body : State → List (Nat × BitVec 18) → Lanes → State) (each : Bool)
    (xs ys : List (Option Nat)) (f : Bool) (hl : p.left.act ≠ .fault) (hr : two = true → w.kr = 0 → p.right.act ≠ .fault)
    (hk : ok p.left p.right = none)
    (hx : lanesFrom each w.el.toNat w.er.toNat ((s.hold t held).konst t 15 % 2 ^ fmtBits p.left.fmt.toNat)
      ((s.hold t held).konst t 15 % 2 ^ fmtBits p.right.fmt.toNat)
      ((List.range p.len).map fun i => (p.left.lane i, rightLane w two ((s.hold t held).konst t w.kidx.toNat) p.right i)) 0 = .ok (xs, ys, f)) :
    s.withLanes t p w two out held ok body each =
      body (s.hold t held) (s.targets t w.nt w.t1 w.t0)
        { l := p.left, r := p.right, x := xs, y := ys, fwd := f, k := (s.hold t held).konst t w.kidx.toNat,
          mode := ((s.hold t held).ctx p.ctx).mode.toNat } := by
  unfold State.withLanes
  dsimp only
  rw [if_neg hl, if_neg (by rintro h; simp only [Bool.and_eq_true, decide_eq_true_eq] at h; exact hr h.1.1 h.1.2 h.2), hk]
  dsimp only
  rw [hx]

/-! ## Emission, faults, traps -/

/-- A run whose LEN is within its format's limit leaves whole. -/
theorem Token.fitted_of_len (t : Token) (h : fmtBytes t.fmt.toNat = 8 → t.len ≤ 16) : t.fitted = [t] := by
  unfold Token.fitted
  dsimp only
  rw [if_neg (by simp only [Bool.and_eq_true, decide_eq_true_eq, not_and, not_lt]; exact h)]

/-- So do all the tokens of a firing. -/
theorem fitted_of_len (outs : List Out) (h : ∀ o ∈ outs, fmtBytes o.tok.fmt.toNat = 8 → o.tok.len ≤ 16) : fitted outs = outs := by
  induction outs with
  | nil => rfl
  | cons o os ih =>
    have ho : o.tok.fitted = [o.tok] := Token.fitted_of_len _ (h o (by simp))
    have ht : fitted os = os := ih fun x hx => h x (by simp [hx])
    simpa [fitted, ho] using ht

/-- A firing whose targets all resolve sends each its token. -/
theorem State.emit_resolved (s : State) (t slot ctx itag : Nat) (outs : List Out)
    (h : ∀ o ∈ outs, (s.resolve t o.tgt).isSome = true) : s.emit t slot ctx itag outs = s.postAll t slot (fitted outs) := by
  unfold State.emit
  rw [if_pos (List.all_eq_true.mpr h)]

/-- A trap with a handler: the record is written, then the handler is entered with EPC, CAUSE, BADADDR and INH set. -/
theorem State.trap_handler (s : State) (c k cause sub address bad : Nat) (ret : Word) (version : Nat) :
    ∃ z r, z = (s.raise r).1 ∧ r.cause = cause ∧ r.sub = sub ∧
      ((z.task c k).inh = false → (z.task c k).tvec ≠ 0 →
        s.trap c k cause sub address bad ret version = z.setTask c k { z.task c k with
          ranged := [], st := if (z.task c k).st = .running then (z.task c k).st else .runnable, epc := ret,
          cause := BitVec.ofNat 64 (cause * 256 + sub), badaddr := BitVec.ofNat 64 bad, inh := true, pc := (z.task c k).tvec, line := none }) ∧
      ((z.task c k).inh = true ∨ (z.task c k).tvec = 0 →
        s.trap c k cause sub address bad ret version = z.endTask c k) := by
  refine ⟨_, { cause := cause, sub := sub, ctx := (s.task c k).faultCtx, tenant := (s.task c k).tenant, source := 2, unit := k,
               x := tileX (tileIn c 0), y := tileY (tileIn c 0), address := address, version := version }, rfl, rfl, rfl, ?_, ?_⟩
  · intro h1 h2
    unfold State.trap
    dsimp only
    rw [if_pos (by rw [h1]; simpa using h2)]
  · intro h
    unfold State.trap
    dsimp only
    rw [if_neg (by rcases h with h | h <;> simp [h])]

/-! ## A task's memory access -/

@[simp] theorem State.block_mem (s : State) (c k : Nat) (why : BlockReason) : (s.block c k why).mem = s.mem := by
  unfold State.block; dsimp only; split <;> rfl

@[simp] theorem State.taskMiss_mem (s : State) (c k : Nat) (t : Task) (va : Nat) (kind : AccKind) :
    (s.taskMiss c k t va kind).mem = s.mem := by
  rw [State.taskMiss, State.block_mem, State.addMiss_mem]

theorem State.memWf_taskMemFault (s : State) (c k cause sub va version : Nat) (hw : s.memWf) :
    (s.taskMemFault c k cause sub va version).memWf :=
  State.memWf_trap _ _ _ _ _ _ _ _ _ hw

/-- Where a task's access stops on the way to its home, memory keeps its canonical form. -/
theorem State.memWf_taskHome (s : State) (c k : Nat) (t : Task) (va : Nat) (kind : AccKind) (s' : State)
    (h : s.taskHome c k t va kind = .stop s') (hw : s.memWf) : s'.memWf := by
  unfold State.taskHome at h
  split at h
  · cases h; exact State.memWf_of_mem (State.taskMiss_mem _ _ _ _ _ _) hw
  · cases h; exact State.memWf_taskMemFault _ _ _ _ _ _ _ hw
  · split at h
    · cases h; exact State.memWf_taskMemFault _ _ _ _ _ _ _ hw
    · cases h

@[simp] theorem State.taskAccess_mem (s : State) (c k : Nat) (va : Nat) (a : Access) (x : TaskAccess) :
    (s.taskAccess c k va a x).mem = s.mem := by
  unfold State.taskAccess; simp

/-- Every M-format access keeps the canonical form. -/
theorem State.memWf_taskMem (s : State) (c k : Nat) (t : Task) (d a : BitVec 5) (sc : BitVec 3) (mode : Option VMode) (n : Nat)
    (kind : AccKind) (op : Nat → AccessOp) (ret : Bool) (x : TaskAccess) (hw : s.memWf) :
    (s.taskMem c k t d a sc mode n kind op ret x).memWf := by
  unfold State.taskMem
  dsimp only
  split
  · exact State.memWf_taskFault _ _ _ _ _ hw
  · split
    · exact State.memWf_taskFault _ _ _ _ _ hw
    · refine State.memWf_writing _ _ _ _ _ _ hw ?_
      split
      · exact State.memWf_taskMemFault _ _ _ _ _ _ _ hw
      · split
        · next z hz => exact State.memWf_taskHome _ _ _ _ _ _ _ hz hw
        · exact State.memWf_of_mem (State.taskAccess_mem _ _ _ _ _ _) hw

/-- A task's access performed at its home keeps the canonical form, done, waiting or failed. -/
theorem State.memWf_taskPerform (s : State) (c k : Nat) (hw : s.memWf) : (s.taskPerform c k).memWf := by
  have hf : ∀ e u, (if e = 0x05 && (s.task c k).access.replay then
      s.taskMemFault c k 0x0C 0x03 (s.task c k).access.va (s.task c k).access.acc.mode.version
      else s.taskMemFault c k e u (s.task c k).access.va (if e = 0x05 then (s.task c k).access.acc.mode.version else 0)).memWf := by
    intro e u
    split <;> exact State.memWf_taskMemFault _ _ _ _ _ _ _ hw
  unfold State.taskPerform
  dsimp only
  split
  · exact hw
  · split
    · exact hf _ _
    · split
      · next z o hz => exact State.memWf_of_mem (State.updTask_mem _ _ _ _) (State.memWf_perform_done _ _ _ _ _ _ _ hz hw)
      · next z hz => exact State.memWf_of_mem (State.updTask_mem _ _ _ _) (State.memWf_of_mem (State.perform_waits_mem _ _ _ _ _ _ hz) hw)
      · exact hw
      · exact hf _ _

/-! ## The step's frame -/

/-- The turn that comes next is taken, and memory is left alone. -/
@[simp] theorem State.nextTurn_mem (s : State) : s.nextTurn.2.mem = s.mem := by
  unfold State.nextTurn; split <;> rfl

/-- The end of a step never makes an outcome of another kind. -/
theorem closeOutcome_next {o : Host.Outcome State Fault Refusal} {s' : State} (h : closeOutcome o = .next s') :
    ∃ z, o = .next z ∧ s' = z.close := by
  cases o <;> simp only [closeOutcome, reduceCtorEq, Host.Outcome.next.injEq] at h
  exact ⟨_, rfl, h.symm⟩

end Sys2Proof.Machine
end

