-- ==== Sys2Proof/Machine/Save.lean ====
section
/-! DEFINITION. The save area of a context as the bytes of R321. No instruction reads them: the machine itself keeps and
restores the records (R320, R322). What R321 leaves open of the layout is log entry 135. -/

namespace Sys2Proof.Machine

/-- A record of the save area: its KIND, flags, region-relative place, bytes 6 to 15 and body. -/
structure SaveLine where
  kind  : Nat
  flags : Nat := 0
  x     : Nat := 0
  y     : Nat := 0
  info  : List Byte := []
  body  : List Byte := []
  deriving DecidableEq, Repr

/-- A record's length in 16-byte units, its header included. -/
def SaveLine.units (z : SaveLine) : Nat := 1 + (z.body.length + 15) / 16

/-- A record as bytes: the 16-byte header, then the body filled up with zeros (R321). -/
def SaveLine.bytes (z : SaveLine) : List Byte :=
  toBytes 1 z.kind ++ toBytes 1 z.flags ++ toBytes 2 z.units ++ toBytes 1 z.x ++ toBytes 1 z.y ++ slice z.info 0 10 ++
  slice z.body 0 (16 * (z.units - 1))

/-- The code of an entry's use: its place in the map's tile record (R318), whose second use is that of a pairing's operand. -/
def EntryUse.saved : EntryUse → Nat
  | .waiting => 0
  | .sticky => 2
  | .anti => 3
  | .trigger => 4
  | .early => 5

/-- The code of a slot's state. -/
def SlotState.saved : SlotState → Nat
  | .free => 0
  | .held => 1
  | .given => 2

/-- The contents of an accumulator (R175): its kind and SCALE, then rows of 64 elements. -/
def Acc.saved (a : Acc) : List Byte :=
  let w := if a.kind = .f64 then 8 else 4
  toBytes 1 (match a.kind with
    | .f32 => 0
    | .f64 => 1
    | .i32 => 2) ++ toBytes 1 (low 8 (a.scale.getD 0)) ++ toBytes 6 0 ++
  (List.range (8192 / w)).flatMap fun i => toBytes w (assocGet 0 a.elems i).toNat

/-- An ENTRY record of a token at a port. -/
def entryLine (x y use pos : Nat) (tok : Token) : SaveLine :=
  { kind := 2, x := x, y := y, info := toBytes 1 use ++ toBytes 1 tok.port ++ toBytes 2 pos, body := tok.image }

/-- A CHANNEL record of a token. -/
def channelLine (x y sx sy slot order : Nat) (body : List Byte) : SaveLine :=
  { kind := 3, x := x, y := y, info := toBytes 1 sx ++ toBytes 1 sy ++ toBytes 1 slot ++ toBytes 2 order, body := body }

/-- The ENTRY records of a pairing's operand runs. -/
def operandLines (x y : Nat) (os : List (Nat × Operand)) : List SaveLine :=
  os.filterMap fun o => match o.2 with
    | .run t => some (entryLine x y 1 0 { t with port := o.1 })
    | _ => none

/-- The place of a trigger's request in its wait list: the requests that the area holds are in that order (R120). -/
def triggerPos (rs : List SaveRec) (id : Nat) : Nat :=
  let pool (q : SaveRec) : Option (Nat × Nat × Bool × Nat × Nat) := match q with
    | .request x y tk p _ _ r => some (x, y, tk, p, r.trig)
    | _ => none
  match (rs.filterMap pool).find? fun q => q.2.2.2.2 = id with
  | none => 0
  | some (x, y, tk, p, _) =>
    ((rs.filterMap pool).filter fun q => q.1 = x && q.2.1 = y && q.2.2.1 = tk && q.2.2.2.1 = p).findIdx fun q => q.2.2.2.2 = id

/-- The order of a CHANNEL record within its edge: how many of the area before it have that edge. -/
def edgeOrder (before : List SaveRec) (x y : Nat) (e : Edge) : Nat :=
  (before.filter fun q => match q with
    | .channel x' y' e' _ => x' = x && y' = y && e' = e
    | _ => false).length

/-- The expected tag of an ordered slot in the area. -/
def savedNext (rs : List SaveRec) (x y slot : Nat) : Nat :=
  (rs.findSome? fun q => match q with
    | .order x' y' o => if x' = x && y' = y && o.slot = slot then some o.next else none
    | _ => none).getD 0

/-! ## The state of engines and tasks (R171, R186, R203, R263, R291) -/

/-- Numbers as words of 8 bytes. -/
def packWords (ns : List Nat) : List Byte := ns.flatMap (toBytes 8)

/-- A list with its length before it. -/
def listBytes {α : Type} (f : α → List Byte) (xs : List α) : List Byte := packWords [xs.length] ++ xs.flatMap f

/-- An optional number: 0, or 1 and the number. -/
def optWords (x : Option Nat) : List Nat :=
  match x with
  | none => [0, 0]
  | some n => [1, n]

/-- A signed number as a word. -/
def intWord (i : Int) : Nat := (BitVec.ofInt 64 i).toNat

/-- Where a command came from; that of a slot with its operand run, at the slot's place in the region. -/
def CmdSource.bytes (rel : Nat → Nat × Nat) (x : CmdSource) : List Byte :=
  match x with
  | .slot t n l => packWords [0, (rel t).1, (rel t).2, n] ++ l.image
  | .task d k reg => packWords [1, d, k, reg]
  | .template t itag => packWords [2, t, itag.toNat]
  | .saved c x y k reg => packWords [3, c, x, y, k, reg]

/-- A streamer descriptor. -/
def Desc.saved (d : Desc) : List Byte :=
  packWords [d.saddr, d.daddr, d.skind, d.dkind, d.sfmt, d.dfmt, d.sunit.toNat, d.dunit.toNat, d.plsel, d.pol.toNat, d.ivmode.toNat,
    d.dret.toNat, d.gate.toNat, d.citag.toNat, d.rlen, d.cnt0, d.cnt1, d.cnt2, intWord d.ss0, intWord d.ss1, intWord d.ss2,
    intWord d.ds0, intWord d.ds1, intWord d.ds2, d.chan, d.tmpl, d.ctgt.toNat, d.iaddr, d.iver.toNat, d.nidx, d.limit, d.mdesc, d.mfmt,
    d.xin.toNat, d.xret, d.xinr, d.xoutr, d.xform.toNat, intWord d.soff, intWord d.doff]

/-- A streamer command. -/
def StreamCmd.saved (rel : Nat → Nat × Nat) (q : StreamCmd) : List Byte :=
  packWords [(match q.op with
    | .copy => 0
    | .gather => 1
    | .scatter => 2), q.signed.toNat, q.tenant, q.asid, q.priv.toNat, q.follow.toNat] ++ q.src.bytes rel ++ q.d.saved

/-- A stalled AGN: its command, its cursor, what it has read and not delivered, and its partial run (R203). -/
def Agn.saved (rel : Nat → Nat × Nat) (g : Agn) : List Byte :=
  g.cmd.saved rel ++ packWords [g.cursor, g.total, g.fetched, g.runs, g.wend, g.gotOut, g.gmask] ++
  listBytes (fun b => [b]) g.idxBytes ++ listBytes (fun b => [b]) g.half ++
  listBytes (fun p => packWords ([p.pos, p.fmt, p.scale.toNat, p.last.toNat] ++ optWords (p.val.map BitVec.toNat)) ++ listBytes (fun b => [b]) p.bytes) g.buf ++
  listBytes (fun b => packWords [b.1] ++ [b.2]) g.wleft

/-- A channel's binding. -/
def Chan.saved (h : Chan) : List Nat :=
  match h with
  | .none => [0, 0]
  | .template t => [1, t]
  | .xform a => [2, a]

/-- An array command: its operand runs, or what a task gave (R186). -/
def ArrayCmd.saved (rel : Nat → Nat × Nat) (q : ArrayCmd) : List Byte :=
  packWords [(match q.op with
    | .mma => 0
    | .mmac => 1
    | .accz => 2
    | .accrd => 3
    | .accwr => 4
    | .mmstat => 5), q.fmt, q.desc, q.handle.toNat, q.shape, q.tenant, q.itag.toNat] ++ q.src.bytes rel ++ q.l.image ++ q.r.image

/-- A Registrar command. -/
def RegCmd.saved (rel : Nat → Nat × Nat) (q : RegCmd) : List Byte :=
  packWords [(match q.op with
    | .aucgo => 0
    | .aucstep => 1
    | .aucset => 2
    | .aucget => 3
    | .aucstop => 4), q.desc, q.code, q.value, q.tenant, q.itag.toNat] ++ q.src.bytes rel

/-- A stopped auction: the command that opened it names its descriptor, and the rounds and the phase it has come to (R263). -/
def Auction.saved (rel : Nat → Nat × Nat) (a : Auction) : List Byte :=
  packWords ([a.rounds, a.cmdRounds, a.phase, a.belled.toNat] ++ optWords a.steps) ++ a.opened.saved rel ++ a.cmd.saved rel

/-- A converter pairing: its slot and its operand run (R171). -/
def ConvCmd.saved (q : ConvCmd) : List Byte := packWords [q.slot, q.id] ++ q.l.image

/-- A re-block buffer with its covered tags (R171). -/
def ReBuf.saved (b : ReBuf) : List Byte :=
  packWords [b.slot, b.base, b.fmt.toNat, b.scale.toNat, b.typed.toNat, b.covered.toNat, b.cancels.toNat, b.present.toNat] ++
  listBytes (fun e => packWords [e.1, e.2.toNat]) b.data ++ listBytes (fun i => packWords [i]) b.inputs

/-- The state of a task (R291), with what its status word stands for, its recipes and the tags of its registers (R246, R248). -/
def Task.saved (t : Task) (k : Nat) (vcs : List Nat) : List Byte :=
  packWords [t.pc.toNat, t.status k, t.epc.toNat, t.cause.toNat, t.tvec.toNat, t.badaddr.toNat, t.score.toNat, t.instret.toNat, t.asid,
    t.tenant, t.spawned.toNat] ++
  packWords ((List.range 32).map fun i => if t.tags.any fun g => g.1 = i then 0 else (t.regs.getD i 0).toNat) ++
  listBytes (fun g => packWords [g.1, g.2]) t.tags ++ listBytes (listBytes fun w => toBytes 4 w.toNat) t.recipes ++
  listBytes (fun v => packWords [v]) vcs ++
  packWords (match t.image with
    | none => [0, 0, 0, 0]
    | some (a, b, c) => [1, a, b, c])

/-! ## Records -/

/-- A grant on its way as a token: the handle, or 0 for a ticket, under its trigger's entry (R124). -/
def Grant.token (g : Grant) : Token :=
  { act := .normal, fmt := 11, ctx := g.ctx, itag := BitVec.ofNat 32 g.trig, mask := 1, data := [(g.handle.getD 0).setWidth 64] }

/-- The early runs of an ordered slot in the area (R87). -/
def earlyRuns (rs : List SaveRec) (x y slot : Nat) : List Token :=
  rs.filterMap fun q => match q with
    | .entry x' y' e => if x' = x && y' = y && e.use = .early && e.tok.slot = slot then some e.tok else none
    | _ => none

/-- Whether the area has the total, or the expected tag, of an ordered slot. -/
def hasOrder (rs : List SaveRec) (x y slot : Nat) : Bool :=
  rs.any fun q => match q with
    | .accreg x' y' a => x' = x && y' = y && a.slot = slot
    | .order x' y' o => x' = x && y' = y && o.slot = slot
    | _ => false

/-- An ACCREG record: the total, the expected tag, SCALE and the early runs of a slot. -/
def accLine (rs : List SaveRec) (x y slot : Nat) (total : Word) (scale : Nat) : SaveLine :=
  { kind := 6, x := x, y := y, info := toBytes 1 slot,
    body := toBytes 8 total.toNat ++ toBytes 4 (savedNext rs x y slot) ++ toBytes 4 scale ++ (earlyRuns rs x y slot).flatMap Token.image }

/-- The records that R321's table gives for one of the model's, the `n`-th of its area: a request stands in its trigger's
ENTRY, an expected tag in its ACCREG, and a memory pairing as its operand runs (R230). -/
def SaveRec.lines (rs : List SaveRec) (n : Nat) (r : SaveRec) : List SaveLine :=
  let origin := savedOrigin rs
  let rel (t : Nat) : Nat × Nat := (tileX t - tileX origin, tileY t - tileY origin)
  match r with
  | .context mode binds census _ regs tasks =>
    [{ kind := 1, body := toBytes 4 mode.toNat ++ toBytes 4 census ++ toBytes 1 binds.length ++ toBytes 1 regs.length ++
         toBytes 2 tasks.length ++ (binds.flatMap fun b => toBytes 1 b.1 ++ toBytes 1 b.2) ++
         (regs.flatMap fun g => toBytes 1 g.1 ++ toBytes 1 g.2) ++
         tasks.flatMap fun k => toBytes 1 k.1 ++ toBytes 1 k.2.1 ++ toBytes 1 k.2.2 }]
  | .entry x y e =>
    if e.use = .early then
      if hasOrder rs x y e.tok.slot || !(earlyRuns (rs.take n) x y e.tok.slot).isEmpty then [] else [accLine rs x y e.tok.slot 0 0]
    else [entryLine x y e.use.saved (if e.use = .trigger then triggerPos rs e.id else 0) e.tok]
  | .pairing x y p => operandLines x y [(0, p.l), (1, p.r)]
  | .channel x y e tok =>
    let s := rel e.tile
    [channelLine x y s.1 s.2 e.slot (edgeOrder (rs.take n) x y e) tok.image]
  | .slot x y pool j z bs =>
    [{ kind := 4, x := x, y := y,
       info := toBytes 1 pool ++ [0] ++ toBytes 2 j ++ toBytes 2 z.gen ++ toBytes 1 z.st.saved ++ toBytes 1 z.n ++ toBytes 1 z.scale.toNat,
       body := toBytes 4 z.ownerTag.toNat ++ List.replicate 12 0 ++ bs }]
  | .acc x y j z a =>
    [{ kind := 4, x := x, y := y,
       info := toBytes 1 7 ++ [0] ++ toBytes 2 j ++ toBytes 2 z.gen ++ toBytes 1 z.st.saved ++ toBytes 1 z.n ++ toBytes 1 z.scale.toNat,
       body := toBytes 4 z.ownerTag.toNat ++ List.replicate 12 0 ++ a.saved }]
  | .tickets x y held => [{ kind := 5, x := x, y := y, body := (List.range 4).flatMap fun k => toBytes 4 (held.getD k 0) }]
  | .request _ _ _ _ _ _ _ => []
  | .accreg x y a => [accLine rs x y a.slot a.total (a.scale.getD 0).toNat]
  | .order x y o =>
    if rs.any fun q => match q with
      | .accreg x' y' a => x' = x && y' = y && a.slot = o.slot
      | _ => false
    then []
    else [accLine rs x y o.slot 0 0]
  | .crib x y d =>
    [{ kind := 7, flags := if d.poisoned.isSome then 1 else 0, x := x, y := y, info := toBytes 1 d.tok.slot ++ toBytes 1 d.tok.port,
       body := toBytes 8 d.tok.word0 ++ toBytes 8 d.tok.word1 }]
  | .grant x y px py g => [channelLine x y px py 0 n (g.token.sendTo (tileOf x y) 0 0).image]
  | .conv x y q b => [{ kind := 8, x := x, y := y, info := [0], body := listBytes ConvCmd.saved q ++ listBytes ReBuf.saved b }]
  | .mem x y m => entryLine x y 1 0 { m.l with port := 0 } :: (m.r.toList.map fun r => entryLine x y 1 0 { r with port := 1 })
  | .array x y q => [{ kind := 8, x := x, y := y, info := [1], body := listBytes (ArrayCmd.saved rel) q }]
  | .stream x y q a t c =>
    [{ kind := 8, x := x, y := y, info := [2],
       body := listBytes (StreamCmd.saved rel) q ++ listBytes (fun g => packWords [g.1] ++ g.2.saved rel) a ++
         listBytes (fun g => packWords [g.1, g.2.chan] ++ g.2.cmd.saved rel ++ listBytes (CmdSource.bytes rel) g.2.unbind) t ++
         listBytes (fun h => packWords (h.1 :: h.2.saved)) c }]
  | .registrar x y st eps q a =>
    [{ kind := 8, x := x, y := y, info := [3],
       body := packWords [st.code, eps.toNat] ++ listBytes (RegCmd.saved rel) q ++ listBytes (Auction.saved rel) a.toList }]
  | .task x y k t vcs => [{ kind := 9, x := x, y := y, info := toBytes 1 k, body := t.saved k vcs }]
  | .vcq x y vc q => q.zipIdx.map fun t => channelLine x y x y vc t.2 t.1.image

/-- The END record. -/
def endLine : SaveLine := { kind := 0 }

/-- The save area of a context as the records of R321, in order. -/
def State.saveLines (s : State) (c : Nat) : List SaveLine :=
  let rs := assocGet [] s.dean.saves c
  (rs.zipIdx.flatMap fun r => r.1.lines rs r.2) ++ [endLine]

/-- The save area of a context as bytes (R321), little-endian (R4). -/
def State.saveArea (s : State) (c : Nat) : List Byte := (s.saveLines c).flatMap SaveLine.bytes

end Sys2Proof.Machine
end

