-- ==== Sys2Proof/Safety.lean ====
section
/-! DEFINITION. What counts as a safe state and a safe run of the Ibvor, in the terms the claims use. -/

namespace Sys2Proof.Safety

open Sys2Proof.Machine

/-- Every listing of memory cells in the machine is in its canonical form: addresses ascending, no blank byte listed.
The cells are the memory, each tile's store and each cluster's B store. -/
def cellsOk (s : State) : Prop :=
  cellsWf s.mem = true ∧ (∀ p ∈ s.tiles, cellsWf p.2.store = true) ∧ (∀ p ∈ s.clusters, cellsWf p.2.bstore = true)

/-- A step that goes on. -/
def goesOn (s : State) : Prop := ∃ t, step s = .next t

end Sys2Proof.Safety
end

