-- ==== Sys2Proof/Tests/Slice0.lean ====
section
/-! SUPPORT. Tests: the checks of WellFormed on ill-formed terms, words worked out in the spec, single steps with results
from the spec, and for each statement of Certificates/Slice0/Obligations.lean states and operands that meet its
hypotheses. -/

namespace Sys2Proof.Tests

open Sys2Proof Sys2Proof.Machine

/-! ## WellFormed: one ill-formed term for each check (R31, R33, R34, R36, R37, R66, R102) -/

theorem test_wf_accepts : (Instr.add { fmt := 8, nt := 1, t0 := 2 }).wf = true := by decide
theorem test_wf_fmt : (Instr.add { fmt := 1, nt := 1, t0 := 2 }).wf = false := by decide
theorem test_wf_mod : (Instr.add { fmt := 8, mod := 1, nt := 1, t0 := 2 }).wf = false := by decide
theorem test_wf_kr_never : (Instr.fmak { fmt := 1, kr := 1, nt := 1, t0 := 2 }).wf = false := by decide
theorem test_wf_kr_always : (Instr.alloc { nt := 1, t0 := 2 }).wf = false := by decide
theorem test_wf_kidx_unused : (Instr.add { fmt := 8, kidx := 1, nt := 1, t0 := 2 }).wf = false := by decide
theorem test_wf_er_with_constant : (Instr.add { fmt := 8, kr := 1, er := 1, nt := 1, t0 := 2 }).wf = false := by decide
theorem test_wf_er_of_unary : (Instr.frsqe { fmt := 1, er := 1, nt := 1, t0 := 2 }).wf = false := by decide
theorem test_wf_nt : (Instr.rtop2 { fmt := 1, nt := 1, t0 := 2 }).wf = false := by decide
theorem test_wf_ord : (Instr.add { fmt := 8, ord := 1, nt := 1, t0 := 2 }).wf = false := by decide
theorem test_wf_ord_needs_constant : (Instr.rsum { fmt := 1, ord := 1, nt := 1, t0 := 2 }).wf = false := by decide
theorem test_wf_t1_unused : (Instr.add { fmt := 8, nt := 1, t1 := 4, t0 := 2 }).wf = false := by decide
theorem test_wf_fanout_t0 : (Instr.add { fmt := 8, nt := 3, t0 := 2 }).wf = false := by decide
theorem test_wf_fanout_list : (Instr.add { fmt := 8, nt := 3, t1 := 32 }).wf = false := by decide
theorem test_wf_target_class : (Instr.add { fmt := 8, nt := 1, t0 := 0x20800 }).wf = false := by decide
theorem test_wf_target_index : (Instr.add { fmt := 8, nt := 1, t0 := 0x20420 }).wf = false := by decide
theorem test_wf_target_port : (Instr.add { fmt := 8, nt := 1, t0 := 0x20401 }).wf = false := by decide
theorem test_wf_egress : (Instr.egress { nt := 1, t0 := 2 }).wf = false := by decide
theorem test_wf_m_fmt : (Instr.vwait { fmt := 1, vsrc := 1, nt := 1, t0 := 2 }).wf = false := by decide
theorem test_wf_m_mod : (Instr.ld { fmt := 1, mod := 3, vsrc := 1, nt := 1, t0 := 2 }).wf = false := by decide
theorem test_wf_m_scope : (Instr.fence { scope := 5, nt := 1, t0 := 2 }).wf = false := by decide
theorem test_wf_m_version : (Instr.ld { fmt := 1, mod := 1, nt := 1, t0 := 2 }).wf = false := by decide
theorem test_wf_m_kidx : (Instr.ld { fmt := 1, mod := 1, vsrc := 1, kidx := 1, nt := 1, t0 := 2 }).wf = false := by decide
theorem test_wf_m_aqrl : (Instr.fence { aqrl := 1, nt := 1, t0 := 2 }).wf = false := by decide
theorem test_wf_m_ret : (Instr.ld { fmt := 1, ret := 1, nt := 1, t0 := 2 }).wf = false := by decide
theorem test_wf_m_nt : (Instr.ld { fmt := 1 }).wf = false := by decide
theorem test_wf_e_fmt : (Instr.mma { fmt := 0x1E, nt := 1, t0 := 2 }).wf = false := by decide
theorem test_wf_e_mod : (Instr.copy { mod := 1, nt := 1, t0 := 2 }).wf = false := by decide
theorem test_wf_e_scope : (Instr.copy { scope := 5, nt := 1, t0 := 2 }).wf = false := by decide
theorem test_wf_e_scope_unused : (Instr.disarm { scope := 1, nt := 1, t0 := 2 }).wf = false := by decide
theorem test_wf_e_acq : (Instr.disarm { acq := 1, nt := 1, t0 := 2 }).wf = false := by decide
theorem test_wf_e_rel : (Instr.mma { fmt := 3, rel := 1, nt := 1, t0 := 2 }).wf = false := by decide
theorem test_wf_e_kidx : (Instr.cpstat { kidx := 1, nt := 1, t0 := 2 }).wf = false := by decide
theorem test_wf_e_follow : (Instr.mma { fmt := 3, follow := 1, nt := 1, t0 := 2 }).wf = false := by decide
theorem test_wf_e_nt : (Instr.cpstat {}).wf = false := by decide

/-! ## Words from the spec's own examples -/

-- R35, and the listing of "Instruction Words, Opcode Maps and the Fuold Assembler"
theorem test_word_fmul : decodeFabric 0x420860404014000A#64 =
    .ok (.fmul { fmt := 1, el := 1, er := 2, nt := 2, t1 := 0x1005, t0 := 0xA }) := by decide
theorem test_word_add : decodeFabric 0x204048A000020400#64 =
    .ok (.add { fmt := 8, el := 1, kr := 1, kidx := 1, nt := 1, t0 := 0x20400 }) := by decide
-- R103's STEER; R121's ALLOC and GIVE; R144's FRSQE, FMAK and RSUM
theorem test_word_steer : decodeFabric 0x03085040000C0012#64 =
    .ok (.steer { fmt := 1, el := 1, er := 1, nt := 2, t1 := 3, t0 := 0x12 }) := by decide
theorem test_word_alloc : decodeFabric 0x1000492000000002#64 = .ok (.alloc { el := 1, kr := 1, kidx := 2, nt := 1, t0 := 2 }) := by decide
theorem test_word_give : decodeFabric 0x120049E000000000#64 = .ok (.give { el := 1, kr := 1, kidx := 3, nt := 3 }) := by decide
theorem test_word_frsqe : decodeFabric 0x6008402000000002#64 = .ok (.frsqe { fmt := 1, el := 1, nt := 1, t0 := 2 }) := by decide
theorem test_word_fmak : decodeFabric 0x430850A000000008#64 = .ok (.fmak { fmt := 1, el := 1, er := 1, kidx := 1, nt := 1, t0 := 8 }) := by decide
theorem test_word_rsum : decodeFabric 0x700849300000000E#64 =
    .ok (.rsum { fmt := 1, el := 1, kr := 1, kidx := 2, nt := 1, ord := 1, t0 := 0xE }) := by decide
-- R165's CVT, R179's MMA, R199's COPY and ARM, R243's RECALL and DROP, R259's AUCGO and AUCSET
theorem test_word_cvt : decodeFabric 0xB03001A000000006#64 = .ok (.cvt { fmt := 6, kidx := 3, nt := 1, t0 := 6 }) := by decide
theorem test_word_mma : decodeFabric 0xA018312000000004#64 = .ok (.mma { fmt := 3, scope := 1, acq := 1, kidx := 2, nt := 1, t0 := 4 }) := by decide
theorem test_word_copy : decodeFabric 0x900002B000000004#64 = .ok (.copy { kidx := 5, nt := 1, follow := 1, t0 := 4 }) := by decide
theorem test_word_arm : decodeFabric 0x9100022000000003#64 = .ok (.arm { kidx := 4, nt := 1, t0 := 3 }) := by decide
theorem test_word_recall : decodeFabric 0x180048A000000008#64 = .ok (.recall { el := 1, kr := 1, kidx := 1, nt := 1, t0 := 8 }) := by decide
theorem test_word_drop : decodeFabric 0x190040200000000E#64 = .ok (.drop { el := 1, nt := 1, t0 := 0xE }) := by decide
theorem test_word_aucgo : decodeFabric 0xB800312000000004#64 = .ok (.aucgo { scope := 1, acq := 1, kidx := 2, nt := 1, t0 := 4 }) := by decide
theorem test_word_aucset : decodeFabric 0xBA0800A000000006#64 = .ok (.aucset { fmt := 1, kidx := 1, nt := 1, t0 := 6 }) := by decide
-- R305's CTXNEW, R326's STATQ, and TICKET and RETURN of the Newton program
theorem test_word_ctxnew : decodeFabric 0xE058402000000014#64 = .ok (.ctxnew { fmt := 11, el := 1, nt := 1, t0 := 0x14 }) := by decide
theorem test_word_statq : decodeFabric 0xC20049A00000000C#64 = .ok (.statq { el := 1, kr := 1, kidx := 3, nt := 1, t0 := 0xC }) := by decide
theorem test_word_ticket : decodeFabric 0x1500486000000000#64 = .ok (.ticket { el := 1, kr := 1, nt := 3 }) := by decide
theorem test_word_return : decodeFabric 0x1600482000020400#64 = .ok (.retn { el := 1, kr := 1, nt := 1, t0 := 0x20400 }) := by decide
-- a reserved opcode (R39), and a field that the instruction does not use (R33)
theorem test_word_reserved : decodeFabric 0xFF00000000000000#64 = .error (.reservedOpcode 0xFF) := by decide
theorem test_word_unused_field : decodeFabric 0x0308504040000012#64 ≠ decodeFabric 0x03085040000C0012#64 := by decide
-- R280, R281, R283, R41, R285, R286, R274, R279, R323, R247
theorem test_core_add : decodeCore 0x02308800#32 = .ok (.addC 3 1 2) := by decide
theorem test_core_addi : decodeCore 0x3010FFFF#32 = .ok (.addi 1 1 (-1)) := by decide
theorem test_core_lui : decodeCore 0x40712345#32 = .ok (.lui 7 0x12345) := by decide
theorem test_core_ld : decodeCore 0x50429A34#32 = .ok (.ldC 4 5 6 2 1 2 1) := by decide
theorem test_core_st : decodeCore 0x5475807C#32 = .ok (.stC 7 11 0 0 3 3 1) := by decide
theorem test_core_bne : decodeCore 0x72107FFE#32 = .ok (.bne 1 0 0x7FFE) := by decide
theorem test_core_jal : decodeCore 0x7C100002#32 = .ok (.jal 1 2) := by decide
theorem test_core_recv : decodeCore 0x80449400#32 = .ok (.recv 4 9 5) := by decide
theorem test_core_csrr : decodeCore 0xC0200008#32 = .ok (.csrr 2 8) := by decide
theorem test_core_trap : decodeCore 0xC4000005#32 = .ok (.trapC 5) := by decide
theorem test_core_halt : decodeCore 0xC8228000#32 = .ok (.halt 2 5) := by decide
theorem test_core_rtag : decodeCore 0xB0919000#32 = .ok (.rtag 9 3 4) := by decide
theorem test_core_bad_op : decodeCore 0x00000000#32 = .error (.badOp 0) := by decide
theorem test_core_bad_field : decodeCore 0x02308801#32 = .error (.badField 1) := by decide

/-! ## States for the tests and witnesses -/

/-- Task 0 of cluster 0 runs on a reset machine, with registers and changes of its own. -/
def withTask (f : Task → Task) : State :=
  { State.reset.setTask 0 0 (f { st := .running, regs := List.replicate 32 0 }) with focus := .task 0 0 }

/-- Task 0 with g1 and g2 set. -/
def withRegs (x y : Word) : State := withTask fun t => { t with regs := (t.regs.set 1 x).set 2 y }

/-- The Dean's records of a machine changed. -/
def dean (f : Dean → Dean) (s : State) : State := s.setDean (f s.dean)

/-- A region of 8 by 8 tiles at the origin, of image 7, whose context 9 is LIVE. -/
def withRegion (s : State) : State :=
  (dean (fun d => { d with regions := [{ image := 7, w := 8, h := 8 }] }) s).setCtx 9 { st := .live, image := 7 }

/-- A full run of context 9 at ITAG 64. -/
def run (fmt : Fmt) (vs : List Nat) : Token :=
  { fmt := fmt, len := vs.length, mask := fullMask vs.length, data := vs.map (BitVec.ofNat 64), itag := 64, ctx := 9 }

/-- A pairing of two runs at slot 2. -/
def pair (l r : Token) : Pairing := { slot := 2, ctx := 9, itag := 64, len := l.len, l := .held l, r := .held r }

/-- Tile 5 of the region, with a constant K3 and a pool, fires the pairing. -/
def onFabric (k : Word) (p : Pairing) : State :=
  { (withRegion State.reset).setTile 5
      { status := .resident, block := some { consts := (List.replicate 16 (0 : Word)).set 3 k, pools := [{}] } } with
    focus := .firing 5 p }

/-- An event at unit u with argument k. -/
def atEvent (u k : Nat) (s : State) : State := { s with focus := .event u k }

/-- A host command. -/
def command (a : CmdArgs) (s : State) : State := { s with focus := .command a }

/-- An address of cluster 0's commons. -/
abbrev commons : Nat := 0xFFFFFFF0000000

/-- Whether a result is there. -/
def there {α ε : Type} (x : Except ε α) : Bool := match x with
  | .ok _ => true
  | .error _ => false
def read {α : Type} (x : TaskIO α) : Bool := match x with
  | .ok _ => true
  | .stop _ => false

/-! ## Steps, with results from the spec -/

-- R281: ADDI g1, g1, -1; R280: ADD wraps; R285: BNE with OFF15 = -2
theorem test_addi : (match step (State.reset.withFetchWord 32 0x3010FFFF) with
    | .next s => (s.task 0 0).reg 1
    | _ => 0) = 0xFFFFFFFFFFFFFFFF := by decide
theorem test_add_wraps : (match exec (.addC 3 1 2) (withRegs 0xFFFFFFFFFFFFFFFF 2) with
    | .next s => (s.task 0 0).reg 3
    | _ => 0) = 1 := by decide
theorem test_bne_back : (match exec (.bne 1 0 0x7FFE) (withTask fun t => { t with pc := 0x108, regs := t.regs.set 1 1 }) with
    | .next s => (s.task 0 0).pc
    | _ => 0) = 0x100 := by decide
theorem test_bne_falls_through : (match exec (.bne 1 0 0x7FFE) (withTask fun t => { t with pc := 0x108 }) with
    | .next s => (s.task 0 0).pc
    | _ => 0) = 0x10C := by decide
-- R288: a state of 0 stepped over 8 zero bytes stays 0
theorem test_crc_zero : crcBytes 0 (toBytes 8 0) = 0 := by decide +kernel
-- R155: FRSQE of 3.0 is 0.578125
theorem test_frsqe : (specRsqe 0 (floatVal f32 0x40400000 0 0)).1 = 0x3F140000 := by decide +kernel
-- R271: bounds 16, 32 and 64 and c = 150
theorem test_buckets : bucketPlan [(16, 1), (32, 2), (64, 3)] 150 = [(3, 64, 64), (3, 64, 64), (2, 22, 32)] := by decide
-- R140: a P4 group at SCALE -3 holds -3 and 5; byte 0 of plane 2; two planes read as -1 and 1
theorem test_plane_byte : ((makePlanes 16 (-3) [-3, 5]).getD 2 []).getD 0 0 = 0x50 := by decide
theorem test_plane_floor : (planeElem 16 2 (makePlanes 16 (-3) [-3, 5]) 0, planeElem 16 2 (makePlanes 16 (-3) [-3, 5]) 1) = (0xFF, 1) := by decide
-- R330: equal ways go east and south
theorem test_torus_equal : (torusWay 0 16, torusWay 0 256) = (2, 3) := by decide
-- R351: TAIL too far ahead of HEAD is read as HEAD plus the ring's entries
theorem test_tail : (Mailbox.setTail { entries := 4, head := 10 } 100).tail = 14 := by decide

/-! ## Witnesses: for each statement, states and operands that meet its hypotheses -/

/-! ### Control cores -/

theorem witness_CoreComputesRegister : ∃ (s : State) (c k : Nat) (i : Instr) (d : BitVec 5) (f : (BitVec 5 → Word) → Word),
    Claims.coreValue i = some (d, f) ∧ Claims.Runs s c k d :=
  ⟨withRegs 1 2, 0, 0, .addC 3 1 2, 3, _, rfl, rfl, rfl⟩
theorem witness_CoreComputeFrame : ∃ (s s' : State) (c k : Nat) (i : Instr) (d : BitVec 5) (f : (BitVec 5 → Word) → Word),
    Claims.coreValue i = some (d, f) ∧ Claims.Runs s c k d ∧ exec i s = .next s' :=
  ⟨withRegs 1 2, _, 0, 0, .sra 31 1 2, 31, _, rfl, ⟨rfl, rfl⟩, rfl⟩
theorem witness_CorePinnedRegisterTraps :
    let s := withTask fun t => { t with recipes := [[0], [(encodeCore (.addC 4 3 3)).getD 0]], tags := [(4, 1)] }
    s.focus = .task 0 0 ∧ (s.task 0 0).pinned 3 = true := by decide
theorem witness_RegisterZeroAndWrites : ((withTask id).task 0 0).regs.length = 32 := by decide
theorem witness_CoreBranches : ∃ (s : State) (c k : Nat) (i : Instr) (f : BitVec 15) (h : (BitVec 5 → Word) → Bool),
    Claims.branch i = some (f, h) ∧ s.focus = .task c k ∧ h (fun r => (s.task c k).reg r) = true :=
  ⟨withRegs 1 2, 0, 0, .blt 1 2 0x4000, _, _, rfl, rfl, rfl⟩
theorem witness_CoreBranches_not : ∃ (s : State) (c k : Nat) (i : Instr) (f : BitVec 15) (h : (BitVec 5 → Word) → Bool),
    Claims.branch i = some (f, h) ∧ s.focus = .task c k ∧ h (fun r => (s.task c k).reg r) = false :=
  ⟨withRegs 1 2, 0, 0, .bge 1 2 0x3FFF, _, _, rfl, rfl, rfl⟩
theorem witness_CoreJumps : Claims.Runs (withRegs 1 2) 0 0 0 ∧ Claims.Runs (withRegs 1 2) 0 0 31 := by decide
theorem witness_TrapAndReturn : (withTask id).focus = .task 0 0 ∧
    (let t := (withTask fun t => { t with tvec := 0x100 }).task 0 0
     t.inh = false ∧ t.tvec ≠ 0) ∧ ((withTask fun t => { t with inh := true }).task 0 0).inh = true := by decide
theorem witness_ControlRegisterReads :
    let s := withTask fun t => { t with tenant := 0xFFFF, ctx := 0xFFF }
    Claims.Runs s 0 0 31 ∧ (s.task 0 0).tenant < 2 ^ 16 ∧ (s.task 0 0).ctx < 2 ^ 12 ∧
      (0x010, 0) ∈ Claims.csrTable s 0 0 ∧ 0x010 < (0x011 : BitVec 15).toNat := by decide
theorem witness_ControlRegisterWrites :
    let s := withRegs 0xFFFFFFFFFFFFFFFC 2
    Claims.Runs s 0 0 3 ∧ ((s.task 0 0).reg 1).toNat % 4 = 0 ∧ ((s.task 0 0).reg 2).toNat % 4 ≠ 0 ∧
      (0x011 : BitVec 15).toNat ∉ [0x001, 0x002, 0x003, 0x010] := by decide

/-- The state in which task 0 is BLOCKED for a memory instruction's access, at a turn of HOME_ACCESS, and what the home answers. -/
def coreHome (i : Instr) (s : State) : Option (State × Nat × HomeResult) := do
  let x ← Claims.coreAccess (s.task 0 0) i
  let m ← x.mode
  match s.taskHome 0 0 (s.task 0 0) ((s.task 0 0).reg x.addr).toNat x.kind with
  | .stop _ => none
  | .ok (h, key) =>
    let held : TaskAccess := { Claims.kept i (h % 64) x.size with
      acc := Claims.homeAccess s (s.task 0 0) x m h key, va := ((s.task 0 0).reg x.addr).toNat }
    let z := atEvent 0 0 ((s.updTask 0 0 fun t => { t with access := held }).block 0 0 .access)
    if (z.task 0 0).st = .blocked .access && decide ((z.task 0 0).access = held) then some (z, h, z.homeAct held.acc) else none

/-- The hypotheses of CoreMemoryAccesses on one instruction. -/
def coreHyps (i : Instr) (s : State) : Bool :=
  match Claims.coreAccess (s.task 0 0) i with
  | none => false
  | some x => s.focus = .task 0 0 && (x.dest.map fun p => (s.task 0 0).pinned p.1.toNat) ≠ some true && x.mode ≠ none &&
      x.scope.toNat ≤ 4 && ((s.task 0 0).reg x.addr).toNat % x.size = 0 &&
      (match coreHome i s with
       | some (z, _, .done _ _) => z.waits = []
       | _ => false)
theorem witness_Still : Claims.Still (withRegs 1 2) := ⟨rfl, fun _ => rfl⟩
theorem witness_Still_blocked : Claims.Still (atEvent 0 0 ((withRegs 1 2).block 0 0 .access)) := ⟨rfl, fun _ => rfl⟩
theorem witness_CoreMemoryAccesses :
    ([.ldC 3 1 0 0 0 3 1, .lds 3 1 0 1 4 0 0, .stC 2 1 0 0 0 3 0, .stC 2 1 0 2 0 0 0, .aadd 3 1 2 0 0 3 0, .amin 3 1 2 0 1 2 1, .amax 3 1 2 2 0 3 0,
      .axchg 3 1 2 0 0 2 0, .casC 3 1 2 0 0 3 0] : List Instr).all (fun i => coreHyps i (withRegs (BitVec.ofNat 64 (commons + 56)) 7)) = true := by decide
theorem witness_CoreMemoryTraps :
    let s := withRegs (BitVec.ofNat 64 (commons + 1)) 7
    ((Claims.coreAccess (s.task 0 0) (.ldC 3 1 0 3 0 3 0)).map fun x => decide (x.mode = none)) = some true ∧
    ((Claims.coreAccess (s.task 0 0) (.ldC 3 1 0 0 5 3 0)).map fun x => decide (4 < x.scope.toNat)) = some true ∧
    ((Claims.coreAccess (s.task 0 0) (.ldC 3 1 0 0 4 1 0)).map fun x => decide (x.mode ≠ none ∧ x.scope.toNat ≤ 4 ∧ (commons + 1) % x.size ≠ 0)) =
      some true ∧
    (let t := withTask fun t => { t with recipes := [[0], [(encodeCore (.addC 4 3 3)).getD 0]], tags := [(4, 1)] }
     t.focus = .task 0 0 ∧ (t.task 0 0).pinned 3 = true ∧
       ((Claims.coreAccess (t.task 0 0) (.ldC 3 1 0 0 4 1 0)).map fun x => decide (x.dest.map Prod.fst = some 3 ∧ x.mode ≠ none ∧ x.scope.toNat ≤ 4)) =
         some true) := by decide
theorem witness_CoreStoreFrame :
    let s := withRegs (BitVec.ofNat 64 (commons + 56)) 7
    coreHyps (.stC 2 1 0 0 0 3 0) s = true ∧ cellsWf s.mem = true ∧
    ((coreHome (.stC 2 1 0 0 0 3 0) s).map fun r => decide (r.2.1 % 8 = 0) && decide (cellsWf r.1.mem) && (match r.1.spaceOf (64 * (r.2.1 / 64)) with
      | .peer _ => false
      | _ => true)) = some true ∧
    (match exec (.stC 2 1 0 0 0 3 0) s with
      | .next s1 => (match exec (.homeAccess (.taskData 0 0)) (atEvent 0 0 s1) with
        | .next y => decide (cellGet y.mem (2 ^ 52 + 56) = 7)
        | _ => false)
      | _ => false) = true := by decide
theorem witness_CoreBlockInstructions :
    let s := withRegs (BitVec.ofNat 64 (commons + 1)) 0
    Claims.Runs s 0 0 3 ∧ s.waits = [] ∧ (4 : BitVec 3).toNat ≤ 4 ∧
    ([(AccKind.write, AccessOp.reclaim 0, VMode.any), (.read, .probe, .ge 0)].all fun p =>
      match s.taskHome 0 0 (s.task 0 0) (commons + 1) p.1 with
      | .stop _ => false
      | .ok (h, key) => match s.homeAct { block := h / 64, op := p.2.1, mode := p.2.2, key := key, tenant := 0, moved := 0 } with
        | .done _ _ => true
        | _ => false) = true := by decide
theorem witness_HomeVersionRules :
    let s := State.reset
    (match s.spaceOf 0 with
      | .dram _ => true
      | _ => false) = true ∧ (s.blockMeta 0).poison = false ∧
    (let v := (s.blockMeta 0).version
     v + 1 = 1 ∧ (v + 1 ≠ 0 ∧ (v - 0).toNat < 2 ^ 15) ∧ (v + 1 ≠ 0x8001 ∧ (v - 0x8001).toNat < 2 ^ 15) ∧
     (v + 1 ≠ 0x8000 ∧ 2 ^ 15 ≤ (v - 0x8000).toNat) ∧ (v + 1 ≠ 2 ∧ 2 ^ 15 ≤ (v - 2).toNat)) := by decide
/-- Loads of a version that has come, of one retained, of one gone and of one to come. -/
theorem witness_HomeVersionRules_loads :
    let s : State := { State.reset with blocks := [(0, { version := 5, retained := [(4, none, List.replicate 64 7)] })] }
    let m := s.blockMeta 0
    m.poison = false ∧ m.version = 5 ∧ (m.version - 5).toNat < 2 ^ 15 ∧ ((5 : BitVec 16) - 0x8006).toNat < 2 ^ 15 ∧
      (m.version ≠ 4 ∧ (m.version - 4).toNat < 2 ^ 15 ∧ m.retained.find? (fun p => p.1 = 4) = some (4, none, List.replicate 64 7)) ∧
      (m.version ≠ 3 ∧ (m.version - 3).toNat < 2 ^ 15 ∧ ∀ p ∈ m.retained, p.1 ≠ 3) ∧ 2 ^ 15 ≤ (m.version - 6).toNat := by decide
theorem witness_AtomicWords : 2 ^ 32 - 1 < 2 ^ 32 ∧ 0 < 2 ^ 32 ∧ 2 ^ 63 < 2 ^ 64 := by decide

/-! ### Tasks, VCs and configuration -/

/-- Bytes in the commons of cluster 0, from its first address. -/
def holding (bs : List Byte) (s : State) : State :=
  { s with mem := (bs.zipIdx.filter fun p => p.1 ≠ 0).map fun p => (2 ^ 52 + p.2, p.1) }

/-- Pieces of byte ranges that task 0's instruction has accessed and performed, with the bytes read of them. -/
def accessed (ps : List (Nat × List Byte)) (s : State) : State :=
  s.updTask 0 0 fun t => { t with ranged := ps.map fun p => { va := p.1, size := p.2.length, done := true, bytes := p.2 } }

/-- A token image for context 9 with t0 of its region as its target. -/
def image : List Byte := (run 11 [5, 6]).image

theorem witness_ReceiveToken :
    let s := (withRegs (BitVec.ofNat 64 commons) 15).setVc 0 15 { bound := some 0, queue := [run 11 [5, 6]] }
    Claims.Runs s 0 0 3 ∧ ((s.task 0 0).reg 2).toNat = 15 ∧ (s.vc 0 15).bound = some 0 ∧ (s.vc 0 15).queue = [run 11 [5, 6]] ∧
      ((s.task 0 0).reg 1).toNat % 16 = 0 ∧ (match s.taskWrite 0 0 commons (run 11 [5, 6]).image with
        | .stop _ => true
        | .ok _ => false) = true ∧
      read ((accessed [(commons, (run 11 [5, 6]).image)] s).taskWrite 0 0 commons (run 11 [5, 6]).image) = true := by decide
theorem witness_RangeAccesses :
    let s := withRegs (BitVec.ofNat 64 commons) 15
    (match s.taskRead 0 0 (s.task 0 0) (commons + 60) 4 with
      | .ok _ => false
      | .stop y =>
        let x := (y.task 0 0).access
        let z := atEvent 0 0 y
        decide (x.kind = .range) && decide ((z.task 0 0).st = .blocked .access) && decide (z.waits = []) && (match z.homeAct x.acc with
          | .done _ _ => true
          | _ => false)) = true ∧
    60 % 64 + 4 ≤ 64 ∧ ((accessed [(commons + 60, [1, 2, 3, 4])] s).task 0 0).ranged =
      [{ va := commons + 60, size := 4, done := true, bytes := [1, 2, 3, 4] }] := by decide
theorem witness_ReceiveToken_empty :
    let s := (withRegs 0 0).setVc 0 0 { bound := some 0 }
    Claims.Runs s 0 0 3 ∧ (s.vc 0 0).bound = some 0 ∧ (s.vc 0 0).queue = [] := by decide
theorem witness_ReceiveToken_unbound : Claims.Runs (withRegs 0 0) 0 0 3 ∧ ((withRegs 0 0).vc 0 0).bound ≠ some 0 := by decide
theorem witness_SendToken :
    let b := withRegion (withTask fun t => { t with regs := t.regs.set 1 (BitVec.ofNat 64 commons), ctx := 9 })
    let s := accessed [(commons, image.take 16), (commons + 16, image.drop 16)] b
    let full : State := { b with net := List.replicate 8 { tok := run 8 [1], edge := { slot := 34 }, place := .source 0 } }
    Claims.Runs s 0 0 3 ∧ ((s.task 0 0).reg 1).toNat % 16 = 0 ∧ s.sendQueue 0 < 8 ∧ Claims.Runs full 0 0 3 ∧ 8 ≤ full.sendQueue 0 ∧
      (match s.taskRead 0 0 (s.task 0 0) commons 16 with
        | .stop _ => false
        | .ok h => bits (field h 0 8) 38 27 = 9 && (match s.taskRead 0 0 (s.task 0 0) (commons + 16) (imageBytes (field h 0 8) - 16) with
          | .stop _ => false
          | .ok bs => ((tokenOfImage (h ++ bs)).map fun tok => ((s.ctxRegion 9).map fun r => r.holds tok.destTile) = some true &&
              !s.fused tok.destTile) = some true)) = true ∧
      (s.ctx 9).st = .live := by decide
theorem witness_BindChannel :
    let s := ((withRegs 15 31).setVc 0 15 { bound := some 0 }).setVc 0 14 { bound := some 1 }
    Claims.Runs s 0 0 3 ∧ ((s.task 0 0).reg 1).toNat = 15 ∧ ((s.task 0 0).reg 2).toNat = 15 + 16 ∧ (s.vc 0 15).bound = some 0 ∧
      (s.vc 0 14).bound = some 1 ∧ (s.vc 0 13).bound = none ∧ 32 ≤ (0x20 : Word).toNat := by decide
theorem witness_TaskScheduling :
    let s := withRegs 0xFFFFFFFF00000000 7
    s.focus = .task 0 0 ∧ (s.cluster 0).core.freeTask = some 1 ∧ (s.task 0 0).pinned 3 = false ∧ (s.task 0 0).image = none ∧
      ((s.task 0 0).reg 1).toNat % 4 = 0 ∧ (s.task 0 0).st = .running ∧ ((s.task 0 0).reg 1).toNat % 2 ^ 32 = 0 ∧
      ((s.task 0 0).reg 2).toNat % 2 ^ 32 ≠ 0 ∧ ((s.task 0 0).reg 2).toNat = 7 ∧ ((s.task 0 0).reg 0).toNat = 0 := by decide
theorem witness_ContextControl :
    let s := withRegion (withRegs 9 (9 + 4096))
    let f := s.updCtx 9 fun x => { x with st := .frozen, why := .halt }
    Claims.Runs s 0 0 3 ∧ (s.ctx 9).tenant = (s.task 0 0).tenant ∧ ((s.task 0 0).reg 1).toNat = 9 ∧ ((s.task 0 0).reg 2).toNat = 9 + 4096 ∧
      (s.ctx 9).st = .live ∧ Claims.Runs f 0 0 3 ∧ (f.ctx 9).st = .frozen ∧ (f.ctx 9).why = .halt ∧
      (let o := s.updCtx 9 fun x => { x with tenant := 6 }
       Claims.Runs o 0 0 3 ∧ (o.task 0 0).priv = false ∧ (o.ctx 9).tenant ≠ (o.task 0 0).tenant) := by decide
theorem witness_ConfigurationNeedsCfg : (withTask id).focus = .task 0 0 ∧ ((withTask id).task 0 0).cfg = false := by decide

/-- A task with CFG, g1, g2 and perhaps a session of a 2 by 1 rectangle at tile (3, 0). -/
def configuring (session : Bool) (x y : Word) : State :=
  dean (fun d => { d with sessions := if session then
    [{ cluster := 0, task := 0, addr := commons, x0 := 3, y0 := 0, w := 2, h := 1, staged := [{ tile := tileOf 3 0, crc := 5 }] }] else [] })
    (withTask fun t => { t with cfg := true, regs := (t.regs.set 1 x).set 2 y })
/-- An image header of one tile with no sections (R46). -/
def header : List Byte := toBytes 4 hdrMagic ++ toBytes 2 1 ++ toBytes 2 0 ++ toBytes 2 1 ++ toBytes 2 1 ++ [0xFF, 0xFF]

theorem witness_ConfigurationSessions_place :
    let s := accessed [(commons, header ++ toBytes 26 0)] (configuring false 0 (BitVec.ofNat 64 commons))
    Claims.Configures s 0 0 3 ∧ s.session 0 0 = none ∧ ((s.task 0 0).reg 1).toNat = 0 ∧ s.dean.placedBy ≤ 0 ∧
      (match s.taskRead 0 0 (s.task 0 0) commons hdrBytes with
        | .ok h => hdrOk h
        | .stop _ => false) = true ∧
      (let v := 0x8000000000000305
       bit v 63 = true ∧ v &&& 0x800000007FFF3F7F = v) ∧
      -- a reserved bit, with the fixed form and without it, and of CFGW's gA
      (bit 0x8000000080000000 63 = true ∧ 0x8000000080000000 &&& 0x800000007FFF3F7F ≠ 0x8000000080000000) ∧ (bit 1 63 = false ∧ 1 ≠ 0) ∧
      0x80 &&& 0x3F7F3F7F ≠ 0x80 := by decide +kernel
/-- A tile block without slots, its constants zero, with its CRC (R44, R45): its header, and the pieces of it read at an address 48 above
a block. -/
def blankHead (crc : Nat) : BlockHead := { crc := crc }
def blankPieces (crc : Nat) : List (Nat × List Byte) :=
  [(commons + 48, toBytes 8 0 ++ toBytes 8 crc), (commons + 64, toBytes 64 0), (commons + 128, toBytes 64 0)]
theorem crc_zeros : crc32c (List.replicate 128 (0 : Byte)) = 136799451 := by
  have z (a b : Nat) (h : crcBytes a (List.replicate 16 0) = b) (n : Nat) :
      crcBytes a (List.replicate (16 + n) 0) = crcBytes b (List.replicate n 0) := by
    rw [List.replicate_add, crcBytes, List.foldl_append]; exact congrArg (fun c => List.foldl crcByte c _) h
  have h : crcBytes 0xFFFFFFFF (List.replicate 128 (0 : Byte)) = 4158167844 := by
    rw [z _ 3180291349 (by decide +kernel) 112, z _ 1970194773 (by decide +kernel) 96, z _ 3614688582 (by decide +kernel) 80,
      z _ 4231468184 (by decide +kernel) 64, z _ 3754565091 (by decide +kernel) 48, z _ 2920151892 (by decide +kernel) 32,
      z _ 2533816580 (by decide +kernel) 16, z _ 4158167844 (by decide +kernel) 0]
    rfl
  rw [crc32c, h]; rfl
theorem witness_blankFits : (({} : Session).blockFits 3 0 (blankHead 136799451) (List.replicate 128 0) = 0) ∧
    ({} : Session).blockFits 3 0 (blankHead 5) (List.replicate 128 0) = 3 := by
  simp only [Session.blockFits, blockStatus, crc_zeros]
  decide +kernel
/-- What task 0 reads of its block and its image's records. -/
def readsBlank (crc : Nat) (s : State) : Bool :=
  match s.session 0 0 with
  | none => false
  | some x =>
    match s.readBlock 0 0 (s.task 0 0) (commons + 48), s.readFixes 0 0 (s.task 0 0) x, s.taskRead 0 0 (s.task 0 0) x.addr (hdrLength x.header) with
    | .ok (h, bs), .ok _, .ok _ => decide (h = blankHead crc ∧ bs = List.replicate 128 0) && x.recipesFit (tileOf 3 0) (blockOfBytes h bs) && !hdrPriv x.header
    | _, _, _ => false
theorem witness_ConfigurationSessions :
    let s (crc : Nat) := accessed (blankPieces crc) (configuring true 3 (BitVec.ofNat 64 (commons + 48)))
    Claims.Configures (s 5) 0 0 3 ∧
      (((s 5).session 0 0).map fun x =>
        decide (3 &&& 0x3F7F3F7F = 3) && x.holds (tileOf (bits 3 6 0) (bits 3 13 8)) && !(s 5).fused (tileOf (bits 3 6 0) (bits 3 13 8)) &&
        decide ((((s 5).task 0 0).reg 2).toNat % 16 = 0) && ((x.staged.find? fun y => y.tile = tileOf 3 0).isSome)) = some true ∧
      readsBlank 5 (s 5) = true ∧ readsBlank 136799451 (s 136799451) = true := by decide +kernel
theorem witness_MulticastConfiguration :
    let list := [(commons, toBytes 4 1), (commons + 4, ([3, 0, 3, 0] : List Byte))]
    let s := accessed (list ++ blankPieces 136799451) (configuring true (BitVec.ofNat 64 commons) (BitVec.ofNat 64 (commons + 48)))
    Claims.Configures s 0 0 3 ∧ ((s.task 0 0).reg 1).toNat = commons ∧
      (match s.taskRead 0 0 (s.task 0 0) commons 4 with
        | .stop _ => false
        | .ok w => field w 0 4 = 1 && (match s.taskRead 0 0 (s.task 0 0) (commons + 4) (4 * 1) with
          | .stop _ => false
          | .ok l => field l 0 1 ≤ field l 2 1 && field l 1 1 ≤ field l 3 1)) = true ∧
      ((s.session 0 0).map fun x => (s.placeStatus x 3 0 (commons + 48), s.placeStatus x 2 0 (commons + 48))) = some (0, 0x10) ∧
      readsBlank 136799451 s = true := by decide +kernel
theorem witness_SignatureChecks :
    let s := accessed [(commons, header ++ [0, 0] ++ toBytes 12 0 ++ [0, 1, 0, 0]), (commons + 32, toBytes 32 0), (commons + 64, toBytes 64 0),
      (commons + 128, toBytes 64 0), (commons + 192, toBytes 64 0)] (withRegs (BitVec.ofNat 64 commons) 0)
    Claims.Runs s 0 0 3 ∧
      (match s.taskRead 0 0 (s.task 0 0) commons 32 with
        | .stop _ => false
        | .ok h => field h 0 4 = hdrMagic && field h 0x1C 4 = 256 && read (s.taskRead 0 0 (s.task 0 0) (commons + 32) 224)) = true := by decide +kernel

/-- A task of a LIVE context that issues engine commands. -/
def issuing (x y : Word) : State := withRegion (withTask fun t => { t with ctx := 9, regs := (t.regs.set 1 x).set 2 y })
theorem witness_EngineCommands :
    let s := issuing (BitVec.ofNat 64 commons) 1
    Claims.Issues s 0 0 3 ∧ (s.cluster 0).streamer.queue.length < 16 ∧ ((s.task 0 0).reg 2).toNat < 2 ∧
      (s.cluster 0).array.queue.length < 8 ∧ (s.cluster 0).registrar.queue.length < 4 := by decide
theorem witness_EngineCommands_reserved : Claims.Issues (issuing 0 2) 0 0 3 ∧ 4 < (5 : BitVec 3).toNat ∧
    2 ≤ (((issuing 0 2).task 0 0).reg 2).toNat := by decide
/-- A reserved SCOPE is BadField (R41, R43): cause 0x0B, subcode 0x08, and the record's address is the pc. -/
theorem test_copy_reserved_scope :
    (match exec (.copyC 3 1 0 0 5 0) ((issuing 0 1).updTask 0 0 fun t => { t with pc := 0x108, tvec := 0x40 }) with
      | .next z => decide ((z.task 0 0).cause = 0x0B08 ∧ (z.task 0 0).epc = 0x108 ∧ (z.task 0 0).pc = 0x40)
      | _ => false) = true := by decide
theorem witness_ResumeStream :
    let s := (withRegs (2 ^ 16 * 7 + 511) 0).setStreamer 511 { agns := [(7, { stall := .resume })] }
    Claims.Runs s 0 0 3 ∧ ((s.task 0 0).reg 1).toNat = 511 + 2 ^ 16 * 7 ∧ assocHas (s.cluster 511).streamer.agns 7 = true ∧
      512 &&& 0x701FF ≠ 512 ∧ 2 ^ 19 &&& 0x701FF ≠ 2 ^ 19 := by decide
theorem witness_RecipeTags :
    let s := withTask fun t => { t with recipes := List.replicate 8 [(encodeCore (.addC 4 3 3)).getD 0], regs := (t.regs.set 2 7).set 3 21 }
    Claims.Runs s 0 0 4 ∧ (s.task 0 0).dirty = [] ∧ ((s.task 0 0).reg 2).toNat = 7 ∧
      (let ws := (s.task 0 0).recipes.getD 7 []
       recipeOk 4 ws = true ∧ ((recipeSources 4 ws).all fun r => !(s.task 0 0).pending (BitVec.ofNat 5 r)) = true ∧
       (match s.evalRecipe 0 0 (s.task 0 0) 4 false 0 (recipeInstrs (ws.take 4)) with
         | .ok v => decide (v = 42)
         | .stop _ => false) = true) := by decide

/-- An uncorrectable error makes a load of its block raise Poison, and no other block's (R311). -/
theorem test_memory_error :
    (match (State.reset.poisonBlock 5).homeAct { block := 5 } with
      | .bad c u => c = 8 && u = 0
      | _ => false) = true ∧
    (match (State.reset.poisonBlock 5).homeAct { block := 6 } with
      | .done _ _ => true
      | _ => false) = true := by decide

/-! ### Element-wise, run and dataflow instructions -/

/-- The slot word of the witnesses: format f, constant K3 if kr is 1. -/
def word (f : Fmt) (kr : BitVec 1 := 0) : DWord := { fmt := f, kr := kr, kidx := 3, nt := 1, t0 := 0x42 }

/-- The hypotheses of Claims.Computes, decided. -/
def computes (e : Claims.Element) (s : State) (p : Pairing) : Bool :=
  s.focus = .firing 5 p && 0 < p.len && p.len ≤ 32 && e.fmts e.w.fmt.toNat && decide (Claims.Full p.left p) && e.left p.left.fmt.toNat &&
  (!e.two || e.w.kr = 1 || decide (Claims.Full p.right p) && e.right p.right.fmt.toNat) &&
  (e.scale p.left.scale.toInt (if e.two = true ∧ e.w.kr = 0 then some p.right.scale.toInt else none)).isSome

/-- The widest run of a format, of the number 1 in every element. -/
def ones (f : Fmt) : Token := run f (List.replicate (fmtMaxLen f.toNat) 1)

theorem witness_IntegerArithmetic :
    ([.add (word 8), .sub (word 8), .mul (word 8), .mulh (word 8), .div (word 10), .rem (word 10), .min (word 13 1), .max (word 13), .abs (word 9),
      .neg (word 28), .cmp { word 8 with mod := 5 }, .adds (word 12), .subs (word 29), .madk (word 8)] : List Instr).all (fun i =>
        match Claims.arithmetic i with
        | none => false
        | some e => let p := pair (ones e.w.fmt) (ones e.w.fmt); computes e (onFabric 1 p) p) = true ∧
    ((Claims.arithmetic (.agen (word 29))).map fun e =>
      let p := pair (ones 30) (ones 29)
      decide (e.w.kr = (0 : BitVec 1)) && computes e (onFabric 1 p) p) = some true := by decide +kernel
theorem witness_IntegerBits :
    ([.and (word 8), .or (word 8), .xor (word 8 1), .andn (word 8), .not (word 8), .shl (word 8), .shr (word 8), .sar (word 10), .rol (word 8),
      .clz (word 8), .popc (word 29), .bfx (word 8)] : List Instr).all (fun i =>
        match Claims.bitwise i with
        | none => false
        | some e => let p := pair (ones e.w.fmt) (ones e.w.fmt); computes e (onFabric 0x13F00 p) p) = true ∧
    ((Claims.bitwise (.plane (word 1))).map fun e =>
      let p := pair (ones 1) (ones 8)
      computes e (onFabric 1 p) p) = some true := by decide +kernel
theorem witness_FloatArithmetic :
    ([.fadd (word 1), .fsub (word 1), .fmul (word 1), .fmak (word 1), .fnmsk (word 1), .fdiv { word 3 with mod := 5 }, .fsqrt (word 3), .fmin (word 0),
      .fmax (word 0 1), .fabs (word 7), .fneg (word 1), .fcpys (word 1), .fcmp (word 1), .fclass (word 1), .fround (word 2)] : List Instr).all (fun i =>
        match Claims.floating i with
        | none => false
        | some e => let p := pair (ones e.w.fmt) (ones e.w.fmt); computes e (onFabric 1 p) p) = true ∧
    ((Claims.floating (.fscale (word 1))).map fun e =>
      let p := pair (ones 1) (ones 8)
      computes e (onFabric 1 p) p) = some true := by decide +kernel
theorem witness_RoundingKeepsNumbers :
    let f := floatFmt 1
    f ∈ ([0, 1, 2, 3, 4, 5, 6, 7] : List Nat).map floatFmt ∧ 4 ≤ 4 ∧ 0xFFFFFFFF < 2 ^ (1 + f.eb + f.fb + f.pad) ∧ 0xFFFFFFFF % 2 ^ f.pad = 0 := by
  decide
theorem witness_SpecialFunctionElements :
    ([.frsqe (word 1), .frcpe (word 1), .fexp2 (word 1), .flog2 (word 1), .fsin (word 1), .fcos (word 1), .ftanh (word 1), .fsigm (word 1)] :
      List Instr).all (fun i =>
        match Claims.special i with
        | none => false
        | some e => let p := pair (ones 1) (ones 1); computes e (onFabric 1 p) p) = true := by decide +kernel
theorem witness_SpecialFunctionPoints : (-126 : Int) ≤ -126 ∧ (-126 : Int) ≤ 127 ∧ (127 : Int) ≤ 127 ∧ 0 < 1 := by decide
theorem witness_LocalConversions :
    fmtInt 8 = true ∧ fmtInt 10 = true ∧ fmtBytes 10 < fmtBytes 8 ∧ (fmtSigned 8 = true ∨ fmtSigned 10 = false) ∧
    (let e (df : Fmt) (sf : Nat) : Claims.Element :=
       { w := word df, two := false, fmts := fun _ => true, left := fun g => g = sf, right := fun _ => true, out := df, scale := Claims.scLeft,
         value := fun _ _ _ _ _ _ => (0, 0) }
     ([(10, 8), (8, 10), (1, 3), (3, 1), (11, 1)] : List (Fmt × Fmt)).all (fun x =>
       let p := pair (ones x.2) (ones 1)
       computes (e x.1 x.2.toNat) (onFabric 1 p) p) = true) := by decide +kernel
theorem witness_FaultOperandsPass :
    (Claims.arithmetic (.add (word 8))).isSome = true ∧
    (let p := pair { run 8 [1] with act := .fault } (run 8 [1])
     (onFabric 0 p).focus = .firing 5 p ∧ p.left.act = .fault) ∧
    (let p := pair (run 8 [1]) { run 8 [1] with act := .fault }
     (onFabric 0 p).focus = .firing 5 p ∧ p.left.act ≠ .fault ∧ p.right.act = .fault) := by decide
theorem witness_WrongFormatFaults :
    ((Claims.floating (.fadd (word 1))).map fun e =>
      let p := pair (run 2 [1]) (run 1 [1])
      decide ((onFabric 0 p).focus = .firing 5 p ∧ p.left.act ≠ .fault ∧ p.right.act ≠ .fault) && !e.left p.left.fmt.toNat) = some true := by decide

/-- A pairing of runs of four of which only some elements are there. -/
def holes (l r : BitVec 32) : Pairing := pair { run 8 [1, 2, 3, 4] with mask := l } { run 8 [1, 2, 3, 4] with mask := r }
theorem witness_EmptyPolicies :
    (let p := holes 5 3
     (onFabric 7 p).focus = .firing 5 p ∧ 0 < p.len ∧ p.len ≤ 32 ∧ p.left.act ≠ .fault ∧ p.right.act ≠ .fault ∧ p.left.fmt = (word 8).fmt ∧
       p.right.fmt = (word 8).fmt ∧ p.left.scale = p.right.scale) ∧
    (let absent (p : Pairing) (el er i : Nat) : List Nat := (if p.left.has i then [] else [el]) ++ (if p.right.has i then [] else [er])
     -- the lowest FAULT absence is at tag 2 of Rt
     (3 ∈ absent (holes 5 3) 2 3 2 ∧ ∀ i < 2, 3 ∉ absent (holes 5 3) 2 3 i) ∧
     -- no FAULT, and an element is there
     ((∀ i < 4, 3 ∉ absent (holes 5 3) 1 2 i) ∧ ∃ i < 4, (absent (holes 5 3) 1 2 i).all (fun q => q = 2) = true) ∧
     -- none is there: an absence is FORWARD, or none is
     (∀ i < 4, 3 ∉ absent (holes 5 10) 1 0 i ∧ (absent (holes 5 10) 1 0 i).all (fun q => q = 2) = false) ∧ (∃ i < 4, 1 ∈ absent (holes 5 10) 1 0 i) ∧
     (∀ i < 4, 3 ∉ absent (holes 5 10) 0 0 i ∧ (absent (holes 5 10) 0 0 i).all (fun q => q = 2) = false) ∧ ∀ i < 4, 1 ∉ absent (holes 5 10) 0 0 i) := by
  decide
theorem witness_MaskElements :
    let p := pair (run 8 [1, 2]) (run 11 [0, 2])
    (onFabric 0 p).focus = .firing 5 p ∧ 0 < p.len ∧ p.len ≤ 32 ∧ Claims.Full p.left p ∧ Claims.Full p.right p ∧ (word 8).kr = 0 ∧
      p.left.fmt = (word 8).fmt := by decide
theorem witness_ElementFrame :
    ((Claims.arithmetic (.add (word 8))).map fun e =>
      let p := pair (run 8 [1, 2]) (run 8 [3, 4])
      let s := onFabric 0 p
      decide (s.focus = .firing 5 p) && decide (Claims.Full p.left p) && decide (Claims.Full p.right p) && e.left p.left.fmt.toNat &&
      e.right p.right.fmt.toNat && (e.scale p.left.scale.toInt (some p.right.scale.toInt)).isSome && decide (e.w.kr = (0 : BitVec 1)) &&
      ((s.targets 5 e.w.nt e.w.t1 e.w.t0).all fun g => (s.resolve 5 g.2).isSome) &&
      (match exec (.add (word 8)) s with
        | .next _ => true
        | _ => false)) = some true := by decide +kernel

theorem witness_RunResults :
    ([.rsum (word 8), .rscan (word 1), .rmax (word 8), .rmin (word 1), .rargmx (word 8), .bits (word 8), .rpop (word 8), .bcast (word 8), .rotl (word 1),
      .compact (word 8), .shuf (word 8), .expand (word 8)] : List Instr).all (fun i =>
        match Claims.runs i with
        | none => false
        | some e =>
          let p := pair (ones e.w.fmt) (ones 8)
          decide ((onFabric 1 p).focus = .firing 5 p) && decide (0 < p.len) && decide (p.len ≤ 32) && decide (Claims.Full p.left p) &&
          decide (p.left.fmt = e.w.fmt) && decide (∀ j < p.len, p.left.elem j < 2 ^ fmtBits e.w.fmt.toNat) &&
          (!e.two || decide (Claims.Full p.right p) && e.right p.right.fmt.toNat) && (fmtInt e.w.fmt.toNat || fmtFloat e.w.fmt.toNat)) = true := by
  decide +kernel
theorem witness_TopTwo :
    let p := pair (run 8 [1, 0xFFFFFFFF]) (run 8 [0])
    (onFabric 0 p).focus = .firing 5 p ∧ 2 ≤ p.len ∧ p.len ≤ 32 ∧ Claims.Full p.left p ∧ p.left.fmt = (word 8).fmt ∧
      fmtInt (word 8).fmt.toNat = true := by decide
theorem witness_AccumulatingSum :
    let p := pair (run 8 [1, 0xFFFFFFFF]) (run 8 [0])
    let s := onFabric 0 p
    let busy := s.updTile 5 fun x => x.setAccReg { ctx := 9, slot := 2, total := 3, scale := some 4 }
    s.focus = .firing 5 p ∧ 0 < p.len ∧ p.len ≤ 32 ∧ (word 8 1).kr = 1 ∧ (word 8 1).ord = 0 ∧ Claims.Full p.left p ∧ p.left.fmt = (word 8).fmt ∧
      (((s.tile 5).accReg 9 2).getD { ctx := 9, slot := 2 }).scale = none ∧
      busy.focus = .firing 5 p ∧ (((busy.tile 5).accReg 9 2).getD { ctx := 9, slot := 2 }).scale = some 4 ∧ 4 ≠ p.left.scale := by decide
theorem witness_DataflowResults :
    let p := pair (ones 10) (ones 10)
    let q := pair { ones 10 with itag := 0xFFFFFFFF } (ones 10)
    ((onFabric 0 p).focus = .firing 5 p ∧ 0 < p.len ∧ p.len ≤ 32 ∧ Claims.Full p.left p ∧ Claims.Full p.right p ∧ (word 10).kr = 0) ∧
    -- tags to the last one, and past it
    p.itag.toNat + p.len ≤ 2 ^ 32 ∧
    (let q := { q with itag := 0xFFFFFFFF }
     (onFabric 0 q).focus = .firing 5 q ∧ Claims.Full q.left q ∧ ¬ q.itag.toNat + q.len ≤ 2 ^ 32) := by decide +kernel
theorem witness_DataflowPassing :
    let p := pair (run 8 [1]) (run 8 [0])
    let q : Pairing := { p with l := .none }
    (onFabric 0 p).focus = .firing 5 p ∧ Claims.Full p.left p ∧ p.l.given = true ∧ p.left.itag.toNat + p.left.len ≤ 2 ^ 32 ∧
      (onFabric 0 q).focus = .firing 5 q ∧ q.l.given = false ∧ q.right.itag.toNat + q.right.len ≤ 2 ^ 32 := by decide
theorem witness_SteerSplitsByPredicate :
    let p := pair (run 1 [1, 2]) (run 11 [0, 1])
    (onFabric 0 p).focus = .firing 5 p ∧ 0 < p.len ∧ p.len ≤ 32 ∧ (word 1).kr = 0 ∧ Claims.Full p.left p ∧ Claims.Full p.right p := by decide
theorem witness_DataflowTags :
    let p := pair (run 8 [1, 2]) (run 11 [0xFFFFFFFE, 0])
    let q := pair (run 8 [1, 2]) (run 30 [2 ^ 32 + 0xFFFFFFFF, 0])
    let s (k : Word) := onFabric k p
    (s 32).focus = .firing 5 p ∧ 0 < p.len ∧ p.len ≤ 32 ∧ Claims.Full p.left p ∧ Claims.Full p.right p ∧ Claims.Full q.right q ∧
      p.right.elem 0 % 2 ^ 32 + p.len ≤ 2 ^ 32 ∧ 2 ^ 32 < q.right.elem 0 % 2 ^ 32 + q.len ∧
      ((s 0).konst 5 3 % 64 = 0 ∧ fmtMaxLen p.left.fmt.toNat < (s 63).konst 5 3 % 64) ∧
      (1 ≤ (s 1).konst 5 3 % 64 ∧ (s 1).konst 5 3 % 64 ≤ fmtMaxLen p.left.fmt.toNat ∧ (s 1).targets 5 1 0 0x42 ≠ []) := by decide
theorem witness_PackJoins :
    let p := pair (run 8 [1, 2]) (run 8 [3, 4])
    let bad (r : Token) : Bool := (run 8 [1]).fmt ≠ r.fmt || (run 8 [1]).scale ≠ r.scale || fmtMaxLen 8 < (run 8 [1]).len + r.len
    (onFabric 0 p).focus = .firing 5 p ∧ p.l.value.act ≠ .fault ∧ p.r.value.act ≠ .fault ∧ 0 < p.l.value.len ∧
      (∀ i < 2, p.l.value.has i = true ∧ p.r.value.has i = true) ∧ bad (run 8 [3]) = false ∧
      bad (run 9 [3]) = true ∧ bad { run 8 [3] with scale := 1 } = true ∧ bad (ones 8) = true := by decide +kernel

/-! ### Pools -/

theorem witness_TileStoreReadsBack : cellsWf [(3, 7)] = true ∧ (run 8 [0, 5]).has 1 = true ∧
    ¬ (8 + 1 * 4 ≤ 16 ∧ 16 < 8 + 1 * 4 + 4) := by decide
theorem witness_PoolInstructionsSend :
    let k := mkHandle 1 0 7 7 0
    let p := pair (run 11 [k, k]) (run 11 [5, 6])
    let s := onFabric (BitVec.ofNat 64 (k + 15)) p
    s.focus = .firing 5 p ∧ 0 < p.len ∧ p.len ≤ 32 ∧ Claims.Full p.left p ∧ Claims.Full p.right p ∧
      s.poolTile 5 (s.konst 5 3 % 2 ^ 32) = some (tileOf 7 7) ∧ s.poolTile 5 (p.left.elem 0 % 2 ^ 32) = some (tileOf 7 7) ∧
      (1 ≤ s.konst 5 3 % 256 ∧ s.konst 5 3 % 256 ≤ 15) ∧ p.right.fmt = (word 11).fmt := by decide

/-- A pool operation at the head of tile 5's local input port, with a pool of one slot in a state, and a grant beside it. -/
def serving (z : PSlot) (o : PoolOp) : State :=
  let op : PoolOp := { o with src := 6, ctx := 9, l := run 8 [1, 2], r := run 8 [3, 4] }
  { (((withRegion State.reset).setTile 5
      { status := .resident, block := some { pools := [{}] }, pools := [{ slots := [z] }], entries := [{ id := 4, use := .trigger }] })) |> atEvent 5 0 with
    net := [{ tok := op.l, dest := .tile 5, place := .input 5 0, vc := 0, cargo := .op op },
            { tok := op.l, dest := .tile 5, place := .input 5 0, vc := 1, cargo := .grant { trig := 4, handle := some 7, ctx := 9 } }] }
/-- The hypotheses of PoolOperationsServe with the slot in a state. -/
def serves (s : State) (st : SlotState) : Bool :=
  match s.nextOp 5 with
  | none => false
  | some (o, i) => match (s.tile 5).pools[hPool o.handle.toNat]? with
    | none => false
    | some x => match x.slots[hSlot o.handle.toNat]? with
      | none => false
      | some z => s.focus = .event 5 0 && (s.tile 5).opAt ≤ s.cycle && i = 0 && decide (Claims.SlotIn s 5 o x z st)
/-- An operation that a full wait list holds waits at its port, and the next port's is served. -/
theorem witness_PoolOperationsOrder :
    let s := (serving { st := .held, ownerCtx := 9 } { act := .alloc }).updTile 5 fun x =>
      { x with pools := x.pools.map fun y => { y with wait := List.replicate 64 {} } }
    let late : PoolOp := { act := .release, ctx := 9, handle := 0 }
    let t : State := { s with net := s.net ++ [{ tok := run 8 [1], dest := .tile 5, place := .input 5 1, vc := 0, cargo := .op late }] }
    ((t.opHead 5 0).map fun h => t.opHeld 5 h.2.1) = some true ∧ t.nextOp 5 = some (late, 2) := by decide
theorem witness_PoolOperationsServe :
    serves (serving { st := .held, ownerCtx := 9 } { act := .give 15 }) .held = true ∧
    serves (serving { st := .given, ownerCtx := 9, n := 2 } { act := .release }) .given = true ∧
    serves (serving { st := .held, ownerCtx := 9 } { act := .tst, offset := 48, fmt := 8 }) .held = true ∧ 48 + 2 * fmtBytes 8 ≤ 64 ∧
    serves (serving { st := .given, ownerCtx := 9 } { act := .tld, offset := 48, fmt := 8 }) .given = true ∧
    -- a stale handle: the slot's generation is 1
    (let s := serving { st := .given, ownerCtx := 9, gen := 1 } { act := .release }
     (s.nextOp 5).isSome = true ∧ ((s.tile 5).pools[0]?.bind fun x => x.slots[0]?.map fun z => decide (z.gen ≠ hGen 0)) = some true) := by decide
theorem witness_AllocationAndGrant :
    let s := serving {} { act := .alloc }
    s.focus = .event 5 0 ∧ (s.tile 5).opAt ≤ s.cycle ∧ ((s.nextOp 5).map fun h => (h.1.act, h.2)) = some (.alloc, 0) ∧ (s.tile 5).status = .resident ∧
      (s.regionAt 5).isSome = true ∧
      ((s.tile 5).pools[0]?.map fun x => (x.wait, x.slots.findIdx? fun z => z.st = .free)) = some ([], some 0) ∧ s.holdsRank 5 0 9 0 = false ∧
      ((s.headAt 5 0 1).map fun h => (h.1.cargo, h.2, decide (h.1.since ≤ s.cycle))) = some (.grant { trig := 4, handle := some 7, ctx := 9 }, 1, true) ∧
      (s.tile 5).belled 9 = false ∧ ((s.tile 5).entries.find? fun e => e.use = .trigger && e.id = 4).isSome = true := by decide
theorem witness_RecallAndDrop :
    let p := pair (run 8 [1, 2]) (run 8 [0])
    let s := onFabric 5 p
    let ids (z : State) := ((z.tile 5).drops.filter fun d =>
      d.poisoned.isNone && !d.purged && d.tok.ctx = p.ctx && d.tok.slot = 5 && d.tok.port = 0 && agrees (z.tagMask 5 5) d.tok.lo p.itag.toNat).map fun d => d.id
    s.focus = .firing 5 p ∧ 0 < p.len ∧ p.len ≤ 32 ∧ Claims.Full p.left p ∧ ids s = [] ∧
      ids (s.updTile 5 fun x => { x with drops := [{ id := 3, tok := { run 8 [1, 2] with slot := 5 } }] }) = [3] := by decide

/-! ### Fabric memory instructions, translation, replay -/

/-- A memory instruction's slot word. -/
def mword (f : Fmt) : MWord := { fmt := f, mod := 1, vsrc := 3, nt := 1, t0 := 0x42 }
theorem witness_MemoryGroupsIssue :
    ([.ld (mword 8), .st (mword 8), .atom (mword 8), .cas (mword 8), .reclaim (mword 11), .vwait (mword 11), .ldb (mword 10), .stb (mword 10)] :
      List Instr).all (fun i => match Claims.memory i with
        | none => false
        | some e =>
          let p := pair (run 30 [commons + 60, commons + 64, commons + 61]) (run (e.right.getD 11) [1, 2, 1])
          decide ((onFabric 0 p).focus = .firing 5 p ∧ 0 < p.len ∧ p.len ≤ 32 ∧ Claims.Full p.left p ∧ p.left.fmt = 30 ∧ Claims.Full p.right p) &&
          (e.right.isNone || e.right = some p.right.fmt)) = true := by decide
theorem witness_FenceIssues :
    let p := pair (run 30 [commons]) (run 8 [0])
    let q := pair (run 8 [1]) (run 8 [0])
    (onFabric 0 p).focus = .firing 5 p ∧ p.left.act ≠ .fault ∧ p.left.fmt = 30 ∧ (onFabric 0 q).focus = .firing 5 q ∧ q.left.act ≠ .fault ∧
      q.left.fmt ≠ 30 := by decide

/-- One issued group of a pairing at tile 5's port, at a block of the commons of cluster 0, with an access's mode. -/
def atPort (kind : MemKind) (op : AccessOp) (mode : VMode) : State :=
  let g : Group := { elems := [(0, commons)], block := 2 ^ 46, st := .issued, acc := { block := 2 ^ 46, op := op, mode := mode } }
  let m : MemPairing := { seq := 3, kind := kind, slot := 2, ctx := 9, fmt := 8, l := run 30 [commons], groups := [g] }
  atEvent 5 0 ((withRegion State.reset).setTile 5 { status := .resident, portSeq := 4, port := [m] })
/-- The hypotheses of HomeAccessPerforms, with a test of what the home answers. -/
def performs (s : State) (f : HomeResult → Bool) : Bool :=
  match (issuedGroups (s.tile 5).port)[0]? with
  | none => false
  | some (p, _, g) => s.focus = .event 5 0 && s.mayPerform 5 p g && s.waits = [] && f (s.homeAct g.acc)
theorem witness_HomeAccessPerforms :
    performs (atPort .ld .load .any) (fun r => match r with
      | .done _ _ => true
      | _ => false) = true ∧
    performs (atPort .ld .load (.ge 1)) (fun r => match r with
      | .wait => true
      | _ => false) = true ∧
    performs (atPort .st (.store [(0, 1)]) (.exp 0)) (fun r => match r with
      | .bad _ _ => true
      | _ => false) = true ∧
    (match (atPort .ld .load .any).spaceOf (64 * 2 ^ 46) with
      | .peer _ => false
      | _ => true) = true := by decide
/-- A group that fails at its home while its port waits for a walk at the same pairing. -/
theorem witness_HomeAccessPerforms_stopped :
    let s := (atPort .st (.store [(0, 1)]) (.exp 0)).updTile 5 fun x => { x with stall := .walk, stopped := 3 }
    performs s (fun r => match r with
      | .bad _ _ => true
      | _ => false) = true ∧ (s.tile 5).stall ≠ .none ∧
      ((s.tile 5).port.find? fun q => q.seq = (s.tile 5).stopped).map MemPairing.seq = some 3 := by decide
theorem no_entry (r : List (BitVec 16 × Option Nat × List Byte)) (h : r.length = Config.versionEntries) :
    ({ atPort .ld .load .any with blocks := [(100, { retained := r })] } : State).homeAct
      { block := 100, op := .store [(0, 1)], mode := .next, ret := true } = .noEntry := by
  generalize hs : ({ atPort .ld .load .any with blocks := [(100, { retained := r })] } : State) = s
  have hs6 : s.spaceOf 6400 = .dram 0 := by subst hs; rfl
  have hb : s.bufferOf 100 = some 0 := by subst hs; rfl
  have hm : s.homeMeta 100 = { retained := r } := by subst hs; rfl
  have hv : s.vbUsed 0 = r.length := by
    have e : s.blocks = [(100, { retained := r })] := by subst hs; rfl
    simp only [State.vbUsed, e, List.foldl_cons, List.foldl_nil, hb, if_true, Nat.zero_add]
  have hr : ¬ s.vbUsed 0 < Config.versionEntries := by omega
  simp [State.homeAct, State.homeStore, hb, hm, hs6, storeGate, Nat.not_lt.mp hr]
theorem witness_HomeAccessPerforms_entries : ∃ r : List (BitVec 16 × Option Nat × List Byte), r.length = Config.versionEntries :=
  ⟨List.replicate Config.versionEntries (0, none, []), List.length_replicate ..⟩
theorem witness_HomeAccessPerforms_records : ∀ b : Nat, (atPort .ld .load .any).recordWaited b = false := by
  intro b
  simp [State.recordWaited, atPort, atEvent, withRegion, dean, State.reset, State.setTile, State.setDean, State.setCtx, assocSet]
theorem witness_FabricStoreFrame :
    let s := atPort .st (.store [(63, 1), (0, 2)]) .next
    performs s (fun r => match r with
      | .done _ _ => true
      | _ => false) = true ∧ cellsWf s.mem = true ∧ (∀ x ∈ [(63, 1), (0, 2)], x.1 < 64) ∧
      (match s.spaceOf (64 * 2 ^ 46) with
        | .peer _ => false
        | _ => true) = true ∧
      (match exec (.homeAccess (.tilePort 5)) s with
        | .next _ => true
        | _ => false) = true := by decide

/-- A pairing at tile 5's port whose groups are in a state. -/
def answered (kind : MemKind) (gs : List GroupState) : State :=
  let g (n : Nat) (st : GroupState) : Group := { elems := [(n, commons + 64 * n)], st := st }
  let m : MemPairing :=
    { seq := 3, kind := kind, slot := 2, ctx := 9, fmt := 8, l := run 30 [commons, commons + 64], groups := gs.zipIdx.map fun x => g x.2 x.1 }
  atEvent 5 0 ((withRegion State.reset).setTile 5 { status := .resident, port := [m] })
theorem witness_MemoryResults :
    ([.ld, .atom, .cas, .st, .vwait, .reclaim] : List MemKind).all (fun kind =>
      let s := answered kind [.done, .done]
      s.focus = .event 5 0 && (match (s.tile 5).port[0]? with
        | none => false
        | some m => m.groups.all (fun g => g.st = .done) && decide (m.groups.map fun g => g.elems.map Prod.fst).flatten.Nodup && m.kind = kind)) = true ∧
    (let s := answered .fence []
     ((s.tile 5).port[0]?.map fun m => s.settledBefore (clusterOf 5) m.scope (s.tile 5).port m) = some true) ∧
    (let s := answered .ld [.done, .failed 5 2]
     ((s.tile 5).port[0]?.map fun m => (m.groups.map fun g => g.st, m.groups.map fun g => g.fault?, decide (m.kind ≠ .fence))) =
       some ([.done, .failed 5 2], [none, some (5, 2)], true)) ∧
    (let s := answered .st [.failed 0x0F 0x06]
     ((s.tile 5).port[0]?.map fun m => (m.groups.map fun g => g.st, decide (m.kind ≠ .fence))) = some ([.failed 0x0F 0x06], true)) := by decide
theorem witness_MemoryResults_blocks :
    (((answered .stb [.done]).tile 5).port[0]?.map fun m => (m.groups.all fun g => g.st = .done, decide (m.kind = .stb))) = some (true, true) ∧
    -- a block of F16 elements
    (let g : Group := { elems := [(0, commons)], st := .done, vals := (toBytes 64 2).zipIdx.map fun b => (b.2, b.1.setWidth 64) }
     let m : MemPairing := { kind := .ldb, slot := 2, ctx := 9, fmt := 2, l := run 30 [commons], groups := [g] }
     let s := atEvent 5 0 ((withRegion State.reset).setTile 5 { status := .resident, port := [m] })
     (s.tile 5).port[0]? = some m ∧
     (let b := ((m.groups.headD {}).vals).map fun v => v.2.setWidth 8
      let f := field b 0 1 % 32
      field b 0 1 / 32 = 0 ∧ f = 2 ∧ fmtPlanes f = 0 ∧ m.l.itag.toNat + ((blockCount f + fmtMaxLen f - 1) / fmtMaxLen f) * fmtMaxLen f ≤ 2 ^ 32)) := by
  decide +kernel

theorem witness_TranslationRights :
    let e : TEntry := { asid := 5, vpage := 1, pa := 0x20000, r := true }
    0x1FFFF < 2 ^ 56 ∧ inCommons 0x1FFFF = false ∧ inCode 0x1FFFF = false ∧ e.asid = 5 ∧ 0x1FFFF / 2 ^ e.shift = e.vpage ∧
      e.w = false ∧ e.x = false ∧ 2 ^ 56 ≤ 2 ^ 56 ∧
      -- each right missing alone
      (let full : TEntry := { e with w := true, x := true }
       ({ full with r := false } : TEntry).r = false ∧ ({ full with w := false } : TEntry).w = false ∧
         ({ full with priv := true } : TEntry).priv = true ∧ full.typed = false ∧ 0x1FFFF / 2 ^ full.shift = full.vpage) := by decide
/-- A walk of ASID 5, waiting or working. The tables stand in host memory, a next table at its start and a leaf after it. -/
def walking (valid : Bool) (misses walks : List Walk) : State :=
  dean (fun d => { d with asids := [(5, { valid := valid, root := 2 ^ 45 })] })
    { State.reset with misses := misses, walks := walks, mem := [(2 ^ 45, 1), (2 ^ 45 + 5, 0x20), (2 ^ 45 + 8, 7), (2 ^ 45 + 13, 0x20)] } |> atEvent 0 0
theorem witness_WalksTranslate :
    let w : Walk := { who := .tilePort 0, asid := 5, va := 2 ^ 39 }
    let a := walking true [w] []
    let b := walking true [] [{ w with va := 0, table := 2 ^ 45 }]
    let c := walking true [] [{ w with va := 2 ^ 21, level := 1, table := 2 ^ 45 }]
    a.focus = .event 0 0 ∧ a.misses.findIdx? (fun w => streamDomain w.who = 0) = some 0 ∧ a.misses[0]? = some w ∧
      (a.walks.filter fun w => streamDomain w.who = 0).length < 128 ∧ (assocGet {} a.dean.asids 5).valid = true ∧ (w.tenant = 0) ∧
      (assocGet {} (walking false [w] []).dean.asids 5).valid = false ∧
      (b.walks.zipIdx.filter fun x => streamDomain x.1.who = 0)[0]? = some ({ w with va := 0, table := 2 ^ 45 }, 0) ∧
      b.walkLevel 5 (b.actingTenant 0 5) 3 (2 ^ 45) 0 = .next (2 ^ 45) ∧
      (match c.walkLevel 5 (c.actingTenant 0 5) 1 (2 ^ 45) (2 ^ 21) with
        | .leaf e => e.r && !e.w
        | _ => false) = true := by decide
theorem witness_XinvWrites :
    let s := withRegs 5 0
    let m := s.updTask 0 0 fun t => { t with map := true }
    let open_ : State := (m.updCtx 9 fun x => { x with asid := 5 }).updTile 5 fun x => { x with port := [{ ctx := 9, groups := [{ st := .issued }] }] }
    Claims.Runs s 0 0 3 ∧ (s.task 0 0).map = false ∧ Claims.Runs m 0 0 3 ∧ (m.task 0 0).map = true ∧
      (((m.setTask 0 0 ((m.task 0 0).setReg 3 0)).invalidate 5).translatedOpen 5) = false ∧
      (((open_.setTask 0 0 ((open_.task 0 0).setReg 3 0)).invalidate 5).translatedOpen 5) = true := by decide
theorem witness_XinvInvalidates :
    let s := withTask fun t => { t with st := .blocked (.xinv 5) }
    s.xinvTasks (5 : BitVec 16).toNat ≠ [] ∧ s.translatedOpen (5 : BitVec 16).toNat = false ∧ (s.task 0 0).st = .blocked (.xinv 5) ∧
      (s.xinvTasks (5 : BitVec 16).toNat).count (0, 0) = 1 := by decide

/-- A record that tile 5's replay unit is at work on, with a recipe that passes its K. -/
def replaying (fmt : Fmt) : State :=
  let b : Block := { consts := [7], recipes := [[0x0140400000000000]] }
  atEvent 5 0 ((withRegion State.reset).setTile 5
    { status := .resident, replayQ := [3], rcur := some 3, drops := [{ id := 3, tok := run fmt [1, 2] }], block := some b })
theorem witness_ReplayReadmits :
    ([8, 11] : List Fmt).all (fun fmt =>
      let s := replaying fmt
      s.focus = .event 5 0 && (s.tile 5).rstall = .none && (s.tile 5).rfail = none && (s.tile 5).rrun = none && (s.ctx 9).st = .live &&
      (match (s.tile 5).replayHead with
        | none => false
        | some d => match s.replayOps 5 d (recipeWords ((s.blockOf 5).recipes.getD d.tok.crib.toNat [])) [] 0 with
          | .value s' (v, fl) =>
            let y := s'.addFlags d.tok.ctx fl
            let tok := { d.tok with data := (List.range d.tok.len).map fun i => BitVec.ofNat 64 ((v.lane i).getD 0) }
            (decide (v.fmt = d.tok.fmt ∧ v.scale = d.tok.scale) = decide (fmt = 8)) &&
            !(y.tile 5).belled d.tok.ctx && !d.purged && (y.tile 5).recalls = [] && (y.tile 5).rrun = none && !y.waitersBefore 5 y.cycle &&
            (match Tile.admission (Tile.readmission d tok y.cycle) (Config.matchEntries + 1) (y.tile 5) with
              | (_, e) => decide (e = some {}))
          | _ => false)) = true := by decide

/-! ### Engines -/

/-- A test that a result is there. -/
def fine {ε α : Type} (x : Except ε α) : Bool := match x with
  | .ok _ => true
  | .error _ => false

/-- A copy's descriptor of one 32-bit element from memory to memory (R188). -/
def copyDesc : List Byte := toBytes 16 0 ++ toBytes 8 (2 ^ 60 + 2 ^ 56 + 8 * 2 ^ 51 + 8 * 2 ^ 46) ++ toBytes 104 0

/-- A pairing at tile 5 with K3 a descriptor at the start of the commons of its cluster. -/
def engineFire (bs : List Byte) (p : Pairing) : State :=
  { onFabric (BitVec.ofNat 64 (commons + 2 ^ 19)) p with
    mem := (bs.zipIdx.filter fun b => b.1 ≠ 0).map fun b => (2 ^ 52 + 2 ^ 19 + b.2, b.1) }
theorem witness_StreamInstructions :
    let p := pair (run 11 [7]) (run 11 [0])
    let s := engineFire copyDesc p
    let z := s.hold 5 1
    let cmd (op : StreamOp) : StreamCmd := { op := op, src := .slot 5 2 p.left, ctx := 9 }
    let k := commons + 2 ^ 19
    clusterOf 5 = 1 ∧ s.focus = .firing 5 p ∧ 0 < p.len ∧ p.len ≤ 32 ∧ Claims.Full p.left p ∧ s.konst 5 3 = k ∧
      fine (z.openDesc 1 k (cmd .copy) false) = true ∧ fine (z.openDesc 1 k (cmd .gather) false) = true ∧
      fine (z.openDesc 1 k (cmd .scatter) false) = true ∧
      (match z.openDesc 1 k (cmd .copy) true with
        | .error _ => false
        | .ok (q, y) => q.ctx = p.ctx && q.src = .slot 5 2 p.left && !assocHas (y.cluster 1).streamer.templates q.d.tmpl &&
            assocGet Chan.none (y.cluster 1).streamer.chans q.d.chan = .none) = true ∧
      inOwnCommons 1 k = true ∧ k % 128 = 0 ∧
      (match z.readCommons 1 0 k 128 with
        | .error _ => false
        | .ok (bs, y) => (descOf bs).zeroOk && !assocHas (y.cluster 1).streamer.templates (descOf bs).tmpl) = true := by decide +kernel
theorem witness_StreamInstructions_agn :
    let p := pair (run 11 [15]) (run 11 [0])
    let s := (engineFire [] p).setStreamer 1 { agns := [(7, { stall := .resume })] }
    s.focus = .firing 5 p ∧ Claims.Full p.left p ∧ assocHas (s.cluster 1).streamer.agns (p.left.elem 0 % 8) = true ∧
      (assocGet ({} : Agn) (s.cluster 1).streamer.agns 7).stall = .resume ∧ (assocGet ({} : Agn) (s.cluster 1).streamer.agns 7).cmd.ctx ≠ p.ctx ∧
      assocHas (s.cluster 1).streamer.agns 0 = false := by decide
theorem witness_EngineInstructionsQueue :
    ([1, 65536, 0, 65537] : List Nat).all (fun h =>
      let p := pair (run 11 [h]) (run 11 [3])
      let s := onFabric 7 p
      decide (s.focus = .firing 5 p ∧ 0 < p.len ∧ p.len ≤ 32 ∧ Claims.Full p.left p ∧ Claims.Full p.right p ∧ (s.cluster 1).array.queue = [] ∧
        (s.cluster 1).array.gives = [] ∧ p.left.fmt = 11 ∧ (1 ≤ h ∧ h ≤ 65536 ∨ p.left.fmt ≠ 11 ∨ h = 0 ∨ 65536 < h))) = true := by decide
/-- AUCSET of EPS, of a code that is read only, and of EPS in a wrong format. -/
theorem witness_EngineInstructionsQueue_aucset :
    ([(1, 0, true), (1, 2, false), (11, 0, false)] : List (Fmt × Nat × Bool)).all (fun x =>
      let p := pair (run x.1 [0x3F800000]) (run 11 [0])
      let s := onFabric (BitVec.ofNat 64 x.2.1) p
      let k := s.konst 5 3
      decide (s.focus = .firing 5 p) && decide (Claims.Full p.left p) && decide ((decide (p.left.fmt = (if k % 8 = 0 ∨ k % 8 = 1 ∨ k % 8 = 4 then 1 else 11)) &&
        ((s.cluster 1).registrar.write (k % 8) (p.left.elem 0)).isSome) = x.2.2)) = true := by decide +kernel

/-- A run at the head of tile 5's converter queue, with K3. -/
def converting (op : Nat) (f : Fmt) (k : Word) (l : Token) : State :=
  atEvent 5 0 ((onFabric k (pair l l)).updTile 5 fun x => { x with convQ := [{ op := op, w := { fmt := f, kidx := 3 }, slot := 2, ctx := 9, l := l }] })
/-- The hypotheses of every clause of ConverterResults but its own. -/
def converts (s : State) : Bool :=
  match (s.tile 5).convQ with
  | [] => false
  | q :: _ => s.focus = .event 5 0 && q.l.act = .normal && decide (0 < q.l.len) && decide (q.l.len ≤ 32) && (List.range q.l.len).all q.l.has
theorem witness_ConverterResults :
    -- CVT of I8 to F32 at scale 0, at L's and at SCALEMX's, to a plane format, and of N32 to B32
    (converts (converting 0xB0 1 0 (run 10 [1, 255])) = true ∧ (fmtFloat 10 || fmtInt 10) = true ∧
      (fmtFloat 1 || fmtInt 1 || fmtPlanes 1 ≠ 0) = true ∧ fmtPlanes 16 ≠ 0 ∧
      (bits ((converting 0xB0 1 0 (run 10 [1])).konst 5 3) 9 8 = 0 ∧ sval 8 ((converting 0xB0 1 0 (run 10 [1])).konst 5 3) = 0) ∧
      bits ((converting 0xB0 1 0x100 (run 10 [1])).konst 5 3) 9 8 = 1 ∧ bits ((converting 0xB0 1 0x2FF (run 10 [1])).konst 5 3) 9 8 = 2 ∧
      converts (converting 0xB0 31 0x100 (run 11 [1])) = true ∧ ((run 11 [1]).fmt.toNat, (31 : Fmt).toNat) = (11, 31)) ∧
    -- SCALEMX of I8 for P4
    (converts (converting 0xB4 16 0 (run 10 [5, 0x80])) = true ∧ fmtInt 10 = true ∧ (fmtFloat 16 || fmtInt 16 || fmtPlanes 16 ≠ 0) = true) ∧
    -- QPLANE of the greatest and the least number of P4
    (let l := run 10 [7, 0xF8]
     converts (converting 0xB2 16 0 l) = true ∧ l.fmt = (if fmtPlaneSigned 16 then 10 else 13) ∧
       ∀ i < 2, (planeRange 16).1 ≤ (if fmtPlaneSigned 16 then sval 8 (l.elem i) else l.elem i) ∧
         (if fmtPlaneSigned 16 then sval 8 (l.elem i) else (l.elem i : Int)) ≤ (planeRange 16).2) ∧
    -- QUNPL of four and of two planes of 32 elements, of no element, and of too few planes and too many
    (let l := run 11 [1, 2, 3, 4, 0xFFFFFFFF]
     converts (converting 0xB3 16 32 l) = true ∧ l.len = fmtPlanes 16 + 1 ∧ 1 ≤ 32 % 64 ∧ 32 % 64 ≤ 32 ∧ l.elem (fmtPlanes 16) % 2 ^ (32 % 64) ≠ 0 ∧
       l.itag.toNat + 32 % 64 ≤ 2 ^ 32 ∧ l.scale.toInt + (fmtPlanes 16 - 4 : Nat) ≤ 127) ∧
    (let l := run 11 [1, 2, 3]
     converts (converting 0xB3 16 32 l) = true ∧ l.len = 2 + 1 ∧ 2 ≤ fmtPlanes 16 ∧ l.elem 2 % 2 ^ (32 % 64) ≠ 0 ∧
       l.scale.toInt + (fmtPlanes 16 - 2 : Nat) ≤ 127) ∧
    (let l := run 11 [1, 2, 0]
     converts (converting 0xB3 16 32 l) = true ∧ l.elem 2 % 2 ^ (32 % 64) = 0) ∧
    (converts (converting 0xB3 16 32 (run 11 [1, 2])) = true ∧ (run 11 [1, 2]).len < 3 ∧
      converts (converting 0xB3 16 32 (run 11 [1, 2, 3, 4, 5, 6])) = true ∧ fmtPlanes 16 + 1 < (run 11 [1, 2, 3, 4, 5, 6]).len) ∧
    -- QPLANE and QUNPL past the last tag
    (let l := { run 10 [7, 0xF8] with itag := 0xFFFFFFFC }
     converts (converting 0xB2 16 0 l) = true ∧ 2 ^ 32 < l.itag.toNat + (fmtPlanes 16 + 1)) ∧
    (let l := { run 11 [1, 2, 3, 4, 5] with itag := 0xFFFFFFE1 }
     converts (converting 0xB3 16 32 l) = true ∧ 2 ^ 32 < l.itag.toNat + 32 % 64) ∧
    -- REBLK of a whole output run
    (let l := { run 8 [1, 2] with itag := 0xFFFFFFFE }
     converts (converting 0xB1 8 2 l) = true ∧ 2 % 64 = l.len ∧ 0xFFFFFFFE % 2 = 0 ∧ l.itag.toNat = 0xFFFFFFFE + ([] : List Nat).length ∧
       l.itag.toNat + l.len ≤ 2 ^ 32 ∧ l.ctx = 9 ∧ ((converting 0xB1 8 2 l).tile 5).rebufs = []) := by decide +kernel
/-- REBLK of a run of two elements that begins after the one element held of an output run of two, and of three. -/
theorem witness_ConverterResults_reblk : ∀ n ∈ [2, 3],
    let l := { run 8 [1, 2] with itag := BitVec.ofNat 32 (n + 1) }
    let b : ReBuf := { ctx := 9, slot := 2, base := n, typed := true, fmt := 8, scale := 0, covered := 1, present := 1, data := [(0, 7)] }
    let s := (converting 0xB1 8 (BitVec.ofNat 64 n) l).updTile 5 fun x => { x with rebufs := [b] }
    converts s = true ∧ s.konst 5 3 % 64 = n ∧ n % n = 0 ∧ l.itag.toNat = n + [7].length ∧ l.len ≤ n ∧
      Claims.Blocked (s.tile 5) 9 2 n l.fmt l.scale [7] := by
  intro n hn
  have e : n = 2 ∨ n = 3 := by simpa using hn
  obtain rfl | rfl := e <;> refine ⟨by decide +kernel, by decide, by decide, by decide, by decide, ?_⟩ <;>
    exact ⟨_, rfl, rfl, rfl, rfl, rfl, rfl, rfl, rfl, rfl, rfl, by decide, by decide⟩

/-- Cluster 1's streamer, with a token for its channel 3 in the network. -/
def streaming (st : Streamer) (tok : Token) : State :=
  atEvent 1 3 { (withRegion State.reset).setStreamer 1 st with net := [{ tok := tok, dest := .trig 1 3 }] }
/-- A memory to memory copy of one element, with its AGN done. -/
def oneCopy : StreamCmd := { ctx := 9, d := { skind := 1, dkind := 1, sfmt := 8, dfmt := 8 } }
theorem witness_StreamEvents :
    (let s := streaming { queue := [oneCopy], agns := [(0, {})] } (run 11 [0])
     s.focus = .event 1 3 ∧ (s.cluster 1).streamer.queue = [oneCopy] ∧
       ((List.range 8).find? fun n => !assocHas (s.cluster 1).streamer.agns n) = some 1 ∧ oneCopy.d.gate = false ∧ oneCopy.d.xform = false) ∧
    (let g : Agn := { cmd := oneCopy, total := 1, fetched := 1, cursor := 1 }
     let s := streaming { agns := [(3, g)] } (run 11 [0])
     assocGet ({} : Agn) (s.cluster 1).streamer.agns 3 = g ∧ assocHas (s.cluster 1).streamer.agns 3 = true ∧ g.stall = .none ∧ g.finished = true ∧
       g.failed = none ∧ g.cmd.follow = false) ∧
    (let s := streaming {} (run 11 [0])
     (s.unitHead (.trig 1 3)).isSome = true ∧ (run 11 [0]).act = .normal ∧ assocGet Chan.none (s.cluster 1).streamer.chans 3 = .none) ∧
    (let tok := run 8 [1, 2, 3, 4]
     let x : Template := { cmd := oneCopy, chan := 3 }
     let s := streaming { templates := [(2, x)], chans := [(3, .template 2)] } tok
     ((s.unitHead (.trig 1 3)).map fun h => h.1.tok) = some tok ∧ assocGet Chan.none (s.cluster 1).streamer.chans 3 = .template 2 ∧
       assocGet ({} : Template) (s.cluster 1).streamer.templates 2 = x ∧ x.cmd.ctx = tok.ctx ∧ x.unbind = [] ∧
       (s.cluster 1).streamer.queue.length < 16 ∧ tok.fmt = 8 ∧ tok.len = 4 ∧ tok.mask = 15 ∧ x.cmd.d.dkind ≠ 4) ∧
    (let tok : Token := { run 8 [1] with act := .empty }
     let g : Agn := { cmd := oneCopy, total := 8 }
     let s := streaming { agns := [(4, g)], chans := [(3, .xform 4)] } tok
     ((s.unitHead (.trig 1 3)).map fun h => h.1.tok) = some tok ∧ assocGet Chan.none (s.cluster 1).streamer.chans 3 = .xform 4 ∧
       assocGet ({} : Agn) (s.cluster 1).streamer.agns 4 = g ∧ tok.ctx = g.cmd.ctx ∧ g.failed = none ∧ g.wleft = []) := by decide
/-- A template to the fabric that a token of a 2^24 shift fires, and NORMAL runs that come back to be stored and by handle. -/
theorem witness_StreamEvents_fabric :
    (let tok := run 8 [1, 0, 3, 4]
     let x : Template := { cmd := { oneCopy with d := { oneCopy.d with dkind := 4 } }, chan := 3 }
     let s := streaming { templates := [(2, x)], chans := [(3, .template 2)] } tok
     ((s.unitHead (.trig 1 3)).map fun h => h.1.tok) = some tok ∧ assocGet Chan.none (s.cluster 1).streamer.chans 3 = .template 2 ∧
       assocGet ({} : Template) (s.cluster 1).streamer.templates 2 = x ∧ x.cmd.d.dkind = 4 ∧ tok.act = .normal ∧ (s.ctx 9).st ≠ .frozen) ∧
    ([1, 3] : List Nat).all (fun kind =>
      let g : Agn := { cmd := { oneCopy with d := { oneCopy.d with dkind := kind } }, total := 8 }
      let tok := run 8 [1]
      let s := streaming { agns := [(4, g)], chans := [(3, .xform 4)] } tok
      ((s.unitHead (.trig 1 3)).map fun h => h.1.tok) = some tok && tok.act = .normal && tok.fmt.toNat = g.cmd.d.dfmt && tok.ctx = g.cmd.ctx) = true := by
  decide

/-- The handle of accumulator 3 of cluster 1, in the region of context 9, and a descriptor of a 1 by 1 by 1 product of I8 into it. -/
def accHandle : Nat := mkHandle 0 7 7 3 3
def mmaDesc (g : Nat) : List Byte :=
  toBytes 8 (commons + 2 ^ 19 + 128) ++ toBytes 8 (2 ^ 56 + 10 * 2 ^ 40) ++ toBytes 8 (2 ^ 32 * 64 + accHandle) ++ toBytes 8 g
/-- Cluster 1's array with one command, and its pool's last slot HELD by context 9. -/
def matrix (q : ArrayCmd) : State :=
  let q := { q with ctx := 9, handle := BitVec.ofNat 32 accHandle, desc := commons + 2 ^ 19, itag := 0xFFFFFFFF }
  let pool : Pool := { size := 8192, slots := [{}, {}, {}, { st := .held, ownerCtx := 9 }] }
  let s := (engineFire (mmaDesc 0) (pair (run 8 [1]) (run 8 [1]))).updTile 23 fun x => { x with status := .resident }
  atEvent 1 0 ((s.setArray 1 { queue := [q], pool := pool }).updTile (tileIn 1 15) fun x => { x with status := .resident, block := some {} })
/-- The command of cluster 1. -/
def head (s : State) : ArrayCmd := (s.cluster 1).array.queue.headD {}
theorem witness_MatrixEvents_start :
    (let s := matrix { op := .accz }
     s.focus = .event 1 0 ∧ (head s).started = false ∧ s.mayStart 1 0 (head s) = true ∧ s.accCheck 1 accHandle 9 true = none ∧
       s.accCheck 1 accHandle 9 false = none) ∧
    (let s := matrix { op := .mma, fmt := 10 }
     s.mayStart 1 0 (head s) = true ∧ (match s.readCommons 1 0 (commons + 2 ^ 19) 32 with
       | .error _ => false
       | .ok (bs, y) => fine (y.checkMma 1 (head s) bs)) = true) := by decide +kernel
theorem witness_MatrixEvents_row :
    let s := matrix { op := .mmac, fmt := 10 }
    ((s.headMmac 1).map fun x => x.1) = some 0 ∧ (match s.readCommons 1 0 (commons + 2 ^ 19) 32 with
      | .error _ => false
      | .ok (bs, _) =>
        let d := mdescOf bs
        decide (d.gx ≤ 1 % 32 ∧ d.gy ≤ 1 / 32 ∧ d.gx < d.gw ∧ d.gy < d.gh) &&
        ((List.range d.gw).all fun i => (List.range d.gh).all fun j => s.memberOk 9 (1 - d.gx + i) (0 - d.gy + j)) &&
        (match s.rowMembers 9 0 (1 - d.gx) d.gw with
          | none => false
          | some ms => (s.openRow ms).2.2 && ((s.openRow ms).1.zipIdx.all fun m => rowAgrees ((s.openRow ms).1.headD (0, 0, {})).2.2 m.1.2.2 m.2) &&
            ((s.openRow ms).1.all fun m => (s.openRow ms).2.1.discord m = []))) =
      true := by decide +kernel
theorem witness_MatrixEvents_complete :
    (let s := matrix { op := .accz, started := true }
     (s.cluster 1).array.queue[0]? = some (head s) ∧ (head s).started = true) ∧
    (let s := matrix { op := .accwr, fmt := 1, started := true, l := run 1 [5, 6] }
     (head s).fmt = (head s).l.fmt.toNat ∧ kindOf (head s).fmt = .f32 ∧ ((s.cluster 1).array.acc accHandle).kind = .f32 ∧ (head s).l.len ≤ 64 ∧
       (head s).l.has 1 = true ∧ ((head s).itag.toNat + 1) / 64 % 32 = 0) ∧
    (let d : MDesc := { mdescOf (mmaDesc 0) with bfmt := 0 }
     let s := matrix { op := .mma, fmt := 0, started := true, d := d }
     (head s).started = true ∧ (head s).passed = none ∧ (match s.readRows 1 0 (head s).fmt (planesRead (fmtPlanes (head s).fmt) d.apl) d d.m 0 with
       | ((rows, none), z) => (match z.sum 1 (head s).fmt 9 d rows with
         | .ok _ _ => true
         | _ => false)
       | _ => false) = true) ∧
    -- an MMAC with its rows of A
    (let d : MDesc := { mdescOf (mmaDesc 0) with bfmt := 0 }
     let s := matrix { op := .mmac, fmt := 0, started := true, d := d, passed := some ([[List.replicate 64 0]], none) }
     (head s).started = true ∧ (head s).passed = some ([[List.replicate 64 0]], none) ∧ (match s.sum 1 (head s).fmt 9 d [[List.replicate 64 0]] with
       | .ok _ _ => true
       | _ => false) = true) := by decide +kernel
/-- Products of finite numbers, and of a zero and an infinity. -/
theorem witness_MatrixSums :
    Claims.Finite (floatVal f32 0x3F800000 0 0) ∧ Claims.Finite (.fin true 3 (-2)) ∧
    ∃ p ∈ [((.inf true : Val), (.fin false 0 0 : Val))], p.1.isNan = true ∨ p.2.isNan = true ∨
      ∃ n k e, (p.1 = .inf n ∧ p.2 = .fin k 0 e) ∨ (p.1 = .fin k 0 e ∧ p.2 = .inf n) :=
  ⟨⟨_, _, _, rfl⟩, ⟨_, _, _, rfl⟩, _, List.mem_singleton.2 rfl, .inr (.inr ⟨true, false, 0, .inl ⟨rfl, rfl⟩⟩)⟩

/-- Cluster 1's Registrar. -/
def assigning (r : Registrar) : State := atEvent 1 0 ((withRegion State.reset).setRegistrar 1 r)
theorem witness_AuctionEvents :
    (let q : RegCmd := { op := .aucget, src := .slot 5 2 (run 11 [0]), ctx := 9 }
     let s := assigning { queue := [q] }
     s.focus = .event 1 0 ∧ (s.cluster 1).registrar.queue.findIdx? (s.cluster 1).registrar.servable = some 0 ∧
       (s.cluster 1).registrar.queue[0]? = some q ∧ (s.cluster 1).registrar.auction = none ∧ (s.cluster 1).registrar.owner = none) ∧
    (let q : RegCmd := { op := .aucstop, src := .slot 5 2 (run 11 [0]), ctx := 9 }
     let s := assigning { queue := [q], owner := some 8 }
     (s.cluster 1).registrar.queue.findIdx? (s.cluster 1).registrar.servable = some 0 ∧ (s.cluster 1).registrar.owner ≠ some q.ctx) := by decide
/-- A problem of one row and one column in the commons of cluster 1 (R251). -/
def auctionDesc : List Byte :=
  let k := commons + 2 ^ 19
  toBytes 8 (k + 128) ++ toBytes 8 (k + 192) ++ toBytes 8 0 ++ toBytes 8 (k + 64) ++ toBytes 8 (k + 256) ++ toBytes 8 (2 ^ 32 + 2 ^ 24) ++
    toBytes 16 0 ++ [1]
/-- A command first in the queue of cluster 1's Registrar. -/
def asked (r : Registrar) (q : RegCmd) : State :=
  let q := { q with src := .slot 5 2 (run 1 [0x3F800000]), ctx := 9, code := 0, value := 0x3F800000 }
  atEvent 1 0 ((engineFire auctionDesc (pair (run 11 [0]) (run 11 [0]))).setRegistrar 1 { r with queue := [q] })
/-- Whether the command is the one served. -/
def served (s : State) : Bool :=
  (s.cluster 1).registrar.queue.findIdx? (s.cluster 1).registrar.servable = some 0 && s.focus = .event 1 0
/-- Whether the problem that the command names can be opened. -/
def opens (s : State) : Bool :=
  let r := (s.cluster 1).registrar
  fine (((s.setRegistrar 1 { r with queue := [] }).wake 1 .engine).openAuction 1 (r.queue.headD {}))
theorem witness_AuctionEvents_serve :
    let k := commons + 2 ^ 19
    let paused : Registrar := { state := .paused, owner := some 9, auction := some { nrow := 1 } }
    -- AUCGO and AUCSTEP with a problem that opens and with one that does not
    ([RegOp.aucgo, .aucstep].all fun op => served (asked {} { op := op, desc := k }) && opens (asked {} { op := op, desc := k }) &&
      served (asked {} { op := op, desc := k + 1 }) && !opens (asked {} { op := op, desc := k + 1 })) = true ∧
    -- an AUCSTEP and an AUCSTOP of the owner, paused and running; AUCSET; AUCGET with tags to the last one and past it
    served (asked paused { op := .aucstep }) = true ∧ served (asked paused { op := .aucstop }) = true ∧
    served (asked { paused with state := .running } { op := .aucstop }) = true ∧
    served (asked paused { op := .aucset }) = true ∧ (paused.write 0 0x3F800000).isSome = true ∧ (run 1 [0x3F800000]).fmt = 1 ∧
    served (asked paused { op := .aucget }) = true ∧ (0xFFFFFFF8 : Nat) + 8 ≤ 2 ^ 32 ∧ 2 ^ 32 < (0xFFFFFFF9 : Nat) + 8 := by decide +kernel
/-- Two rows that want one column of capacity 1. -/
def contest : Auction :=
  { nrow := 2, ncol := 1, scores := [[0x40000000], [0x3F800000]], caps := [1], mask := 3, prices := [0], assign := [none, none], bids := [0, 0] }
theorem witness_AuctionEvents_round :
    let s := assigning { state := .running, owner := some 9, auction := some contest }
    let r := (s.cluster 1).registrar
    r.state = .running ∧ r.auction = some contest ∧ (r.endChecks (contest.round r.eps.toNat)).2.2 = none ∧ r.stops = [] ∧
      (r.endChecks (contest.round r.eps.toNat)).2.1.steps ≠ some (r.endChecks (contest.round r.eps.toNat)).2.1.cmdRounds := by decide +kernel
/-- Ends of a problem: LIMIT, an AUCSTOP and the end of an AUCSTEP, and the results stored; DONE, CEILING, LIMIT and none of the end checks. -/
theorem witness_AuctionEnds :
    (let a := { contest with oaddr := commons + 2 ^ 19 }
     let at_ (r : Registrar) (a : Auction) : State := assigning { r with state := .running, owner := some 9, auction := some a }
     let ends (r : Registrar) (a : Auction) := r.endChecks (a.round r.eps.toNat)
     (ends { roundMax := 1 } a).2.2 = some .limit ∧ (ends { stops := [{}] } a).2.2 = none ∧
     (ends {} { a with steps := some 1 }).2.2 = none ∧ (ends {} { a with steps := some 1 }).2.1.steps = some (ends {} { a with steps := some 1 }).2.1.cmdRounds ∧
     (let s := at_ { roundMax := 1 } a
      let r := (s.cluster 1).registrar
      let e := r.endChecks (a.round r.eps.toNat)
      let y := s.setRegistrar 1 { e.1 with auction := some e.2.1, state := .limit, owner := none, stops := [] }
      ((y.storeBytes 0 (commonsBase 1 + bits a.oaddr 18 0) 23 (Claims.auctionResults .limit e.1.eps e.2.1)).isSome)) = true) ∧
    (({ contest with mask := 0 } : Auction).bidders = [] ∧ ({ epsDiv := 1 } : Registrar).epsDiv.toNat ≤ 1) ∧
    (contest.bidders ≠ [] ∧ f32Lt ({ priceMax := 0xBF800000 } : Registrar).priceMax.toNat (contest.price 0) = true ∧
      f32Lt ({ priceMax := 0x3F800000 } : Registrar).priceMax.toNat (contest.price 0) = false) := by decide +kernel
theorem witness_GateScoresAVector :
    let g : Agn := { cmd := { ctx := 9, d := { gate := true, skind := 1, dkind := 1, sfmt := 1, dfmt := 1, cnt0 := 2, cnt1 := 2 } },
                     fetched := 2, buf := [{ val := some 0x3F800000 }, { val := some 0 }] }
    let s (n : Nat) := atEvent 1 3 (((withRegion State.reset).setStreamer 8 { agns := [(0, g)] }).setDomain 1 { gate := some (n, 1, 2), gateQ := [(8, 0)] })
    domainOf 8 = 1 ∧ (∀ n ∈ [0, 5], (s n).focus = .event 1 3 ∧ ((s n).domain 1).gateQ = [(8, 0)] ∧ ((s n).domain 1).gate = some (n, 1, 2) ∧
      assocGet ({} : Agn) ((s n).cluster 8).streamer.agns 0 = g) ∧ g.vectorReady = true ∧ g.wleft = [] ∧ g.failed = none ∧
      g.cmd.tenant = 0 ∧ g.cmd.tenant ≠ 5 ∧ g.cmd.d.cnt0 = 2 ∧ (g.fetched - 1) / 2 + 1 < g.cmd.gateTokens := by decide

/-! ### Debug, the Dean's engine, the fabric's events -/

theorem witness_DebugInstructions :
    let p := pair (run 8 [1, 2]) (run 8 [0])
    let s := onFabric 34 p
    let z := (s.hold 5 1).emit 5 2 9 64 (toAll (s.targets 5 1 0 0x42) p.left)
    s.focus = .firing 5 p ∧ 0 < p.len ∧ p.len ≤ 32 ∧ Claims.Full p.left p ∧ s.konst 5 3 % 32 = 2 ∧ (z.ctx 9).bell = none ∧
      (((s.updCtx 9 fun c => { c with bell := some 0 }).hold 5 1).ctx 9).bell ≠ none := by decide

/-- A privileged firing on L, with host bytes at the start of cluster 0's commons and a queue 3. -/
def privileged (bs : List Byte) (l : Token) : State :=
  dean (fun d => { d with queues := [(3, { rcd := { tenant := 5, weight := 1 } })] }) (holding bs (onFabric 0 (pair l l)))
theorem witness_PrivilegedInstructions_contexts :
    (let l := run 11 [3, 7]
     let s := privileged [] l
     Claims.Full l (pair l l) ∧ (pair l l).len = 2 ∧ l.fmt = 11 ∧ s.dean.newWaits = [] ∧ l.elem 0 < 1024 ∧ (s.queue 3).rcd.weight ≠ 0 ∧
       s.regionOf 7 ≠ none ∧ (s.regionOf 7).map s.shut = some false ∧ s.freeTag = some 0) ∧
    (let l := run 11 [4095]
     let s := (privileged [] l).setCtx 4095 { st := .retiring, reclaimed := true }
     Claims.Full l (pair l l) ∧ l.elem 0 < 4096 ∧ (s.ctx 4095).st = .retiring ∧ (s.ctx 4095).reclaimed = true) ∧
    (let l := run 11 [9]
     let s := privileged [] l
     Claims.Full l (pair l l) ∧ (s.ctx 9).st = .live ∧ (s.ctx 9).bell = none) ∧
    (let l := run 11 [0x7FFF3F7F, 0xFFFF, 0xFFF, 0]
     Claims.Full l (pair l l) ∧ l.elem 0 &&& 0x7FFF3F7F = l.elem 0 ∧ l.elem 1 < 2 ^ 16 ∧ l.elem 2 < 2 ^ 12 ∧ l.elem 3 = 0) := by decide +kernel
theorem witness_PrivilegedInstructions_inject :
    let l := run 30 [commons]
    let s := privileged image l
    Claims.Full l (pair l l) ∧ (pair l l).len = 1 ∧ commons % 16 = 0 ∧ s.predecessorsDone 5 (s.tile 5).portSeq 9 = true ∧
      (match (s.hold 5 1).deanRead 0 0 false commons 16 with
        | .error _ => false
        | .ok (h, _) => match (s.hold 5 1).deanRead 0 0 false commons (imageBytes (field h 0 8)) with
          | .error _ => false
          | .ok (bs, y) => (tokenOfImage bs).map (fun t => (y.ctx t.ctx).st) = some .live) = true := by decide
theorem witness_PrivilegedInstructions_place :
    let l := run 30 [commons, 0x701FF]
    let s := privileged header l
    let busy := dean (fun d => { d with sessions := [{ cluster := 511, task := 7 }] }) s
    Claims.Full l (pair l l) ∧ (pair l l).len = 2 ∧ l.elem 1 &&& 0x701FF = l.elem 1 ∧ s.session (l.elem 1 % 512) (bits (l.elem 1) 18 16) = none ∧
      busy.session (l.elem 1 % 512) (bits (l.elem 1) 18 16) ≠ none ∧ fine ((s.hold 5 1).deanRead 0 0 false commons hdrBytes) = true := by decide
theorem witness_PrivilegedInstructions_meter :
    let l := run 30 [0x10FFF, commons]
    let s := privileged [] l
    Claims.Full l (pair l l) ∧ l.elem 0 < 2 ^ 18 ∧ bits (l.elem 0) 17 16 < 2 ∧ bits (l.elem 0) 15 12 = 0 ∧ commons % 64 = 0 ∧ s.predecessorsDone 5 (s.tile 5).portSeq 9 = true ∧
      fine ((s.hold 5 1).deanRead 0 0 false (commons + 0x80) 32) = true ∧
      fine ((s.hold 5 1).deanWrite 0 0 false commons (List.replicate 256 0)) = true := by decide +kernel
/-- A wrapped key record of tenant 5 with the checksum that it asks for (R342). -/
def wrapped (devKey : Nat) : List Byte :=
  let h : List Byte := toBytes 48 5
  h ++ (digestBytes (sm3 (h ++ digestBytes (Config.unwrapKeys devKey (slice h 0x10 32))))).take 16
theorem slice_left (a x : List Byte) (off n : Nat) (h : off + n ≤ a.length) : slice (a ++ x) off n = slice a off n := by
  unfold slice
  rw [List.drop_append_of_le_length (by omega), List.take_append_of_le_length (by simp; omega)]
theorem slice_right (a x : List Byte) (m n : Nat) (hm : a.length = m) (hn : x.length = n) : slice (a ++ x) m n = x := by
  subst hm hn
  simp [slice]
theorem witness_keyRecord (s : State) : ∃ k, s.unwrap 5 (wrapped s.dean.devKey) = some k := by
  have hl : (toBytes 48 5).length = 48 := rfl
  have hd (d : BitVec 256) : ((digestBytes d).take 16).length = 16 := rfl
  have h1 (x : List Byte) : field (toBytes 48 5 ++ x) 0 2 = 5 := by rw [field, slice_left _ _ _ _ (by decide)]; decide
  have h2 (x : List Byte) : field (toBytes 48 5 ++ x) 2 14 = 0 := by rw [field, slice_left _ _ _ _ (by decide)]; decide
  have h3 (x : List Byte) : slice (toBytes 48 5 ++ x) 0x10 32 = slice (toBytes 48 5) 0x10 32 := slice_left _ _ _ _ (by decide)
  have h4 (x : List Byte) : slice (toBytes 48 5 ++ x) 0 0x30 = toBytes 48 5 := by rw [slice_left _ _ _ _ (by decide)]; decide
  exact ⟨_, by
    simp only [State.unwrap, wrapped, h1, h2, h3, h4, slice_right _ _ 0x30 16 hl (hd _), decide_true, Bool.and_self, if_true]
    rfl⟩
theorem witness_PrivilegedInstructions_key :
    let l := run 30 [2 ^ 24 + 255, commons]
    let m := run 30 [255 + 256 * 5, commons]
    let s := privileged (toBytes 2 5) l
    Claims.Full l (pair l l) ∧ (pair l l).len = 2 ∧ 2 ^ 24 ≤ l.elem 0 ∧ l.elem 0 < 2 ^ 25 ∧ bits (l.elem 0) 23 20 = 0 ∧ s.keyIdle (bits (l.elem 0) 23 8) = true ∧
      m.elem 0 < 2 ^ 24 ∧ bits (m.elem 0) 23 20 = 0 ∧ bits (m.elem 0) 23 8 = 5 ∧ fine ((s.hold 5 1).deanRead 0 0 false commons 64) = true ∧
      ∀ q ∈ s.dean.keys, q.2.tenant = 5 → q.1 = m.elem 0 % 256 := by decide
theorem witness_EraserCompletes :
    let s := atEvent 5 1 (dean (fun d => { d with scrubs := [{}, { src := some (5, pair (run 11 [0]) (run 11 [0]), 1) }] }) State.reset)
    s.focus = .event 5 1 ∧ (s.dean.scrubs[1]?.map fun x => x.src.isSome) = some true ∧ (s.dean.scrubs[0]?.map fun x => x.src.isNone) = some true := by
  decide

/-- A token at the head of tile 5's local input port. -/
def arriving (tok : Token) (s : State) : State := atEvent 5 0 { s with net := [{ tok := tok, dest := .tile 5, place := .input 5 0 }] }
theorem witness_TokenArrival :
    (let s := arriving { run 8 [1] with ctx := 8 } (onFabric 0 (pair (run 8 [0]) (run 8 [0])))
     s.focus = .event 5 0 ∧ ((s.inputHead 5 0).map fun h => h.1.stalled) = some false ∧ (s.tile 5).belled 8 = false ∧ (s.ctx 8).st ≠ .live ∧
       (s.ctx 8).st ≠ .frozen ∧ (s.tile 5).savedFor 8 = false ∧
       ((s.inputHead 5 0).map fun h => (s.doorBefore 5 h.1, s.replayBefore 5 h.1)) = some (false, false)) ∧
    (let s := arriving { act := .purge, ctx := 9, slot := 2 } (onFabric 0 (pair (run 8 [0]) (run 8 [0])))
     ((s.inputHead 5 0).map fun h => h.1.tok.act) = some .purge ∧ (s.tile 5).belled 9 = false ∧ (s.ctx 9).st = .live ∧ (s.slotInfo 5 2).op ≠ 0x0F) ∧
    (let s := arriving { run 8 [1] with slot := 2 } (onFabric 0 (pair (run 8 [0]) (run 8 [0])))
     ((s.inputHead 5 0).map fun h => match ({ s with net := [] } : State).arrive 5 h.1 with
       | .taken _ => true
       | _ => false) = some true) ∧
    -- one that has not come yet, and one that another port's head goes before
    (let z := onFabric 0 (pair (run 8 [0]) (run 8 [0]))
     let p : Packet := { tok := run 8 [1], dest := .tile 5, place := .input 5 0 }
     let at_ (ps : List Packet) : State := atEvent 5 1 { z with net := ps }
     let late := at_ [{ p with place := .input 5 1, since := 1 }]
     let two := at_ [{ p with place := .input 5 1 }, p]
     (late.inputHead 5 1).isSome = true ∧ late.cycle < 1 ∧
       ((two.inputHead 5 1).map fun h => two.headBefore 5 0 h.1 1) = some true ∧
       -- one behind what a restore has put in, and one behind a replayed value that waits
       (let door := at_ [{ p with place := .input 5 1 }, { p with place := .door 5 }]
        ((door.inputHead 5 1).map fun h => door.doorBefore 5 h.1) = some true) ∧
       (let x := (at_ [{ p with place := .input 5 1, since := 1, stalled := true }]).updTile 5 fun x =>
          { x with rrun := some (run 8 [1]), rcur := some 3, drops := [{ id := 3, tok := run 8 [1] }] }
        ((x.inputHead 5 1).map fun h => x.replayBefore 5 h.1) = some true) ∧
       (let one := at_ [{ p with place := .input 5 1 }]
        ((one.inputHead 5 1).map fun h => (List.range 5).all fun q => !one.headBefore 5 q h.1 1) = some true)) ∧
    -- a full match store
    (let s := arriving { run 8 [1] with slot := 2 } ((onFabric 0 (pair (run 8 [0]) (run 8 [0]))).updTile 5 fun x =>
       { x with entries := List.replicate Config.matchEntries {} })
     ((s.inputHead 5 0).map fun h => match ({ s with net := [] } : State).arrive 5 h.1 with
       | .held _ _ => true
       | _ => false) = some true) := by decide +kernel
theorem witness_ContextReclaim :
    let s := atEvent 0 9 (State.reset.setCtx 9 { st := .retiring })
    s.focus = .event 0 9 ∧ (s.ctx 9).st = .retiring ∧ (s.ctx 9).reclaimed = false ∧
      ((s.updCtx 9 fun c => { c with reclaimed := true }).ctx 9).reclaimed = true ∧ (s.ctx 8).st ≠ .retiring := by decide

/-! ### Launches, regions, the Dean's channels, watching, bells -/

theorem witness_LaunchEvents_ingress :
    let s := atEvent 0 66 (dean (fun d => { d with windows := [(66, 17)], mail := { d.mail with boot := .ready } }) State.reset)
    s.focus = .event 0 66 ∧ (s.dean.windows.find? fun p => p.1 = 66) = some (66, 17) ∧ s.dean.mail.boot = .ready ∧ (s.queue 17).held = [] ∧
      (s.queue 17).bytes + (slice (List.replicate 32 (0 : Byte)) 0 (imageBytes 0)).length ≤ 4096 * (s.queue 17).rcd.qlen ∧
      ((s.setQueue 17 { held := [[0]] }).queue 17).held ≠ [] ∧ ∀ r ∈ s.dean.regions, r.leaving = false := by decide
theorem witness_LaunchEvents_report :
    let l : Loading := { queue := 3, image := 7, report := 2 ^ 52, version := 0 }
    let s := atEvent 0 3 (dean (fun d => { d with loading := [l] }) (withRegion State.reset))
    s.focus = .event 0 3 ∧ (s.dean.loading.find? fun l => l.queue = 3 && !l.accepted) = some l ∧
      reached (s.blockMeta (l.report / 64)).version l.version = true ∧
      (match s.loadBytes (s.actingTenant 0 (s.queue 3).rcd.asid) l.report 2 8 with
        | none => false
        | some (bs, y) => !bit (field bs 0 8) 63 && (y.regionOf 7).map (fun r => r.moving) = some false &&
          (let z := y.updRegion 7 fun z => { z with tenant := 0, asid := 0 }
           let o := dean (fun d => { d with regions := d.regions ++ [{ image := 8, tenant := 6, x0 := 7, y0 := 8, w := 1, h := 1 }] }) z
           let meets := dean (fun d => { d with regions := d.regions ++ [{ image := 8, tenant := 6, x0 := 7, y0 := 7, w := 1, h := 1 }] }) z
           !o.strangers 0 0 0 8 8 && meets.strangers 0 0 0 8 8)) = true := by decide
theorem witness_RegionEvents :
    let s := atEvent 0 7 (withRegion State.reset)
    let r := (s.regionOf 7).getD {}
    let t := atEvent 0 7 (s.updRegion 7 fun x => { x with leaving := true, drained := true })
    s.focus = .event 0 7 ∧ s.regionOf 7 = some r ∧ r.banked = false ∧ s.dean.loading = [] ∧ s.bankMoves r = [] ∧
      ((((s.regionTiles r).foldl (fun (z : State) t => z.takeTile r.tenant t) s).updRegion 7 fun z => { z with banked := true }).layOut r).isSome = true ∧
      r.leaving = false ∧ ((t.regionOf 7).map fun x => (x.leaving, x.drained)) = some (true, true) ∧
      (let z := t.setCtx 9 {}
       z.imageCtxs 7 (fun x => x ≠ .saved) = [] ∧ ((z.regionOf 7).map fun x => z.drained x) = some true) := by decide +kernel

/-- A token at a channel of the Dean. -/
def toDean (n : Nat) (tok : Token) : State :=
  atEvent 0 n { (withRegion State.reset).updCtx 9 fun c => { c with bucket := [(16, 1)] } with
    net := [{ tok := tok, dest := .dean n, edge := { tile := 5 }, place := .router 1 0, sent := 7 }] }
theorem witness_ChannelEvents :
    (toDean 0 (run 8 [1])).focus = .event 0 0 ∧ ((toDean 0 (run 8 [1])).channelHead 0).isSome = true ∧
    (let tok := run 31 [7, 1, 2, 0]
     ((toDean 1 tok).channelHead 1).isSome = true ∧ tok.act = .normal ∧ tok.fmt = 31 ∧ tok.len = 4 ∧ tok.mask = 15 ∧ tok.elem 3 = 0) ∧
    (let tok := run 11 [255, 1, 2 ^ 24 - 1, 2 ^ 18 - 1]
     ((toDean 2 tok).channelHead 2).isSome = true ∧ tok.fmt = 11 ∧ tok.len = 4 ∧ tok.mask = 15 ∧ ((toDean 2 tok).ctx 9).bucket ≠ [] ∧
       tok.elem 0 < 256 ∧ tok.elem 2 + tok.elem 1 ≤ 2 ^ 24 ∧ (toDean 2 tok).accessesDone 5 9 7 = true ∧
       ((toDean 2 tok).updTile 5 fun x => { x with port := [{ ctx := 9, born := 6, groups := [{ st := .issued }] }] }).accessesDone 5 9 7 = false) ∧
    ((dean (fun d => { d with buckets := [{ id := 4, left := 0 }] }) State.reset).dean.buckets.find? fun b =>
        b.left = 0 && ((dean (fun d => { d with buckets := [{ id := 4, left := 0 }] }) State.reset).ctx b.ctx).st ≠ .saved) = some { id := 4, left := 0 } ∧
    (({ id := 4, left := 0 } : Bucket).tgt = 0) ∧
    ([3, 7, 8, 15].all fun n => ((toDean n (run 8 [1])).channelHead n).isSome) = true := by decide
theorem witness_BucketPlanCoversRows : [(16, 1), (32, 2)] ≠ [] ∧ (∀ b ∈ [(16, 1), (32, 2)], 0 < b.1) ∧
    [(16, 1), (32, 2)].Pairwise (fun a b => a.1 < b.1) ∧ bucketPlan [(16, 1), (32, 2)] 40 = [(2, 32, 32)] ++ (1, 8, 16) :: [] := by decide
theorem witness_WatchEvents :
    let s := atEvent 0 7 { withRegion State.reset with cycle := 2 ^ 24, net := [{ tok := run 8 [1], dest := .tile 5 }] }
    let g : Stage := { nrep := 1, active := 1 }
    s.focus = .event 0 7 ∧ s.dean.lastSample + 4096 ≤ s.cycle ∧ 1 ≤ g.active ∧ g.active ≤ g.nrep ∧ s.dean.lastPower + 4096 ≤ s.cycle ∧
      (dean (fun d => { d with hot := true, estimate := 301, cap := 300 }) s).dean.hot = true ∧ 300 < 301 ∧ (s.ctx 9).st = .live ∧
      ((s.regionOf 7).map fun r => (decide (r.progress + 2 ^ r.pexp ≤ s.cycle), s.heldStill r)) = some (true, false) ∧
      (((s.imageCtxs 7 fun x => x = .live).map fun c => (c, s.census c)).filter fun c => c.2 ≠ 0 || s.engines c.1 ≠ 0) = [(9, 1)] := by decide +kernel
theorem witness_BellEvents :
    let s := atEvent 5 9 (((withRegion State.reset).updCtx 9 fun c => { c with bell := some 0 }).setTile 5
      { status := .resident, bells := [{ ctx := 9, due := true }] })
    s.focus = .event 5 9 ∧ ((s.tile 5).bellOf 9).due = true ∧ ((s.tile 5).bellOf 9).saved = false ∧ (s.ctx 9).bell ≠ none ∧ s.firingsOpen 5 9 = false ∧
      ((s.tile 6).bellOf 9).due = false ∧ (s.ctx 9).bell = some 0 ∧ (s.ctxRegion 9).isSome = true ∧ 0 + 2 ^ 24 ≤ 2 ^ 24 := by decide

/-! ### Cores' events, the network -/

theorem witness_CoreEvents_vc :
    let net : List Packet := [{ tok := run 8 [1], dest := .vc 0 15 }]
    let s := atEvent 0 15 { State.reset with net := net }
    let full := s.setVc 0 15 { queue := List.replicate 4 (run 8 [1]) }
    let bound (st : TaskState) : State := (s.setVc 0 15 { bound := some 2 }).setTask 0 2 { st := st }
    s.focus = .event 0 15 ∧ (s.unitHead (.vc 0 15)).isSome = true ∧ (s.vc 0 15).queue.length < 4 ∧ (s.vc 0 15).bound = none ∧
      (full.unitHead (.vc 0 15)).isSome = true ∧ 4 ≤ (full.vc 0 15).queue.length ∧
      ([TaskState.blocked (.recv 15), .blocked .wfi, .runnable].all fun st => ((bound st).unitHead (.vc 0 15)).isSome &&
        (bound st).focus = .event 0 15 && ((bound st).vc 0 15).bound = some 2 && ((bound st).task 0 2).st = st) = true := by decide
theorem witness_CoreEvents_tasks :
    (let s := atEvent 0 0 ((State.reset.setCore 0 { tasks := [(0, { st := .running, instret := 1023 }), (1, { st := .runnable })], running := some 0,
                                                     retired := 2 ^ 64 - 1 }))
     s.focus = .event 0 0 ∧ (s.cluster 0).core.running = some 0 ∧ s.quantumOver 0 = true) ∧
    (let s := withTask fun t => { t with st := .blocked (.sleep 0) }
     let t := s.setTask 0 1 { st := .blocked .wfi }
     (s.task 0 0).st = .blocked (.sleep 0) ∧ 0 ≤ s.cycle ∧ s.cycle < 1 ∧ (t.task 0 1).st = .blocked .wfi ∧ (t.task 0 2).st ≠ .blocked .wfi) ∧
    (let pc : Word := 0xFFFF100000040
     let s := atEvent 0 0 (withRegion (withTask fun t => { t with st := .blocked .fetch, pc := pc, image := some (7, 0x40, 4) }))
     (s.task 0 0).st = .blocked .fetch ∧ (s.task 0 0).image = some (7, 0x40, 4) ∧ (s.regionOf 7).isSome = true ∧ pc.toNat < 2 ^ 56 ∧
       0x40 ≤ pc.toNat % 2 ^ 32 ∧ pc.toNat % 2 ^ 32 < 0x40 + 4) := by decide +kernel
theorem witness_NetworkHops :
    let p : Packet := { tok := run 8 [1], dest := .tile 1, place := .outq 0 }
    let s := atEvent 0 0 { State.reset with net := [p] }
    let t := atEvent 0 1 { State.reset with net := [p, p] }
    let full := atEvent 0 0 { State.reset with net := p :: List.replicate 64 { p with place := .input 1 4 } }
    let taken := atEvent 0 0 { s with outputs := [(facing 4, { free := 1 })] }
    s.focus = .event 0 0 ∧ s.net[0]? = some p ∧ p.mcast = none ∧ p.since ≤ s.cycle ∧ s.behind 0 p = false ∧
      ((s.nextPlace p 1).map fun pl => s.served 0 (outputOf p pl)) = some true ∧
      ((taken.nextPlace p 1).map fun pl => taken.served 0 (outputOf p pl)) = some false ∧
      p.place ≠ .source 0 ∧ t.net[1]? = some p ∧ t.behind 1 p = true ∧ full.nextPlace p 1 = none ∧ s.cycle < 1 ∧ s.inHop p = false ∧
      s.inHop { p with place := .input 1 4, since := 1 } = true := by decide +kernel
/-- R334's example: 48 bytes over 21 router hops come after 66 cycles, and from t0 to t15 of one cluster after 7. -/
theorem test_hop_cycles :
    let p : Packet := { tok := run 1 [1, 2, 3, 4, 5, 6, 7, 8], dest := .tile 77 }
    ({ p with place := .outq 3 } : Packet).hopCycles (.router 0 0) + 21 * ({ p with place := .router 0 0 } : Packet).hopCycles (.router 1 4) +
      ({ p with place := .router 1 4 } : Packet).hopCycles (.input 77 0) = 66 ∧
    5 * ({ p with place := .input 3 4 } : Packet).hopCycles (.input 4 4) + ({ p with place := .input 76 4 } : Packet).hopCycles (.input 77 4) = 7 := by
  decide
/-- Two tokens and a grant at the ports of tile 1 that all go north of it: the grant's channel comes first, and then the older token. -/
theorem witness_OutputArbitration :
    let p : Packet := { tok := run 8 [1], dest := .tile 129, place := .input 1 2, sent := 7 }
    let q : Packet := { p with place := .input 1 4, edge := { tile := 3 }, sent := 4 }
    let g : Packet := { p with vc := 1, cargo := .grant {} }
    let way := ({ State.reset with cycle := 9 }.moveOf 0 p).bind (outputOf p)
    let at_ (ps : List Packet) : State := { State.reset with net := ps, cycle := 9 }
    way.isSome = true ∧ (at_ [p, q, g]).arbitrate (way.getD 0) = some 2 ∧ (at_ [p, q]).arbitrate (way.getD 0) = some 1 := by decide +kernel
theorem witness_TorusRoutesApproach : 0 < 512 ∧ 511 < 512 ∧ (0 : Nat) ≠ 511 := by decide

/-! ### The host -/

/-- The bytes of host memory from its start. -/
def hostHolding (bs : List Byte) (s : State) : State :=
  { s with mem := (bs.zipIdx.filter fun p => p.1 ≠ 0).map fun p => (2 ^ 45 + p.2, p.1) }
/-- A command with its arguments. -/
def hostCommand (a0 a1 a2 a3 a4 : Word) (s : State) : State := command { a0 := a0, a1 := a1, a2 := a2, a3 := a3, a4 := a4 } s
/-- A queue record, and an export record (R292, R346). -/
def queueRecord : List Byte := toBytes 2 5 ++ toBytes 22 (3 * 2 ^ 32 + 1) ++ toBytes 16 1 ++ toBytes 216 1
def exportRecord : List Byte := toBytes 4 0x58455551 ++ toBytes 2 5 ++ toBytes 22 (3 * 2 ^ 32 + 1) ++ toBytes 16 1 ++ toBytes 212 1
def hostBase : Word := 2 ^ 45
theorem witness_HostTableCommands_queues :
    (let s := hostHolding queueRecord (hostCommand 1023 hostBase 0 0 0 State.reset)
     Claims.Command s { a0 := 1023, a1 := hostBase } ∧ (match s.physRead 0 (2 ^ 45) 256 with
       | none => false
       | some (bs, y) => queueRecOk bs && !y.recordRefused 1023 (queueRecOf bs) && (y.queue 1023).held = []) = true ∧
       (queueRecOf (List.replicate 256 0)).asid = 0) ∧
    (let a0 := 17 * 4096 + 63 * 64 + groupOf 17
     a0 < 2 ^ 22 ∧ groupOf (bits a0 21 12) = bits a0 5 0) ∧
    ((State.reset.setQueue 1023 { rcd := { tenant := 5 } }).queue 1023).rcd.tenant ≠ 0 ∧
    (let s := State.reset.setQueue 1023 { rcd := { tenant := 5 } }
     ((s.physWrite 0 (2 ^ 45) (s.exportBytes 1023)).bind fun y => y.physWrite 0 (2 ^ 45 + 4096) (s.queue 1023).bitmap).isSome = true) ∧
    (let s := hostHolding exportRecord (hostCommand 1023 hostBase 0 64 4096 State.reset)
     (s.queue 1023).rcd.weight = 0 ∧ s.queueCtxs 1023 (fun _ => true) = false ∧ (match s.physRead 0 (2 ^ 45) 256 with
       | none => false
       | some (bs, y) =>
         let rcd := slice bs 4 8 ++ toBytes 8 0 ++ toBytes 8 64 ++ slice bs 0x1C 8 ++ toBytes 8 4096 ++ slice bs 0x2C 4 ++ toBytes 84 0 ++
           (List.range 16).flatMap fun i => toBytes 4 (field bs (0x52 + 6 * i) 4) ++ toBytes 2 (field bs (0x50 + 6 * i) 2) ++ toBytes 2 0
         field bs 0 4 = 0x58455551 && queueRecOk rcd && !y.recordRefused 1023 (queueRecOf rcd) && !bit (field bs 0x34 1) 7 &&
           (y.bufferBytes (queueRecOf rcd) (field bs 0x38 4) (field bs 0x3C 4) (decide (field bs 0x44 4 ≠ 0))).isSome) = true) := by decide +kernel
theorem witness_HostTableCommands_tables :
    (match State.reset.physRead 0 (2 ^ 45) 512 with
      | none => false
      | some (bs, _) => bs.all fun b => b.toNat < 32) = true ∧
    (let s := State.reset
     (assocGet {} s.dean.asids 65535).tenant = 0 ∧ (s.invalidate 65535).translatedOpen 65535 = false ∧ 65535 < 2 ^ 16 ∧ 2 ^ 52 - 2 ^ 20 < 2 ^ 52 ∧
       (2 ^ 52 - 2 ^ 20) % 2 ^ 20 = 0) ∧
    (State.reset.gateRunning 15 = false ∧ (State.reset.domain 15).gate = none ∧ 128 * 2048 * 2 ≤ 512 * 1024 ∧ 2048 % 32 = 0) ∧
    (State.reset.physRead 4095 (2 ^ 45) (2 * 1 * 32)).isSome = true ∧
    (State.reset.physRead 5 (2 ^ 45) 64).isSome = true ∧
    ((State.reset.physRead 4095 (2 ^ 45 + 0x80) 32).bind fun n => n.2.physWrite 4095 (2 ^ 45) (List.replicate 256 0)).isSome = true ∧
    (let s := dean (fun d => { d with maps := [(64, [1, 2])] }) State.reset
     assocHas s.dean.maps 64 = true ∧ 2 ≤ (assocGet [] s.dean.maps 64).length ∧ (s.physWrite 0 (2 ^ 45) ((assocGet [] s.dean.maps 64).take 2)).isSome = true) ∧
    (withRegion State.reset).regionOf 7 ≠ none ∧ 10 ≤ 10 ∧ 10 ≤ 30 := by decide +kernel
theorem witness_ContextCommands :
    let a : CmdArgs := { a0 := 9 }
    let at_ (x : Ctx) : State := command a ((withRegion State.reset).setCtx 9 { x with image := 7 })
    Claims.Command (at_ { st := .live }) a ∧ ((at_ { st := .live }).ctx 9).st = .live ∧ ((at_ { st := .live }).ctx 9).bell = none ∧
      ((at_ { st := .frozen, why := .fault }).ctx 9).why = .fault ∧ ((at_ { st := .frozen, why := .halt }).ctx 9).why ≠ .fault ∧
      ((at_ { st := .retiring }).ctx 9).st ≠ .live ∧
      (let s := (at_ { st := .saved }).updRegion 7 fun r => { r with laid := true }
       (s.ctx 9).st = .saved ∧ s.dean.loading = [] ∧
         ((s.regionOf 7).map fun r => (r.laid, s.shut r, ((s.unloadMoved 7).restoreInto 9 r).isSome)) = some (true, false, true)) ∧
      (let s := command { a0 := 7 } ((withRegion State.reset).setCtx 9 {})
       s.regionOf 7 ≠ none ∧ s.imageCtxs 7 (fun _ => true) = [] ∧ s.regionOf 6 = none) ∧
      (∀ b < 16, bit 0xFFFF b = true → (State.reset.cluster 511).banks.getD b 0 = 0) := by decide +kernel
theorem witness_HostCommandsEnd :
    let a : CmdArgs := { a0 := 9 }
    let s := command a State.reset
    s.focus = .command a ∧ (dean (fun d => { d with doing := .decided 2 0 }) s).dean.doing = .decided 2 0 ∧
      (let w := dean (fun d => { d with doing := .waiting }) s
       w.dean.doing = .waiting ∧ ((w.setCtx 9 { st := .retiring }).ctx 9).st = .retiring ∧ (w.ctx 9).st ≠ .retiring) ∧
      s.regionOf 9 = none ∧ s.dean.doing = .idle := by decide
theorem witness_HostEdge :
    let s := State.reset
    s.dean.mail.head = s.dean.mail.tail ∧ (0 : Word).toNat < 2 ^ 44 ∧ (0 : Word).toNat % 4096 = 0 ∧ 1 < 2 ∧ 2 ^ 38 - 1 < 2 ^ 38 ∧ 2 ^ 38 ≤ 2 ^ 38 ∧
      ((dean (fun d => { d with keys := [(0, {})] }) s).loadBytes ((dean (fun d => { d with keys := [(0, {})] }) s).dean.portTen.getD 1 0) 0
        (blocksFor 8) 8).isSome = true ∧
      s.edgeBlocked (2 ^ 38 - 8) 8 = false ∧ [(1 : Byte)] ≠ [] ∧ 63 % 64 + 1 ≤ 64 ∧
      (let k := dean (fun d => { d with keys := [(0, {})] }) s
       (k.keyFor 0 63).isSome = true ∧ (match k.homeAct { block := 0, op := .store [(63, 1)], mode := .next, moved := 1 } with
         | .done _ _ => true
         | _ => false) = true) ∧
      (dean (fun d => { d with mail := { d.mail with tail := 1 } }) s).dean.mail.head ≠ (dean (fun d => { d with mail := { d.mail with tail := 1 } }) s).dean.mail.tail := by
  decide
theorem witness_HostEdge_still : Claims.Still (dean (fun d => { d with keys := [(0, {})] }) State.reset) := ⟨rfl, fun _ => rfl⟩
/-- Whatever the tenant of a peer, its access finds a key where the key table holds its. -/
theorem witness_HostEdge_peer (tenant : Nat) :
    ((dean (fun d => { d with keys := [(0, { tenant := tenant })] }) State.reset).keyFor tenant 0).isSome = true := by
  simp [State.keyFor, State.keyOf, dean, State.setDean]
theorem witness_BringUp :
    ((List.range 16).filter ({ failedDomains := List.range 15 } : BootInputs).failedDomains.contains).length < 16 ∧
    ({ failedPorts := [0] } : BootInputs).failedPorts.contains 0 = true ∧
    (({ failedPorts := [1] } : BootInputs).failedPorts.contains 0 = false ∧ ({ failedPorts := [1] } : BootInputs).failedPorts.contains 1 = true) ∧
    ((State.reset.bootStart {}).firmwareImage = none) ∧
    ((hostHolding (toBytes 4 hdrMagic ++ toBytes 24 0 ++ toBytes 4 256) State.reset).bootStart {}).firmwareImage.isSome = true := by decide +kernel
/-- A firmware image of a header alone, signed with the private key 1 and the nonce 2 (computed from GB/T 32918 and R84 alone). -/
def signedFirmware : List Byte :=
  toBytes 4 hdrMagic ++ toBytes 24 0 ++ toBytes 4 256 ++ toBytes 128 0 ++
  (toBytes 32 0x1B6CB96492E68575D99BBB11108D0E945051C503EB1366B5816588D3BE8FCB7A).reverse ++
  (toBytes 32 0x147BBD36862509CFB9905859CF1514C5E20272D53ED18FF1BE171F32F263DC22).reverse ++
  (toBytes 32 0xF5C22163BCED7B182337D3D31875759C8102A600825D3D3274B0646FC0A35313).reverse
theorem witness_BringUp_signed :
    let rom : BootInputs := { firmwareKey := sm2G.1 * 2 ^ 256 + sm2G.2.1 }
    let z := (hostHolding signedFirmware State.reset).bootStart rom
    rom.failedPorts.contains 0 = false ∧ rom.failedPorts.contains 1 = false ∧
      (z.firmwareImage.map fun bs => z.sigStatus bs 0) = some 0 := by decide +kernel

/-! ### Steps and rules stated whole -/

theorem witness_IllegalCoreWords :
    (withTask id).focus = .task 0 0 ∧ decodeCore 0xFE000000#32 = .error (.badOp 0x7F) ∧ decodeCore 0xC6000001#32 = .error (.badField 0x63) := by decide
theorem witness_EncodeAfterDecode :
    (∃ i, decodeFabric 0x420860404014000A#64 = .ok i) ∧ ∃ i, decodeCore 0x50429A34#32 = .ok i := ⟨⟨_, rfl⟩, ⟨_, rfl⟩⟩
/-- A machine whose next turn is an actor's. -/
def next (who : Actor) (s : State) : State := { s with agenda := [{ delay := 1, actor := who }] }
theorem witness_StepRunsInstruction_fabric :
    let s := State.reset.withFetchWord 64 0x204048A000020400
    let z := ({ s with agenda := [] } : State).passTime 1
    s.agenda = [{ delay := 1, actor := .fire 0 }] ∧ s.dean.mail.boot ≠ .failed ∧ (z.tile 0).lastRound < z.cycle ∧ z.outputRoom 0 = true ∧
      ((z.select 0).map fun p => match decodeFabric ((z.blockOf 0).slots.getD p.1.slot 0) with
        | .ok _ => true
        | .error _ => false) = some true := by decide +kernel
theorem witness_StepRunsInstruction_core :
    (let s := State.reset.withFetchWord 32 0x3010FFFF
     let z := ({ s with agenda := [] } : State).passTime 1
     s.agenda = [{ delay := 1, actor := .core 0 }] ∧ (z.cluster 0).core.running = some 0 ∧ z.quantumOver 0 = false ∧
       (z.task 0 0).fetched = some 0x3010FFFF ∧ (match decodeCore 0x3010FFFF with
         | .ok i => (instrRegs i).all fun r => !(z.task 0 0).pending r
         | .error _ => false) = true ∧ (z.task 0 0).dirty = []) ∧
    (let s := State.reset.withFetchWord 32 0xFE000000
     let z := ({ s with agenda := [] } : State).passTime 1
     (z.task 0 0).fetched = some 0xFE000000 ∧ (match decodeCore 0xFE000000 with
       | .ok _ => true
       | .error _ => false) = false) := by decide +kernel
theorem witness_StepRunsInstruction_events :
    (next (.event .flitRetry 0 0) State.reset).agenda = [{ delay := 1, actor := .event .flitRetry 0 0 }] ∧ isEvent .flitRetry = true ∧
    (let s := next .deanCommand (dean (fun d => { d with mail := { d.mail with boot := .ready, tail := 1 } }) State.reset)
     (({ s with agenda := [] } : State).passTime 1).nextCommand.isSome = true) := by decide +kernel
theorem witness_EveryStepGoesOn : State.reset.dean.mail.boot ≠ .failed ∧
    (next (.event (.reset {}) 0 0) (dean (fun d => { d with mail := { d.mail with boot := .failed } }) State.reset)).agenda =
      [{ delay := 1, actor := .event (.reset {}) 0 0 }] := by decide
theorem witness_EveryStepGoesOn_tail :
    (next (.event (.tail 1) 0 0) (dean (fun d => { d with mail := { d.mail with boot := .failed } }) State.reset)).agenda =
      [{ delay := 1, actor := .event (.tail 1) 0 0 }] := by decide
theorem witness_StepsKeepMemoryCanonical :
    let s := State.reset.withFetchWord 32 0x3010FFFF
    cellsWf s.mem = true ∧ (match step s with
      | .next _ => true
      | _ => false) = true := by decide +kernel
theorem witness_cellsOk : Safety.cellsOk State.reset := ⟨rfl, by simp [State.reset], by simp [State.reset]⟩
theorem witness_TileNames : 127 < 128 ∧ 63 < 64 ∧ tileX (tileOf 127 63) = 127 ∧ clusterOf (tileOf 127 63) = 511 := by decide
theorem witness_RollbackDiscards :
    let s := (configuring true 0 0).updTile (tileOf 3 0) fun x => { x with status := .reserved }
    Claims.Configures s 0 0 3 ∧ (configuring false 0 0).session 0 0 = none ∧
      ((s.session 0 0).map fun x => decide (x.x0 + x.w ≤ 128) && x.holds (tileOf 3 0) && !x.holds (tileOf 5 0)) = some true ∧
      s.fused (tileOf 3 0) = false ∧ (s.tile (tileOf 3 0)).status = .reserved ∧ (s.tile (tileOf 5 0)).status ≠ .reserved ∧
      (0x98000001#32).toNat / 2 ^ 25 = 0x4C ∧ (0x98000001#32).toNat % 2 ^ 20 ≠ 0 := by decide
theorem witness_FuseRowRead :
    let s := dean (fun d => { d with fused := (List.range 16).map fun l => tileIn 15 l }) (withRegs 64 0)
    Claims.Runs s 0 0 3 ∧ (∀ l < 16, s.fused (tileIn 15 l) = true) ∧ clusterOf (tileOf (64 * (0 / 64 % 2) + 63) (0 % 64)) = 15 ∧
      (0x9C000001#32).toNat / 2 ^ 25 = 0x4E ∧ (0x9C000001#32).toNat % 2 ^ 15 ≠ 0 := by decide +kernel
theorem witness_IntegerBorderCases :
    Claims.Runs (withRegs 0x8000000000000000 0xFFFFFFFFFFFFFFFF) 0 0 3 ∧
    (let g := ((withRegs 0x8000000000000000 0xFFFFFFFFFFFFFFFF).task 0 0).reg
     g 1 = 0x8000000000000000 ∧ g 2 = 0xFFFFFFFFFFFFFFFF ∧ g 0 = 0) ∧
    ((0x02000001#32).toNat / 2 ^ 25 = 1 ∧ (0x02000001#32).toNat % 2 ^ 10 ≠ 0) ∧
    ((0x28000400#32).toNat / 2 ^ 25 = 0x14 ∧ (0x28000400#32).toNat % 2 ^ 15 ≠ 0) ∧
    ((0x38000040#32).toNat / 2 ^ 25 = 0x1C ∧ (0x38000040#32).toNat % 2 ^ 15 / 2 ^ 6 ≠ 0) := by decide
theorem witness_BootStatusWord :
    let m : Mailbox := { boot := .failed, step := 15, detail := 255 }
    m.step < 16 ∧
    (match exec (.reset { failedPorts := [1] }) State.reset with
      | .next s => s.dean.mail.boot = .failed && s.dean.mail.step = 3 && s.dean.mail.detail = 1
      | _ => false) = true := by decide +kernel

end Sys2Proof.Tests
end

/-! PROOFS. The tiles' names (R9): die coordinates, clusters and local indexes name the same tiles. -/

namespace Sys2Proof.Machine

/-! ## A tile from its die coordinates -/

@[simp] theorem tileX_tileOf {x : Nat} (y : Nat) (hx : x < 128) : tileX (tileOf x y) = x := by
  rw [tileX, tileOf, Nat.mul_add_mod, Nat.mod_eq_of_lt hx]

@[simp] theorem tileY_tileOf {x : Nat} (y : Nat) (hx : x < 128) : tileY (tileOf x y) = y := by
  rw [tileY, tileOf, Nat.mul_add_div (by decide), Nat.div_eq_of_lt hx, Nat.add_zero]

theorem tileOf_tileX_tileY (t : Nat) : tileOf (tileX t) (tileY t) = t := Nat.div_add_mod t 128

theorem tileX_lt (t : Nat) : tileX t < 128 := Nat.mod_lt t (by decide)

theorem clusterOf_tileOf {x : Nat} (y : Nat) (hx : x < 128) : clusterOf (tileOf x y) = (y / 4) * 32 + x / 4 := by
  rw [clusterOf, tileX_tileOf y hx, tileY_tileOf y hx]

theorem localOf_tileOf {x : Nat} (y : Nat) (hx : x < 128) : localOf (tileOf x y) = (y % 4) * 4 + x % 4 := by
  rw [localOf, tileX_tileOf y hx, tileY_tileOf y hx]

/-! ## The die has 512 clusters of 16 tiles -/

theorem clusterOf_lt {t : Nat} (hy : tileY t < 64) : clusterOf t < 512 := by
  have hx := tileX_lt t
  unfold clusterOf
  omega

theorem localOf_lt (t : Nat) : localOf t < 16 := by
  unfold localOf
  omega

/-! ## A tile from its cluster and its local index -/

/-- The column of a cluster and the column within it give back the die column: a row has 32 clusters, 4 tiles wide. -/
theorem column_of_clusterOf_localOf (t : Nat) : 4 * (clusterOf t % 32) + localOf t % 4 = tileX t := by
  have hx := tileX_lt t
  unfold clusterOf localOf
  omega

/-- The row of a cluster and the row within it give back the die row. -/
theorem row_of_clusterOf_localOf (t : Nat) : 4 * (clusterOf t / 32) + localOf t / 4 = tileY t := by
  have hx := tileX_lt t
  unfold clusterOf localOf
  omega

theorem tileIn_clusterOf_localOf (t : Nat) : tileIn (clusterOf t) (localOf t) = t := by
  rw [tileIn, column_of_clusterOf_localOf, row_of_clusterOf_localOf, tileOf_tileX_tileY]

/-- Settles O50: the coordinates come back from `128 y + x` as remainder and quotient, and a tile is that of its own
cluster and local index. -/
theorem tileNames : Obligations.TileNames := by
  intro x y hx hy t
  have hrow : tileY t < 64 := by rwa [tileY_tileOf y hx]
  exact ⟨tileX_tileOf y hx, tileY_tileOf y hx, clusterOf_tileOf y hx, clusterOf_lt hrow, localOf_tileOf y hx, localOf_lt t,
    tileIn_clusterOf_localOf t⟩

end Sys2Proof.Machine

/-! PROOFS. What a step runs (R24, R41, R290, R351): the turn that the agenda names, the firing that a selection round
takes, and the instruction of a core's turn. -/

namespace Sys2Proof.Machine

/-! ## A selection round that takes a firing (R24) -/

/-- The firing that a round takes runs what its slot word decodes to. Only the operands of the pairing change, to the
values they have now; memory, the network and the clock stay as they are. -/
theorem State.takeFiring_of_select {s : State} {t n : Nat} {p : Pairing} {i : Instr} (hround : (s.tile t).lastRound < s.cycle)
    (hroom : s.outputRoom t = true) (hsel : s.select t = some (p, n))
    (hword : decodeFabric ((s.blockOf t).slots.getD p.slot 0) = .ok i) :
    ∃ y p', s.takeFiring t = some (y, i) ∧ y.focus = .firing t p' ∧ p'.slot = p.slot ∧ p'.ctx = p.ctx ∧ p'.itag = p.itag ∧
      p'.len = p.len ∧ y.mem = s.mem ∧ y.net = s.net ∧ y.cycle = s.cycle := by
  have hfree : ¬ (s.cycle ≤ (s.tile t).lastRound || !s.outputRoom t) = true := by simp [hround, hroom]
  unfold State.takeFiring
  rw [if_neg hfree, hsel]
  simp only [hword]
  exact ⟨_, _, rfl, rfl, rfl, rfl, rfl, rfl, rfl, rfl, rfl⟩

/-! ## The instruction of a core's turn (R41, R248, R290) -/

theorem coreStep_of_ok {w : BitVec 32} {i : Instr} (h : decodeCore w = .ok i) : coreStep w = i := by simp only [coreStep, h]

theorem coreStep_of_not_ok {w : BitVec 32} (h : ∀ i, decodeCore w ≠ .ok i) : coreStep w = .badOp w := by
  unfold coreStep
  split
  · next i hi => exact absurd hi (h i)
  · rfl

/-- A task that has lost no register replays nothing, whatever it is to read. -/
theorem State.freshen_of_clean {s : State} {c k : Nat} (h : (s.task c k).dirty = []) (fuel : Nat) (rs : List Nat) :
    s.freshen c k fuel rs = .ok s := by
  induction fuel generalizing rs with
  | zero => simp only [State.freshen]
  | succ fuel ih =>
    cases rs with
    | nil => simp only [State.freshen]
    | cons r rs => simpa [State.freshen, h] using ih rs

/-- A running task within its quantum, whose fetch line holds the pc, with no register pending or lost, runs the word at
its pc. -/
theorem State.coreTurn_of_fetched {s : State} {c k : Nat} {w : BitVec 32} (hrun : (s.cluster c).core.running = some k)
    (hquantum : s.quantumOver c = false) (hfetch : (s.task c k).fetched = some w)
    (hready : ∀ r ∈ instrRegs (coreStep w), (s.task c k).pending r = false) (hclean : (s.task c k).dirty = []) :
    s.coreTurn c = .run { s with focus := .task c k } (coreStep w) := by
  have hnone : ¬ ((instrRegs (coreStep w)).any (s.task c k).pending) = true := by simpa using hready
  simp only [State.coreTurn, hquantum, hrun, hfetch, State.freshen_of_clean hclean, if_neg hnone, Bool.false_eq_true, if_false,
    reduceCtorEq]

/-! ## The agenda's next turn (log entry 1) -/

theorem State.nextTurn_of_agenda {s : State} {u : Turn} {rest : List Turn} (h : s.agenda = u :: rest) :
    s.nextTurn = (u, { s with agenda := rest }) := by
  simp only [State.nextTurn, h]

section
variable {s : State} {dl : Nat} {rest : List Turn} (hboot : s.dean.mail.boot ≠ .failed)
include hboot

theorem step_of_firing {t : Nat} {y : State} {i : Instr} (hturn : s.agenda = { delay := dl, actor := .fire t } :: rest)
    (h : (({ s with agenda := rest } : State).passTime dl).takeFiring t = some (y, i)) :
    step s = closeOutcome (exec i y) := by
  simp [step, State.nextTurn_of_agenda hturn, hboot, h]

theorem step_of_coreTurn {c : Nat} {y : State} {i : Instr} (hturn : s.agenda = { delay := dl, actor := .core c } :: rest)
    (h : (({ s with agenda := rest } : State).passTime dl).coreTurn c = .run y i) :
    step s = closeOutcome (exec i y) := by
  simp [step, State.nextTurn_of_agenda hturn, hboot, h]

theorem step_of_event {i : Instr} {u k : Nat} (hturn : s.agenda = { delay := dl, actor := .event i u k } :: rest)
    (h : isEvent i = true) :
    step s = closeOutcome (exec i { ({ s with agenda := rest } : State).passTime dl with focus := .event u k }) := by
  simp [step, State.nextTurn_of_agenda hturn, hboot, h]

theorem step_of_command {y : State} {i : Instr} (hturn : s.agenda = { delay := dl, actor := .deanCommand } :: rest)
    (h : (({ s with agenda := rest } : State).passTime dl).nextCommand = some (y, i)) :
    step s = closeOutcome (exec i y) := by
  simp [step, State.nextTurn_of_agenda hturn, hboot, h]

end

/-- Settles O57: for each kind of turn, what the turn decodes is what `step` hands to `exec`. -/
theorem stepRunsInstruction : Obligations.StepRunsInstruction := by
  intro s dl who rest hturn hboot z
  refine ⟨?fire, ?core, ?badOp, ?event, ?command⟩
  case fire =>
    rintro t p n i rfl hround hroom hsel hword
    obtain ⟨y, p', hfire, hkept⟩ := State.takeFiring_of_select hround hroom hsel hword
    obtain ⟨hfocus, hslot, hctx, hitag, hlen, hmem, hnet, hcycle⟩ := hkept
    exact ⟨y, p', hfocus, hslot, hctx, hitag, hlen, hmem, hnet, hcycle, step_of_firing hboot hturn hfire⟩
  case core =>
    rintro c k w i rfl hrun hquantum hfetch hword hready hclean
    obtain rfl := coreStep_of_ok hword
    exact step_of_coreTurn hboot hturn (State.coreTurn_of_fetched hrun hquantum hfetch hready hclean)
  case badOp =>
    rintro c k w rfl hrun hquantum hfetch hword hclean
    have hbad := coreStep_of_not_ok hword
    have hready : ∀ r ∈ instrRegs (coreStep w), (z.task c k).pending r = false := by simp [hbad, instrRegs]
    rw [← hbad]
    exact step_of_coreTurn hboot hturn (State.coreTurn_of_fetched hrun hquantum hfetch hready hclean)
  case event =>
    rintro i u k rfl hevent
    exact step_of_event hboot hturn hevent
  case command =>
    rintro y i rfl hcommand
    exact step_of_command hboot hturn hcommand

end Sys2Proof.Machine

/-! PROOFS. Decoding and encoding agree (R30 to R42): the cases of `decode` after `encode` brought together, and each word
put together again from the fields that its decoder reads. -/

namespace Sys2Proof.Laws

/-! ## Decoding after encoding -/

theorem decode_of_encode : ∀ i : Instr, EncodeDecode.Statement i
  | .sink w => EncodeDecode.sink w | .pass w => EncodeDecode.pass w | .fanout w => EncodeDecode.fanout w
  | .steer w => EncodeDecode.steer w | .merge w => EncodeDecode.merge w | .sync w => EncodeDecode.sync w
  | .emit w => EncodeDecode.emit w | .retag w => EncodeDecode.retag w | .stick w => EncodeDecode.stick w
  | .purge w => EncodeDecode.purge w | .cancel w => EncodeDecode.cancel w | .split w => EncodeDecode.split w
  | .pack w => EncodeDecode.pack w | .unpack w => EncodeDecode.unpack w | .ctag w => EncodeDecode.ctag w
  | .egress w => EncodeDecode.egress w | .alloc w => EncodeDecode.alloc w | .release w => EncodeDecode.release w
  | .give w => EncodeDecode.give w | .tld w => EncodeDecode.tld w | .tst w => EncodeDecode.tst w
  | .ticket w => EncodeDecode.ticket w | .retn w => EncodeDecode.retn w | .poolq w => EncodeDecode.poolq w
  | .recall w => EncodeDecode.recall w | .drop w => EncodeDecode.drop w | .add w => EncodeDecode.add w
  | .sub w => EncodeDecode.sub w | .mul w => EncodeDecode.mul w | .mulh w => EncodeDecode.mulh w
  | .div w => EncodeDecode.div w | .rem w => EncodeDecode.rem w | .min w => EncodeDecode.min w
  | .max w => EncodeDecode.max w | .abs w => EncodeDecode.abs w | .neg w => EncodeDecode.neg w
  | .and w => EncodeDecode.and w | .or w => EncodeDecode.or w | .xor w => EncodeDecode.xor w
  | .andn w => EncodeDecode.andn w | .not w => EncodeDecode.not w | .shl w => EncodeDecode.shl w
  | .shr w => EncodeDecode.shr w | .sar w => EncodeDecode.sar w | .rol w => EncodeDecode.rol w
  | .clz w => EncodeDecode.clz w | .popc w => EncodeDecode.popc w | .cmp w => EncodeDecode.cmp w
  | .adds w => EncodeDecode.adds w | .subs w => EncodeDecode.subs w | .madk w => EncodeDecode.madk w
  | .agen w => EncodeDecode.agen w | .bfx w => EncodeDecode.bfx w | .mask w => EncodeDecode.mask w
  | .fadd w => EncodeDecode.fadd w | .fsub w => EncodeDecode.fsub w | .fmul w => EncodeDecode.fmul w
  | .fmak w => EncodeDecode.fmak w | .fnmsk w => EncodeDecode.fnmsk w | .fdiv w => EncodeDecode.fdiv w
  | .fsqrt w => EncodeDecode.fsqrt w | .fmin w => EncodeDecode.fmin w | .fmax w => EncodeDecode.fmax w
  | .fabs w => EncodeDecode.fabs w | .fneg w => EncodeDecode.fneg w | .fcmp w => EncodeDecode.fcmp w
  | .fclass w => EncodeDecode.fclass w | .fscale w => EncodeDecode.fscale w | .fcpys w => EncodeDecode.fcpys w
  | .fround w => EncodeDecode.fround w | .frsqe w => EncodeDecode.frsqe w | .frcpe w => EncodeDecode.frcpe w
  | .fexp2 w => EncodeDecode.fexp2 w | .flog2 w => EncodeDecode.flog2 w | .fsin w => EncodeDecode.fsin w
  | .fcos w => EncodeDecode.fcos w | .ftanh w => EncodeDecode.ftanh w | .fsigm w => EncodeDecode.fsigm w
  | .cvtl w => EncodeDecode.cvtl w | .narrow w => EncodeDecode.narrow w | .widen w => EncodeDecode.widen w
  | .plane w => EncodeDecode.plane w | .bits w => EncodeDecode.bits w | .rsum w => EncodeDecode.rsum w
  | .rmax w => EncodeDecode.rmax w | .rmin w => EncodeDecode.rmin w | .rargmx w => EncodeDecode.rargmx w
  | .rscan w => EncodeDecode.rscan w | .shuf w => EncodeDecode.shuf w | .bcast w => EncodeDecode.bcast w
  | .rotl w => EncodeDecode.rotl w | .compact w => EncodeDecode.compact w | .expand w => EncodeDecode.expand w
  | .rpop w => EncodeDecode.rpop w | .rtop2 w => EncodeDecode.rtop2 w | .ld w => EncodeDecode.ld w
  | .st w => EncodeDecode.st w | .atom w => EncodeDecode.atom w | .cas w => EncodeDecode.cas w
  | .reclaim w => EncodeDecode.reclaim w | .fence w => EncodeDecode.fence w | .vwait w => EncodeDecode.vwait w
  | .ldb w => EncodeDecode.ldb w | .stb w => EncodeDecode.stb w | .copy w => EncodeDecode.copy w
  | .arm w => EncodeDecode.arm w | .disarm w => EncodeDecode.disarm w | .gather w => EncodeDecode.gather w
  | .scatter w => EncodeDecode.scatter w | .cpstat w => EncodeDecode.cpstat w | .cpstop w => EncodeDecode.cpstop w
  | .mma w => EncodeDecode.mma w | .mmac w => EncodeDecode.mmac w | .accz w => EncodeDecode.accz w
  | .accrd w => EncodeDecode.accrd w | .accwr w => EncodeDecode.accwr w | .mmstat w => EncodeDecode.mmstat w
  | .cvt w => EncodeDecode.cvt w | .reblk w => EncodeDecode.reblk w | .qplane w => EncodeDecode.qplane w
  | .qunpl w => EncodeDecode.qunpl w | .scalemx w => EncodeDecode.scalemx w | .aucgo w => EncodeDecode.aucgo w
  | .aucstep w => EncodeDecode.aucstep w | .aucset w => EncodeDecode.aucset w | .aucget w => EncodeDecode.aucget w
  | .aucstop w => EncodeDecode.aucstop w | .trap w => EncodeDecode.trap w | .probe w => EncodeDecode.probe w
  | .statq w => EncodeDecode.statq w | .census w => EncodeDecode.census w | .bellin w => EncodeDecode.bellin w
  | .ctxnew w => EncodeDecode.ctxnew w | .ctxfree w => EncodeDecode.ctxfree w | .inject w => EncodeDecode.inject w
  | .scrub w => EncodeDecode.scrub w | .placeh w => EncodeDecode.placeh w | .meter w => EncodeDecode.meter w
  | .keyld w => EncodeDecode.keyld w | .bellout w => EncodeDecode.bellout w | .addC d a b => EncodeDecode.addC d a b
  | .subC d a b => EncodeDecode.subC d a b | .andC d a b => EncodeDecode.andC d a b
  | .orC d a b => EncodeDecode.orC d a b | .xorC d a b => EncodeDecode.xorC d a b
  | .sll d a b => EncodeDecode.sll d a b | .srl d a b => EncodeDecode.srl d a b
  | .sra d a b => EncodeDecode.sra d a b | .slt d a b => EncodeDecode.slt d a b
  | .sltu d a b => EncodeDecode.sltu d a b | .mulC d a b => EncodeDecode.mulC d a b
  | .mulhC d a b => EncodeDecode.mulhC d a b | .mulhu d a b => EncodeDecode.mulhu d a b
  | .divC d a b => EncodeDecode.divC d a b | .divu d a b => EncodeDecode.divu d a b
  | .remC d a b => EncodeDecode.remC d a b | .remu d a b => EncodeDecode.remu d a b
  | .minC d a b => EncodeDecode.minC d a b | .maxC d a b => EncodeDecode.maxC d a b
  | .clzC d a => EncodeDecode.clzC d a | .popcC d a => EncodeDecode.popcC d a
  | .addi d a i => EncodeDecode.addi d a i | .andi d a i => EncodeDecode.andi d a i
  | .ori d a i => EncodeDecode.ori d a i | .xori d a i => EncodeDecode.xori d a i
  | .slli d a i => EncodeDecode.slli d a i | .srli d a i => EncodeDecode.srli d a i
  | .srai d a i => EncodeDecode.srai d a i | .slti d a i => EncodeDecode.slti d a i
  | .lui d i => EncodeDecode.lui d i | .ldC d a v m s z q => EncodeDecode.ldC d a v m s z q
  | .lds d a v m s z q => EncodeDecode.lds d a v m s z q | .stC d a v m s z q => EncodeDecode.stC d a v m s z q
  | .aadd d a v m s z q => EncodeDecode.aadd d a v m s z q | .amin d a v m s z q => EncodeDecode.amin d a v m s z q
  | .amax d a v m s z q => EncodeDecode.amax d a v m s z q | .axchg d a v m s z q => EncodeDecode.axchg d a v m s z q
  | .casC d a v m s z q => EncodeDecode.casC d a v m s z q | .fenceC s => EncodeDecode.fenceC s
  | .reclaimC d a b => EncodeDecode.reclaimC d a b | .vwaitC d a b => EncodeDecode.vwaitC d a b
  | .beq a b f => EncodeDecode.beq a b f | .bne a b f => EncodeDecode.bne a b f
  | .blt a b f => EncodeDecode.blt a b f | .bge a b f => EncodeDecode.bge a b f
  | .bltu a b f => EncodeDecode.bltu a b f | .bgeu a b f => EncodeDecode.bgeu a b f
  | .jal d f => EncodeDecode.jal d f | .jalr d a i => EncodeDecode.jalr d a i
  | .recv d a b => EncodeDecode.recv d a b | .send d a => EncodeDecode.send d a | .bind d a => EncodeDecode.bind d a
  | .spawn d a b => EncodeDecode.spawn d a b | .yield => EncodeDecode.yield | .sleep a => EncodeDecode.sleep a
  | .kill d a => EncodeDecode.kill d a | .cfgw d a b => EncodeDecode.cfgw d a b
  | .cfgmc d a b => EncodeDecode.cfgmc d a b | .cfgcrc d a => EncodeDecode.cfgcrc d a
  | .cfgcom d => EncodeDecode.cfgcom d | .cfgrb d => EncodeDecode.cfgrb d | .place d a b => EncodeDecode.place d a b
  | .fuseq d a => EncodeDecode.fuseq d a | .sigchk d a b => EncodeDecode.sigchk d a b
  | .copyC d a q r s f => EncodeDecode.copyC d a q r s f
  | .gatherC d a b q r s f => EncodeDecode.gatherC d a b q r s f | .armC d a q r s => EncodeDecode.armC d a q r s
  | .disarmC d a => EncodeDecode.disarmC d a | .mmaC d a q s => EncodeDecode.mmaC d a q s
  | .aucgoC d a q s => EncodeDecode.aucgoC d a q s | .aucgetC d => EncodeDecode.aucgetC d
  | .crc32c d a b => EncodeDecode.crc32c d a b | .rtag d a b => EncodeDecode.rtag d a b
  | .runtag d => EncodeDecode.runtag d | .resume d a => EncodeDecode.resume d a | .csrr d c => EncodeDecode.csrr d c
  | .csrw d a c => EncodeDecode.csrw d a c | .trapC c => EncodeDecode.trapC c | .eret => EncodeDecode.eret
  | .halt d a => EncodeDecode.halt d a | .bell d a => EncodeDecode.bell d a | .wfi => EncodeDecode.wfi
  | .quiesce d a => EncodeDecode.quiesce d a | .xinv asid => EncodeDecode.xinv asid
  | .tokenArrival => EncodeDecode.tokenArrival | .poolOp => EncodeDecode.poolOp
  | .grantArrival => EncodeDecode.grantArrival | .replay => EncodeDecode.replay
  | .converterPairing => EncodeDecode.converterPairing | .agnAssign => EncodeDecode.agnAssign
  | .streamComplete => EncodeDecode.streamComplete | .triggerToken => EncodeDecode.triggerToken
  | .transformReturn => EncodeDecode.transformReturn | .arrayCommandStart => EncodeDecode.arrayCommandStart
  | .mmacRowStart => EncodeDecode.mmacRowStart | .arrayCommandComplete => EncodeDecode.arrayCommandComplete
  | .registrarServe => EncodeDecode.registrarServe | .auctionRound => EncodeDecode.auctionRound
  | .gateToken => EncodeDecode.gateToken | .walkStart => EncodeDecode.walkStart | .walkStep => EncodeDecode.walkStep
  | .homeAccess who => EncodeDecode.homeAccess who | .memoryResponse => EncodeDecode.memoryResponse
  | .contextReclaim => EncodeDecode.contextReclaim
  | .ingressWrite window image => EncodeDecode.ingressWrite window image | .deanSelect => EncodeDecode.deanSelect
  | .loaderReport => EncodeDecode.loaderReport | .bankAssign => EncodeDecode.bankAssign
  | .drain => EncodeDecode.drain | .imageUnload => EncodeDecode.imageUnload
  | .timetableSample => EncodeDecode.timetableSample | .powerEstimate => EncodeDecode.powerEstimate
  | .thermalTrip => EncodeDecode.thermalTrip | .thermalRecovery => EncodeDecode.thermalRecovery
  | .proctorExpiry => EncodeDecode.proctorExpiry | .tileSave => EncodeDecode.tileSave
  | .bellStuck => EncodeDecode.bellStuck | .eraserDone => EncodeDecode.eraserDone
  | .bucketRequest => EncodeDecode.bucketRequest | .bucketCompletion => EncodeDecode.bucketCompletion
  | .hostMessage => EncodeDecode.hostMessage | .childLaunch => EncodeDecode.childLaunch
  | .deanChannelReserved => EncodeDecode.deanChannelReserved | .vcDelivery => EncodeDecode.vcDelivery
  | .quantumExpiry => EncodeDecode.quantumExpiry | .sleepExpiry => EncodeDecode.sleepExpiry
  | .fetchBlock => EncodeDecode.fetchBlock | .packetHop => EncodeDecode.packetHop
  | .flitRetry => EncodeDecode.flitRetry
  | .hostApertureAccess port off load data => EncodeDecode.hostApertureAccess port off load data
  | .tail v => EncodeDecode.tail v | .mailboxWrite off v => EncodeDecode.mailboxWrite off v
  | .hostQset => EncodeDecode.hostQset | .hostWbind => EncodeDecode.hostWbind
  | .hostPortten => EncodeDecode.hostPortten | .hostPowcap => EncodeDecode.hostPowcap
  | .hostMcast => EncodeDecode.hostMcast | .hostAsid => EncodeDecode.hostAsid | .hostGate => EncodeDecode.hostGate
  | .hostKey => EncodeDecode.hostKey | .hostUnload => EncodeDecode.hostUnload | .hostAbort => EncodeDecode.hostAbort
  | .hostResume => EncodeDecode.hostResume | .hostPreempt => EncodeDecode.hostPreempt
  | .hostRestore => EncodeDecode.hostRestore | .hostDiscard => EncodeDecode.hostDiscard
  | .hostMeter => EncodeDecode.hostMeter | .hostExport => EncodeDecode.hostExport
  | .hostImport => EncodeDecode.hostImport | .hostProctor => EncodeDecode.hostProctor
  | .hostMapget => EncodeDecode.hostMapget | .hostBanks => EncodeDecode.hostBanks
  | .badCommand op => EncodeDecode.badCommand op | .reset rom => EncodeDecode.reset rom
  | .badOp w => EncodeDecode.badOp w | .peerAccess off load op => EncodeDecode.peerAccess off load op

/-! ## A slot word from its fields (R31, R36, R37) -/

/-- Neighbouring fields of a word, the higher one first, are one field. -/
theorem extract_join {k s s' n m : Nat} (w : BitVec k) (h : s' = s + n) :
    w.extractLsb' s' m ++ w.extractLsb' s n = w.extractLsb' s (m + n) :=
  BitVec.extractLsb'_append_extractLsb'_eq_extractLsb' h

theorem packD_unpackD (w : BitVec 64) : packD (w.extractLsb' 56 8).toNat (unpackD w) = w := by
  simp only [packD, unpackD, BitVec.ofNat_toNat, BitVec.setWidth_eq, extract_join]
  exact extract_all w

theorem packM_unpackM (w : BitVec 64) : packM (w.extractLsb' 56 8).toNat (unpackM w) = w := by
  simp only [packM, unpackM, BitVec.ofNat_toNat, BitVec.setWidth_eq, extract_join]
  exact extract_all w

theorem packE_unpackE (w : BitVec 64) : packE (w.extractLsb' 56 8).toNat (unpackE w) = w := by
  simp only [packE, unpackE, BitVec.ofNat_toNat, BitVec.setWidth_eq, extract_join]
  exact extract_all w

/-- The fields that a layout reads make up the word, whichever layout is chosen (R30). -/
theorem packSlot_unpackSlot (n : Nat) (w : BitVec 64) : packSlot (w.extractLsb' 56 8).toNat (unpackSlot n w) = w := by
  unfold unpackSlot
  split
  · exact packM_unpackM w
  · split
    · exact packE_unpackE w
    · exact packD_unpackD w

/-- The row of an opcode is an instruction of that opcode and those fields (R38). -/
theorem slotWord_of_slotInstr {op : Nat} {f : SlotWord} {i : Instr} (hop : op < 256) (h : slotInstr op f = some i) :
    i.slotWord = some (op, f) := by
  cases f with
  | d w => interval_cases op <;> cases h <;> rfl
  | m w => interval_cases op <;> cases h <;> rfl
  | e w => interval_cases op <;> cases h <;> rfl

/-- A slot word that decodes is that of a row, whose fields R33 accepts. -/
theorem decodeFabric_cases {w : BitVec 64} {i : Instr} (h : decodeFabric w = .ok i) :
    let op := (w.extractLsb' 56 8).toNat
    slotInstr op (unpackSlot op w) = some i ∧ (unpackSlot op w).ok op = true := by
  unfold decodeFabric at h
  dsimp only at h ⊢
  split at h
  · cases h
  · next j hrow =>
    split at h
    · next hok => cases h; exact ⟨hrow, hok⟩
    · cases h

theorem encode_of_decodeFabric {w : BitVec 64} {i : Instr} (h : decodeFabric w = .ok i) :
    encodeFabric i = some w ∧ i.wf = true := by
  obtain ⟨hrow, hok⟩ := decodeFabric_cases h
  have hs := slotWord_of_slotInstr (w.extractLsb' 56 8).isLt hrow
  exact ⟨by simp only [encodeFabric, hs, Option.map_some, packSlot_unpackSlot], by simpa only [Instr.wf, hs] using hok⟩

/-! ## A control-core word from its fields (R40, R42) -/

/-- A field put back where it was read gives the word with the bits of the field alone. -/
theorem setWidth_extract_shift (w : BitVec 32) (s n : Nat) :
    (w.extractLsb' s n).setWidth 32 <<< s = w &&& ((BitVec.allOnes n).setWidth 32 <<< s) := by
  ext i hi
  by_cases h : i < s
  · simp [h]
  · have e : s + (i - s) = i := by omega
    by_cases hn : i - s < n <;> simp [h, hn, e, BitVec.getLsbD_eq_getElem hi]

/-- The same for the lowest field. -/
theorem setWidth_extract_low (w : BitVec 32) (n : Nat) :
    (w.extractLsb' 0 n).setWidth 32 = w &&& (BitVec.allOnes n).setWidth 32 := by
  simpa using setWidth_extract_shift w 0 n

/-- A word whose opcode is `op` and whose bits outside the opcode and `m` are zero is its opcode's bits and those of `m`. -/
theorem opcode_or_fields {w m z : BitVec 32} {op : Nat} (hop : (w.extractLsb' 25 7).toNat = op) (hz : w &&& z = 0#32)
    (hall : 0xFE000000#32 ||| m ||| z = BitVec.allOnes 32) : BitVec.ofNat 32 (op * 2 ^ 25) ||| (w &&& m) = w := by
  have hbase : BitVec.ofNat 32 (op * 2 ^ 25) = w &&& 0xFE000000#32 := by
    have := setWidth_extract_shift w 25 7
    rw [show (0xFE000000#32) = (BitVec.allOnes 7).setWidth 32 <<< 25 by decide, ← this, ← hop]
    apply BitVec.eq_of_toNat_eq
    simp [Nat.shiftLeft_eq]
  calc BitVec.ofNat 32 (op * 2 ^ 25) ||| (w &&& m)
      = w &&& (0xFE000000#32 ||| m ||| z) := by
        rw [BitVec.and_or_distrib_left, hz, BitVec.and_or_distrib_left, hbase, BitVec.or_zero]
    _ = w := by rw [hall, BitVec.and_allOnes]

/-- The same of a word that has no field but its opcode. -/
theorem opcode_alone {w : BitVec 32} {op : Nat} (hop : (w.extractLsb' 25 7).toNat = op) (hz : w &&& 0x1FFFFFF#32 = 0#32) :
    BitVec.ofNat 32 (op * 2 ^ 25) = w := by
  simpa using opcode_or_fields (m := 0#32) hop hz (by decide)

/-- The rows whose fields fill the word: they have no zero fields (R40, R42). -/
def fullRows : List Nat := [24, 25, 26, 27, 31, 32, 56, 57, 58, 59, 60, 61, 62, 63, 97]

/-- The rows that have no field but the opcode: YIELD, ERET and WFI (R42). -/
def bareRows : List Nat := [68, 99, 102]

section
variable {w : BitVec 32} {i : Instr}

theorem encode_of_fullRow (hrow : (w.extractLsb' 25 7).toNat ∈ fullRows) (h : coreInstr w = some i) : encodeCore i = some w := by
  unfold coreInstr at h
  generalize hop : (w.extractLsb' 25 7).toNat = op at h hrow
  unfold fullRows at hrow
  fin_cases hrow
  all_goals
    cases h
    refine congrArg some (?_ : _ = w)
    simp only [setWidth_extract_shift, setWidth_extract_low, BitVec.or_assoc, ← BitVec.and_or_distrib_left]
    exact opcode_or_fields hop BitVec.and_zero (by decide)

theorem encode_of_bareRow (hrow : (w.extractLsb' 25 7).toNat ∈ bareRows) (h : coreInstr w = some i) : encodeCore i = some w := by
  unfold coreInstr at h
  generalize hop : (w.extractLsb' 25 7).toNat = op at h hrow
  unfold bareRows at hrow
  fin_cases hrow
  all_goals
    obtain ⟨hz, heq⟩ := Option.ite_none_right_eq_some.mp h
    cases heq
    exact congrArg some (opcode_alone hop hz)

/-- A core word that decodes is put together again: every row that is neither full nor bare asks that its zero fields are zero. -/
theorem encode_of_coreInstr (h : coreInstr w = some i) : encodeCore i = some w := by
  by_cases hfull : (w.extractLsb' 25 7).toNat ∈ fullRows
  · exact encode_of_fullRow hfull h
  by_cases hbare : (w.extractLsb' 25 7).toNat ∈ bareRows
  · exact encode_of_bareRow hbare h
  unfold coreInstr at h
  generalize hop : (w.extractLsb' 25 7).toNat = op at h hfull hbare
  have hlt : op < 128 := hop ▸ (w.extractLsb' 25 7).isLt
  interval_cases op
  all_goals simp [fullRows, bareRows] at hfull hbare
  any_goals cases h -- the reserved opcodes
  all_goals
    obtain ⟨hz, heq⟩ := Option.ite_none_right_eq_some.mp h
    cases heq
    refine congrArg some (?_ : _ = w)
    simp only [setWidth_extract_shift, setWidth_extract_low, BitVec.or_assoc, ← BitVec.and_or_distrib_left]
    exact opcode_or_fields hop hz (by decide)

end

theorem decodeCore_eq_ok {w : BitVec 32} {i : Instr} : decodeCore w = .ok i ↔ coreInstr w = some i := by
  unfold decodeCore
  split
  · next j hj => simp [hj]
  · next hn =>
    dsimp only
    split <;> simp [hn]

/-- The opcode of a core word as the quotient that R43's errors give. -/
theorem toNat_opcode (w : BitVec 32) : (w.extractLsb' 25 7).toNat = w.toNat / 2 ^ 25 := by
  have := w.isLt
  rw [BitVec.extractLsb'_toNat, Nat.shiftRight_eq_div_pow]
  omega

/-- Every core word decodes, or is rejected by its opcode or by its zero fields (R43). -/
theorem decodeCore_total (w : BitVec 32) :
    decodeCore w = .error (.badOp (w.toNat / 2 ^ 25)) ∨ decodeCore w = .error (.badField (w.toNat / 2 ^ 25)) ∨
      ∃ i, decodeCore w = .ok i := by
  rw [← toNat_opcode]
  unfold decodeCore
  split
  · next i hi => exact .inr (.inr ⟨i, rfl⟩)
  · dsimp only
    split
    · exact .inr (.inl rfl)
    · exact .inl rfl

/-- Settles O56: instruction by instruction one way, and the other way because a word is put together again from its
opcode, the fields read and the zero fields. -/
theorem encodingsAgree : Obligations.EncodingsAgree :=
  ⟨decode_of_encode, fun _ _ => encode_of_decodeFabric, fun _ _ h => encode_of_coreInstr (decodeCore_eq_ok.mp h),
    decodeCore_total⟩

/-- Settles O55: each word is decoded, by evaluation. -/
theorem wordsDecode : Obligations.WordsDecode := by
  unfold Obligations.WordsDecode
  exact ⟨rfl, rfl, rfl, rfl, rfl, rfl, rfl, rfl, rfl, rfl, rfl, rfl⟩

end Sys2Proof.Laws

/-! PROOFS. Every step goes on (R43, R351, R354): each instruction has a next state where its turn places it, so that only
the failed boot stops the machine. -/

namespace Sys2Proof.Machine

/-! ## Each instruction goes on where its turn places it -/

/-- A fabric row goes on at a firing. -/
theorem exec_next_of_firing {i : Instr} {f : Nat × SlotWord} (hi : i.slotWord = some f) (s : State) (t : Nat) (p : Pairing) :
    ∃ z, exec i { s with focus := .firing t p } = .next z := by
  cases i
  all_goals cases hi
  all_goals exact ⟨_, rfl⟩

/-- A control-core row, BAD_OP among them, goes on at a task. -/
theorem exec_next_of_task {i : Instr} {w : BitVec 32} (hi : encodeCore i = some w) (s : State) (c k : Nat) :
    ∃ z, exec i { s with focus := .task c k } = .next z := by
  cases i
  all_goals cases hi
  all_goals exact ⟨_, rfl⟩

theorem commanding_next (s : State) (f : CmdArgs → State) : ∃ z, commanding s f = .next z := by
  unfold commanding
  repeat' split
  all_goals exact ⟨_, rfl⟩

/-- An event of the device or a host command goes on anywhere: where it does not apply, it leaves the state as it is. -/
theorem exec_next_of_event {i : Instr} (hslot : i.slotWord = none) (hcore : encodeCore i = none) (s : State) :
    ∃ z, exec i s = .next z := by
  cases i
  all_goals cases hslot
  all_goals cases hcore
  case hostQset | hostWbind | hostExport | hostImport | hostPortten | hostPowcap | hostMcast | hostAsid | hostGate |
      hostKey | hostUnload | hostProctor | hostAbort | hostResume | hostPreempt | hostDiscard | hostRestore |
      hostMeter | hostMapget | hostBanks | badCommand =>
    exact commanding_next _ _
  all_goals
    unfold exec
    simp only [execPoolOp, execGrantArrival, execTokenArrival, execMemoryResponse, execWalkStart, execWalkStep,
      execXinv, execConverterPairing, execArrayCommandStart, execMmacRowStart, execArrayCommandComplete,
      execAgnAssign, execStreamComplete, execTriggerToken, execTransformReturn, execGateToken, execAuctionRound,
      execRegistrarServe, execTileSave, execBellStuck, execEraserDone, execDrain, execIngressWrite,
      execContextReclaim, execImageUnload, execDeanSelect, execLoaderReport, execBankAssign, execHostMessage,
      execChildLaunch, execBucketRequest, execBucketCompletion, execDeanChannelReserved, execVcDelivery,
      execFetchBlock, execSleepExpiry, execQuantumExpiry, execPacketHop, execFlitRetry, execTimetableSample,
      execPowerEstimate, execThermalTrip, execThermalRecovery, execProctorExpiry, execTail, execMailboxWrite,
      execHostApertureAccess, execPeerAccess, execReset, execReplay, execHomeAccess]
    repeat' split
    all_goals exact ⟨_, rfl⟩

/-! ## What a turn hands to `exec` -/

/-- A firing that a tile takes is of a fabric row, and the focus names it. -/
theorem State.takeFiring_cases {s y : State} {t : Nat} {i : Instr} (h : s.takeFiring t = some (y, i)) :
    (∃ f, i.slotWord = some f) ∧ ∃ (z : State) (p : Pairing), y = { z with focus := .firing t p } := by
  unfold State.takeFiring at h
  dsimp only at h
  split at h
  · cases h
  · split at h
    · cases h
    · split at h
      · cases h
      · next hword =>
        obtain ⟨rfl, rfl⟩ := Prod.mk.inj (Option.some.inj h)
        obtain ⟨f, hf, -⟩ := Option.map_eq_some_iff.mp (Laws.encode_of_decodeFabric hword).1
        exact ⟨⟨f, hf⟩, _, _, rfl⟩

/-- What a core runs for a word is that word's instruction, or BAD_OP of it. -/
theorem encodeCore_coreStep (w : BitVec 32) : encodeCore (coreStep w) = some w := by
  unfold coreStep
  split
  · next i hi => exact Laws.encode_of_coreInstr (Laws.decodeCore_eq_ok.mp hi)
  · rfl

/-- A core's turn that runs an instruction runs the word of a task, which the focus names. -/
theorem State.coreTurn_run {s y : State} {c : Nat} {i : Instr} (h : s.coreTurn c = .run y i) :
    (∃ w, encodeCore i = some w) ∧ ∃ (z : State) (k : Nat), y = { z with focus := .task c k } := by
  unfold State.coreTurn at h
  dsimp only at h
  repeat' split at h
  all_goals cases h
  all_goals exact ⟨⟨_, encodeCore_coreStep _⟩, _, _, rfl⟩

/-- A command record stands for a host command. -/
theorem commandOf_isCommand (op : Nat) : (commandOf op).slotWord = none ∧ encodeCore (commandOf op) = none := by
  unfold commandOf
  split <;> exact ⟨rfl, rfl⟩

theorem State.nextCommand_cases {s y : State} {i : Instr} (h : s.nextCommand = some (y, i)) :
    i.slotWord = none ∧ encodeCore i = none := by
  unfold State.nextCommand at h
  dsimp only at h
  split at h
  · cases h
  · obtain ⟨-, rfl⟩ := Prod.mk.inj (Option.some.inj h)
    split
    · exact ⟨rfl, rfl⟩
    · exact commandOf_isCommand _

theorem isEvent_cases {i : Instr} (h : isEvent i = true) : i.slotWord = none ∧ encodeCore i = none := by
  simp only [isEvent, Bool.and_eq_true, Option.isNone_iff_eq_none] at h
  exact h.1

/-! ## The step -/

theorem closeOutcome_next_of_next {o : Host.Outcome State Fault Refusal} (h : ∃ z, o = .next z) : ∃ z, closeOutcome o = .next z := by
  obtain ⟨z, rfl⟩ := h
  exact ⟨z.close, rfl⟩

/-- A step whose turn may be taken goes on (R354). -/
theorem step_goesOn {s : State} (h : s.dean.mail.boot ≠ .failed ∨ afterFailure s.nextTurn.1.actor = true) :
    Safety.goesOn s := by
  have htaken : ¬ (decide (s.dean.mail.boot = .failed) && !afterFailure s.nextTurn.1.actor) = true := by
    rcases h with h | h <;> simp [h]
  unfold Safety.goesOn step
  dsimp only
  rw [if_neg htaken]
  split
  · split
    · exact ⟨_, rfl⟩
    · next hfire =>
      obtain ⟨⟨f, hf⟩, z, p, rfl⟩ := State.takeFiring_cases hfire
      exact closeOutcome_next_of_next (exec_next_of_firing hf z _ p)
  · split
    · exact ⟨_, rfl⟩
    · next hturn =>
      obtain ⟨⟨w, hw⟩, z, k, rfl⟩ := State.coreTurn_run hturn
      exact closeOutcome_next_of_next (exec_next_of_task hw z _ k)
  · split
    · next hevent =>
      obtain ⟨hslot, hcore⟩ := isEvent_cases hevent
      exact closeOutcome_next_of_next (exec_next_of_event hslot hcore _)
    · exact ⟨_, rfl⟩
  · split
    · exact ⟨_, rfl⟩
    · next hcommand =>
      obtain ⟨hslot, hcore⟩ := State.nextCommand_cases hcommand
      exact closeOutcome_next_of_next (exec_next_of_event hslot hcore _)
  · exact ⟨_, rfl⟩
  · exact ⟨_, rfl⟩
  · exact ⟨_, rfl⟩

theorem step_of_failed {s : State} (hboot : s.dean.mail.boot = .failed) (h : afterFailure s.nextTurn.1.actor = false) :
    step s = .fault .bootFailed := by
  simp [step, hboot, h]

theorem step_ne_refused (s : State) (r : Refusal) : step s ≠ .refused r := by
  by_cases h : s.dean.mail.boot ≠ .failed ∨ afterFailure s.nextTurn.1.actor = true
  · obtain ⟨t, ht⟩ := step_goesOn h
    simp [ht]
  · simp only [ne_eq, not_or, not_not, Bool.not_eq_true] at h
    simp [step_of_failed h.1 h.2]

/-- Settles O58: the turn that a step takes places each instruction where it has a next state, and a reset and a write of
TAIL are taken after a failed boot too. -/
theorem everyStepGoesOn : Obligations.EveryStepGoesOn := by
  refine ⟨fun s h => step_goesOn (.inl h), step_ne_refused, ?_, ?_⟩
  · intro s dl u k rom rest hturn
    exact step_goesOn (.inr (by rw [State.nextTurn_of_agenda hturn]; rfl))
  · intro s dl u k v rest hturn
    exact step_goesOn (.inr (by rw [State.nextTurn_of_agenda hturn]; rfl))

end Sys2Proof.Machine

/-! PROOFS. The frame of an element-wise firing (R35, R133, R143): what the firing's operations leave alone, one by one, and
the executor's rows matched with the rows of the claims. -/

namespace Sys2Proof.Machine

/-! ## What a firing leaves alone -/

/-- From `s` to `z`, a firing of tile `t` has at most held the tile, changed contexts and sent tokens. -/
structure FiringFrame (t : Nat) (s z : State) : Prop where
  mem : z.mem = s.mem
  blocks : z.blocks = s.blocks
  waits : z.waits = s.waits
  misses : z.misses = s.misses
  walks : z.walks = s.walks
  clusters : z.clusters = s.clusters
  domains : z.domains = s.domains
  intr : z.intr = s.intr
  cycle : z.cycle = s.cycle
  others : ∀ u, u ≠ t → z.tile u = s.tile u
  own : { z.tile t with lastRound := 0 } = { s.tile t with lastRound := 0 }
  net : ∃ l, z.net = s.net ++ l
  egress : z.egress = s.egress
  outputs : z.outputs = s.outputs
  dean : { z.dean with ctxs := [] } = { s.dean with ctxs := [] }

namespace FiringFrame

theorem refl (t : Nat) (s : State) : FiringFrame t s s :=
  ⟨rfl, rfl, rfl, rfl, rfl, rfl, rfl, rfl, rfl, fun _ _ => rfl, rfl, ⟨[], by simp⟩, rfl, rfl, rfl⟩

theorem trans {t : Nat} {s y z : State} (h : FiringFrame t s y) (g : FiringFrame t y z) : FiringFrame t s z where
  mem := g.mem.trans h.mem
  blocks := g.blocks.trans h.blocks
  waits := g.waits.trans h.waits
  misses := g.misses.trans h.misses
  walks := g.walks.trans h.walks
  clusters := g.clusters.trans h.clusters
  domains := g.domains.trans h.domains
  intr := g.intr.trans h.intr
  cycle := g.cycle.trans h.cycle
  others u hu := (g.others u hu).trans (h.others u hu)
  own := g.own.trans h.own
  net := by
    obtain ⟨l, hl⟩ := h.net
    obtain ⟨m, hm⟩ := g.net
    exact ⟨l ++ m, by rw [hm, hl, List.append_assoc]⟩
  egress := g.egress.trans h.egress
  outputs := g.outputs.trans h.outputs
  dean := g.dean.trans h.dean

theorem hold (s : State) (t n : Nat) : FiringFrame t s (s.hold t n) where
  __ := refl t s
  others u hu := State.tile_setTile_other s t u _ hu.symm
  own := by rw [State.hold, State.updTile_eq, State.tile_setTile]

theorem updCtx (t : Nat) (s : State) (c : Nat) (f : Ctx → Ctx) : FiringFrame t s (s.updCtx c f) := { refl t s with }

theorem addFlags (t : Nat) (s : State) (c fl : Nat) : FiringFrame t s (s.addFlags c fl) := updCtx t s c _

theorem sendFrom (t : Nat) (s : State) (u : Nat) (p : Packet) : FiringFrame t s (s.sendFrom u p) :=
  { refl t s with net := ⟨_, rfl⟩ }

/-- The replica that a token goes to may be bound to its context on the way (R302). -/
theorem redirect (t : Nat) (s : State) (c src dst : Nat) : FiringFrame t s (s.redirect c src dst).1 := by
  unfold State.redirect
  split
  · exact refl t s
  · split
    · exact refl t s
    · dsimp only
      split
      · exact refl t s
      · dsimp only
        exact updCtx t s c _

theorem post (t : Nat) (s : State) (u : Nat) (e : Edge) (tok : Token) (d : Dest × Nat × Nat) :
    FiringFrame t s (s.post u e tok d) := by
  unfold State.post
  split
  · exact (redirect t s tok.ctx u _).trans (sendFrom t _ u _)
  · exact sendFrom t s u _

theorem postAll (t : Nat) (s : State) (u slot : Nat) (outs : List Out) : FiringFrame t s (s.postAll u slot outs) := by
  induction outs generalizing s with
  | nil => exact refl t s
  | cons o os ih =>
    unfold State.postAll
    split
    · exact ih s
    · exact (post t s u _ _ _).trans (ih _)

/-- Where a target leads depends on no context. -/
theorem resolve {t : Nat} {s z : State} (h : FiringFrame t s z) (u : Nat) (g : BitVec 18) : z.resolve u g = s.resolve u g := by
  have hfused : z.fused = s.fused := funext fun d => congrArg (List.contains · d) (congrArg Dean.fused h.dean :)
  have hregion : z.regionAt u = s.regionAt u := by
    have hregions : z.dean.regions = s.dean.regions := (congrArg Dean.regions h.dean :)
    rw [State.regionAt, State.regionAt, hfused, hregions]
  unfold State.resolve
  rw [hregion, hfused]

/-- An emission all of whose targets resolve only sends (R35). -/
theorem emit {t : Nat} {s : State} {u slot ctx itag : Nat} {outs : List Out}
    (h : ∀ o ∈ outs, (s.resolve u o.tgt).isSome = true) : FiringFrame t s (s.emit u slot ctx itag outs) := by
  rw [State.emit_resolved s u slot ctx itag outs h]
  exact postAll t s u slot _

end FiringFrame

/-! ## The result of a firing stays within the last tag (R17, R97) -/

theorem Res.token_lo_len {r : Res} {p : Pairing} {fwd : Bool} {tok : Token} (h : r.token p fwd = some tok) (hlen : r.vals.length = p.len) :
    tok.lo = p.itag.toNat ∧ tok.len = p.len := by
  unfold Res.token Res.tokenAt at h
  split at h
  · split at h
    · cases h; exact ⟨rfl, rfl⟩
    · cases h
  · cases h; exact ⟨rfl, hlen⟩

theorem Token.wraps_of_le {t : Token} (h : t.lo + t.len ≤ 2 ^ 32) : t.wraps = false := by
  simp only [Token.wraps, Bool.and_eq_false_iff, decide_eq_false_iff_not]
  exact .inr (by omega)

theorem mapLanes_length (f : Nat → Nat → Option Nat × Nat) (xs ys : List (Option Nat)) :
    (mapLanes f xs ys).1.length = min xs.length ys.length := by
  induction xs generalizing ys with
  | nil => simp [mapLanes]
  | cons x xs ih =>
    cases ys with
    | nil => simp [mapLanes]
    | cons y ys =>
      unfold mapLanes
      dsimp only
      split <;> simp [ih]

section
variable {s : State} {t : Nat} {p : Pairing} {ts : List (Nat × BitVec 18)}

/-- A result within the last tag is emitted and nothing else. -/
theorem FiringFrame.emitRes {fwd : Bool} {r : Res} (hlen : r.vals.length = p.len) (htag : p.itag.toNat + p.len ≤ 2 ^ 32)
    (hres : ∀ g ∈ ts, (s.resolve t g.2).isSome = true) : FiringFrame t s (s.emitRes t p ts fwd r) := by
  unfold State.emitRes
  split
  · exact refl t s
  · next tok htok =>
    obtain ⟨hlo, hl⟩ := Res.token_lo_len htok hlen
    have hw : tok.wraps = false := Token.wraps_of_le (by rw [hlo, hl]; exact htag)
    rw [State.emitRun, if_neg (by simp [hw])]
    refine emit fun o ho => ?_
    obtain ⟨g, hg, rfl⟩ := List.mem_map.mp ho
    exact hres g hg

/-- An element-wise firing on whole operands that pass its checks is held, ORs its flags and sends its run. -/
theorem FiringFrame.lanewise {w : DWord} {o : LaneOp} (hl : p.left.act ≠ .fault ∧ ∀ i < p.len, p.left.has i = true)
    (hr : o.two = true → w.kr = 0 → p.right.act ≠ .fault ∧ ∀ i < p.len, p.right.has i = true)
    (hok : o.ok p.left p.right = none)
    (hscale : (o.rule.apply p.left.scale.toInt (if o.two && w.kr = 0 then some p.right.scale.toInt else none)).isSome = true)
    (hres : ∀ g ∈ s.targets t w.nt w.t1 w.t0, (s.resolve t g.2).isSome = true) (htag : p.itag.toNat + p.len ≤ 2 ^ 32) :
    FiringFrame t s (s.lanewise t p w o) := by
  obtain ⟨sc, hsc⟩ := Option.isSome_iff_exists.mp hscale
  rw [State.lanewise, State.withLanes_full s t p w o.two o.out _ o.ok _ _ hl.1 hl.2 hr hok]
  simp only [Lanes.sl, Lanes.sr, hsc]
  have hheld (fl : Nat) := (hold s t (o.cls.cycles w.fmt.toNat p.len)).trans (addFlags t _ p.ctx fl)
  refine (hheld _).trans (emitRes ?_ htag fun g hg => ?_)
  · simp [mapLanes_length]
  · rw [(hheld _).resolve]
    exact hres g hg

end

/-! ## The rows of the claims and of the executor -/

/-- The row `i` fires element by element by `o`, which accepts the formats of `e` and has its scale rule. -/
structure FiresBy (i : Instr) (e : Claims.Element) (o : LaneOp) : Prop where
  runs : ∀ s, exec i s = firing s fun t p => s.lanewise t p e.w o
  two : o.two = e.two
  ok : ∀ l r : Token, e.left l.fmt.toNat = true → (e.two = true → e.w.kr = 0 → e.right r.fmt.toNat = true) →
    (i = .agen e.w → e.w.kr = 0) → o.ok l r = none
  scale : ∀ l r, o.rule.apply l r = e.scale l r

theorem sameFmt_none {w : DWord} {two : Bool} {l r : Token} (hl : l.fmt.toNat = w.fmt.toNat)
    (hr : two = true → w.kr = 0 → r.fmt.toNat = w.fmt.toNat) : sameFmt w two l r = none := by
  have hl := BitVec.eq_of_toNat_eq hl
  have hr (ht : two = true) (hk : w.kr = 0) : r.fmt = w.fmt := BitVec.eq_of_toNat_eq (hr ht hk)
  rw [sameFmt, if_neg (not_not.mpr hl), if_neg]
  simp only [Bool.and_eq_true, decide_eq_true_eq, not_and, not_not, and_imp]
  exact hr

theorem rightFmt_none {w : DWord} {set : Nat → Bool} {l r : Token} (hl : l.fmt.toNat = w.fmt.toNat)
    (hr : w.kr = 0 → set r.fmt.toNat = true) : rightFmt w set l r = none := by
  have hl := BitVec.eq_of_toNat_eq hl
  rw [rightFmt, if_neg (not_not.mpr hl), if_neg]
  simpa using hr

section
variable {i : Instr} {e : Claims.Element} {o : LaneOp} (hruns : ∀ s, exec i s = firing s fun t p => s.lanewise t p e.w o)
  (htwo : o.two = e.two) (hscale : ∀ l r, o.rule.apply l r = e.scale l r) (hleft : ∀ g, e.left g = decide (g = e.w.fmt.toNat))
include hruns htwo hscale hleft

/-- A row that takes both operands in the slot's format. -/
theorem FiresBy.of_sameFmt (hok : o.ok = sameFmt e.w true) (hright : ∀ g, e.right g = decide (g = e.w.fmt.toNat))
    (h2 : e.two = true) : FiresBy i e o where
  runs := hruns
  two := htwo
  ok l r hl hr _ := by
    rw [hok]
    exact sameFmt_none (by simpa [hleft] using hl) fun _ hk => by simpa [hright] using hr h2 hk
  scale := hscale

/-- A row that takes L alone. -/
theorem FiresBy.of_left (hok : o.ok = sameFmt e.w false) : FiresBy i e o where
  runs := hruns
  two := htwo
  ok l r hl _ _ := by
    rw [hok]
    exact sameFmt_none (by simpa [hleft] using hl) nofun
  scale := hscale

/-- A row that takes Rt in formats of its own. -/
theorem FiresBy.of_rightFmt (hok : o.ok = rightFmt e.w e.right) (h2 : e.two = true) : FiresBy i e o where
  runs := hruns
  two := htwo
  ok l r hl hr _ := by
    rw [hok]
    exact rightFmt_none (by simpa [hleft] using hl) (hr h2)
  scale := hscale

end

theorem ScaleRule.apply_eq (l : Int) (r : Option Int) : ScaleRule.eq.apply l r = Claims.scEq l r := by
  cases r <;> simp [ScaleRule.apply, Claims.scEq]

theorem ScaleRule.apply_eqZero (l : Int) (r : Option Int) : ScaleRule.eqZero.apply l r = Claims.scEqZero l r := by
  cases r <;> simp [ScaleRule.apply, Claims.scEqZero]

theorem ScaleRule.apply_sum (x l : Int) (r : Option Int) : (ScaleRule.sum x).apply l r = Claims.scSum x l r := by
  simp [ScaleRule.apply, scaleIn, Claims.scSum]

theorem ScaleRule.apply_diff (l : Int) (r : Option Int) : ScaleRule.diff.apply l r = Claims.scDiff l r := by
  simp [ScaleRule.apply, scaleIn, Claims.scDiff]

theorem ScaleRule.apply_left (l : Int) (r : Option Int) : ScaleRule.left.apply l r = Claims.scLeft l r := rfl

theorem ScaleRule.apply_zero (l : Int) (r : Option Int) : ScaleRule.zero.apply l r = Claims.scZero l r := rfl

/-- AGEN takes L in A64 and a token Rt in the slot's format. -/
theorem FiresBy.agen (w : DWord) {e : Claims.Element} (h : Claims.arithmetic (.agen w) = some e) :
    FiresBy (.agen w) e (laneAgen w) := by
  cases h
  refine ⟨fun _ => rfl, rfl, fun l r hl hr hk => ?_, ScaleRule.apply_zero⟩
  have hl : l.fmt = 30 := BitVec.eq_of_toNat_eq (by simpa using hl)
  have hr : r.fmt = w.fmt := BitVec.eq_of_toNat_eq (by simpa using hr rfl (hk rfl))
  simp [laneAgen, hl, hr]

theorem firesBy_of_arithmetic {i : Instr} {e : Claims.Element} (h : Claims.arithmetic i = some e) : ∃ o, FiresBy i e o := by
  cases i
  case add | sub | min | max | adds | subs =>
    cases h
    exact ⟨_, .of_sameFmt (fun _ => rfl) rfl ScaleRule.apply_eq (fun _ => rfl) rfl (fun _ => rfl) rfl⟩
  case mul | mulh | madk =>
    cases h
    exact ⟨_, .of_sameFmt (fun _ => rfl) rfl (ScaleRule.apply_sum _) (fun _ => rfl) rfl (fun _ => rfl) rfl⟩
  case div =>
    cases h
    exact ⟨_, .of_sameFmt (fun _ => rfl) rfl ScaleRule.apply_diff (fun _ => rfl) rfl (fun _ => rfl) rfl⟩
  case rem =>
    cases h
    exact ⟨_, .of_sameFmt (fun _ => rfl) rfl ScaleRule.apply_left (fun _ => rfl) rfl (fun _ => rfl) rfl⟩
  case cmp =>
    cases h
    exact ⟨_, .of_sameFmt (fun _ => rfl) rfl ScaleRule.apply_eqZero (fun _ => rfl) rfl (fun _ => rfl) rfl⟩
  case abs | neg =>
    cases h
    exact ⟨_, .of_left (fun _ => rfl) rfl ScaleRule.apply_left (fun _ => rfl) rfl⟩
  case agen w => exact ⟨_, .agen w h⟩
  all_goals cases h

theorem firesBy_of_bitwise {i : Instr} {e : Claims.Element} (h : Claims.bitwise i = some e) : ∃ o, FiresBy i e o := by
  cases i
  case and | or | xor | andn =>
    cases h
    exact ⟨_, .of_sameFmt (fun _ => rfl) rfl ScaleRule.apply_left (fun _ => rfl) rfl (fun _ => rfl) rfl⟩
  case not | bfx =>
    cases h
    exact ⟨_, .of_left (fun _ => rfl) rfl ScaleRule.apply_left (fun _ => rfl) rfl⟩
  case clz | popc =>
    cases h
    exact ⟨_, .of_left (fun _ => rfl) rfl ScaleRule.apply_zero (fun _ => rfl) rfl⟩
  case shl | shr | sar | rol =>
    cases h
    exact ⟨_, .of_rightFmt (fun _ => rfl) rfl ScaleRule.apply_left (fun _ => rfl) rfl rfl⟩
  case plane =>
    cases h
    exact ⟨_, .of_rightFmt (fun _ => rfl) rfl ScaleRule.apply_zero (fun _ => rfl) rfl rfl⟩
  all_goals cases h

theorem firesBy_of_floating {i : Instr} {e : Claims.Element} (h : Claims.floating i = some e) : ∃ o, FiresBy i e o := by
  cases i
  case fadd | fsub | fmul | fmak | fnmsk | fdiv | fcmp =>
    cases h
    exact ⟨_, .of_sameFmt (fun _ => rfl) rfl ScaleRule.apply_zero (fun _ => rfl) rfl (fun _ => rfl) rfl⟩
  case fmin | fmax =>
    cases h
    exact ⟨_, .of_sameFmt (fun _ => rfl) rfl ScaleRule.apply_eq (fun _ => rfl) rfl (fun _ => rfl) rfl⟩
  case fcpys =>
    cases h
    exact ⟨_, .of_sameFmt (fun _ => rfl) rfl ScaleRule.apply_left (fun _ => rfl) rfl (fun _ => rfl) rfl⟩
  case fsqrt | fclass | fround =>
    cases h
    exact ⟨_, .of_left (fun _ => rfl) rfl ScaleRule.apply_zero (fun _ => rfl) rfl⟩
  case fabs | fneg =>
    cases h
    exact ⟨_, .of_left (fun _ => rfl) rfl ScaleRule.apply_left (fun _ => rfl) rfl⟩
  case fscale =>
    cases h
    exact ⟨_, .of_rightFmt (fun _ => rfl) rfl ScaleRule.apply_zero (fun _ => rfl) rfl rfl⟩
  all_goals cases h

/-- Settles O21: each row fires by an operation of the executor on whole operands, which holds the tile, ORs flags and
sends its tokens. -/
theorem elementFrame : Obligations.ElementFrame := by
  intro s s' t p i e hrow hfocus hl hr hleft hright hscale hagen hres htag hexec
  obtain ⟨o, ho⟩ : ∃ o, FiresBy i e o := by
    rcases hrow with h | h | h
    · exact firesBy_of_arithmetic h
    · exact firesBy_of_bitwise h
    · exact firesBy_of_floating h
  have hs : s' = s.lanewise t p e.w o := by
    rw [ho.runs, firing_next _ hfocus] at hexec
    exact (Host.Outcome.next.inj hexec).symm
  have hok : o.ok p.left p.right = none := ho.ok _ _ hleft hright fun hi => hagen.resolve_left (by simp [hi])
  have f : FiringFrame t s s' := by
    rw [hs]
    refine .lanewise hl (ho.two ▸ hr) hok ?_ hres htag
    rw [ho.scale, ho.two]
    simpa using hscale
  exact ⟨fun a => by rw [f.mem], f.blocks, f.waits, f.misses, f.walks, f.clusters, f.domains, f.intr, f.cycle, f.others, f.own, f.net,
    f.egress, f.outputs, f.dean⟩

end Sys2Proof.Machine

/-! PROOFS. The frame of a store (R41, R217, R225, R226, R283): the bytes that a store leaves in its block, what the home does
to the blocks and to the rest of the machine when it performs one, and the two instructions that store. -/

namespace Sys2Proof.Machine

/-! ## The bytes of a store (R4, R226) -/

theorem storeItems_append (bs : List Byte) (xs ys : List (Nat × Byte)) :
    storeItems bs (xs ++ ys) = storeItems (storeItems bs xs) ys := by
  induction xs generalizing bs with
  | nil => rfl
  | cons x xs ih => exact ih _

theorem getD_set_other (bs : List Byte) {i j : Nat} (v : Byte) (h : j ≠ i) : (bs.set j v).getD i 0 = bs.getD i 0 := by
  simp [List.getD_eq_getElem?_getD, List.getElem?_set_ne h]

/-- An offset that a store does not name keeps its byte. -/
theorem storeItems_getD_other (bs : List Byte) {items : List (Nat × Byte)} {i : Nat} (h : ∀ x ∈ items, x.1 ≠ i) :
    (storeItems bs items).getD i 0 = bs.getD i 0 := by
  induction items generalizing bs with
  | nil => rfl
  | cons x xs ih =>
    obtain ⟨hx, hxs⟩ := List.forall_mem_cons.mp h
    rw [storeItems, ih _ hxs, getD_set_other _ _ hx]

/-- The last byte that a store names for an offset is the one that stays (R226). -/
theorem storeItems_getD_last (bs : List Byte) (l r : List (Nat × Byte)) {x : Nat × Byte} (hx : x.1 < bs.length)
    (h : ∀ y ∈ r, y.1 ≠ x.1) : (storeItems bs (l ++ x :: r)).getD x.1 0 = x.2 := by
  rw [storeItems_append, storeItems, storeItems_getD_other _ h]
  simp [List.getD_eq_getElem?_getD, storeItems_length, hx]

theorem toBytes_length (n v : Nat) : (toBytes n v).length = n := by
  induction n generalizing v with
  | zero => rfl
  | succ n ih => simp [toBytes, ih]

theorem toBytes_getD {n i : Nat} (v : Nat) (h : i < n) : (toBytes n v).getD i 0 = BitVec.ofNat 8 (v / 256 ^ i) := by
  induction n generalizing v i with
  | zero => omega
  | succ n ih =>
    cases i with
    | zero => simp [toBytes]
    | succ i =>
      rw [toBytes, List.getD_cons_succ, ih _ (by omega), Nat.div_div_eq_div_mul, pow_succ']

/-- Bytes stored one after another from an offset. -/
theorem storeItems_run (bs new : List Byte) (off k i : Nat) (h : off + k + new.length ≤ bs.length) :
    (storeItems bs ((new.zipIdx k).map fun p => (off + p.2, p.1))).getD i 0 =
      if off + k ≤ i ∧ i < off + k + new.length then new.getD (i - (off + k)) 0 else bs.getD i 0 := by
  induction new generalizing bs k with
  | nil => simp [storeItems]
  | cons x xs ih =>
    rw [List.length_cons] at h ⊢
    rw [List.zipIdx_cons, List.map_cons, storeItems, ih _ _ (by simp; omega)]
    rcases lt_trichotomy i (off + k) with hi | rfl | hi
    · rw [if_neg (by omega), if_neg (by omega), getD_set_other _ _ (by omega)]
    · rw [if_neg (by omega), if_pos (by omega)]
      simp [List.getD_eq_getElem?_getD, show off + k < bs.length by omega]
    · have hset := getD_set_other bs x (show off + k ≠ i by omega)
      obtain ⟨j, rfl⟩ : ∃ j, i = off + k + 1 + j := ⟨i - (off + k + 1), by omega⟩
      rw [show off + k + 1 + j - (off + k) = j + 1 by omega, show off + k + 1 + j - (off + (k + 1)) = j by omega, List.getD_cons_succ,
        hset]
      exact if_congr (by omega) rfl rfl

/-- The bytes of a number stored from an offset. -/
theorem storeItems_toBytes (bs : List Byte) {n off : Nat} (v i : Nat) (h : off + n ≤ bs.length) :
    (storeItems bs ((toBytes n v).zipIdx.map fun p => (off + p.2, p.1))).getD i 0 =
      if off ≤ i ∧ i < off + n then BitVec.ofNat 8 (v / 256 ^ (i - off)) else bs.getD i 0 := by
  rw [storeItems_run bs (toBytes n v) off 0 i (by rwa [toBytes_length]), toBytes_length]
  exact ite_congr rfl (fun hi => toBytes_getD v (by omega)) fun _ => rfl

/-! ## A block has 64 bytes under every key (R342) -/

theorem xtsBlocks_length (gb : Bool) (ks : List (BitVec 32)) (t : BitVec 128) (bs : List (List Byte)) :
    (xtsBlocks gb ks t bs).length = 16 * bs.length := by
  induction bs generalizing t with
  | nil => rfl
  | cons b bs ih => simp [xtsBlocks, bytes128, toBytes_length, ih]; omega

theorem underKey_length (b : Nat) (old : Option Nat) (key : Nat) {raw : List Byte} (h : raw.length = 64) :
    (underKey b old key raw).length = 64 := by
  unfold underKey
  split
  · exact h
  · split
    · exact h
    · simp [xtsUnit, xtsBlocks_length]

theorem State.blockBytes_length (s : State) (b key : Nat) : (s.blockBytes b key).length = 64 := by
  unfold State.blockBytes
  split
  · simp
  · exact underKey_length _ _ _ (cellsGet_length _ _ _)
  · exact underKey_length _ _ _ (cellsGet_length _ _ _)
  · exact cellsGet_length _ _ _

/-! ## Memory after a block is put -/

theorem cellsGet_congr {m n : List Host.Cell} {a k : Nat} (h : ∀ i < k, cellGet m (a + i) = cellGet n (a + i)) :
    cellsGet m a k = cellsGet n a k := by
  induction k generalizing a with
  | zero => rfl
  | succ k ih =>
    rw [cellsGet, cellsGet, show cellGet m a = cellGet n a from h 0 (by omega), ih fun i hi => ?_]
    simpa [Nat.add_assoc, Nat.add_comm 1 i] using h (i + 1) (by omega)

theorem cellsGet_eq_map (m : List Host.Cell) (a k : Nat) : cellsGet m a k = (List.range k).map fun i => cellGet m (a + i) := by
  induction k generalizing a with
  | zero => rfl
  | succ k ih =>
    simp [cellsGet, ih, List.range_succ_eq_map, Nat.add_assoc, Nat.add_comm 1, Function.comp_def]

theorem cellsGet_cellsSet {m : List Host.Cell} (a : Nat) (bs : List Byte) (h : cellsWf m = true) :
    cellsGet (cellsSet m a bs) a bs.length = bs := by
  rw [cellsGet_eq_map]
  refine List.ext_getElem (by simp) fun i hi _ => ?_
  have hi : i < bs.length := by simpa using hi
  simp [cellGet_cellsSet _ _ _ _ h, hi]

theorem cellsGet_cellsSet_other {m : List Host.Cell} {a c : Nat} (bs : List Byte) (n : Nat) (h : cellsWf m = true)
    (hd : c + n ≤ a ∨ a + bs.length ≤ c) : cellsGet (cellsSet m a bs) c n = cellsGet m c n :=
  cellsGet_congr fun i hi => by rw [cellGet_cellsSet _ _ _ _ h, if_neg (by omega)]

section
variable (s : State) (b : Nat) (m : BlockMeta) (bs : List Byte)

@[simp] theorem State.blockMeta_putBlock : (s.putBlock b m bs).blockMeta b = m := assocGet_set_self _ _ _ _

theorem State.blockMeta_putBlock_other {c : Nat} (h : b ≠ c) : (s.putBlock b m bs).blockMeta c = s.blockMeta c :=
  assocGet_set_other _ _ _ _ _ h

@[simp] theorem State.spaceOf_putBlock (h : Nat) : (s.putBlock b m bs).spaceOf h = s.spaceOf h := rfl

end

/-- Every block but the one put reads as before, under every key. -/
theorem State.blockBytes_putBlock_other {s : State} {b c : Nat} (m : BlockMeta) {bs : List Byte} (hw : s.memWf) (hbs : bs.length = 64)
    (h : b ≠ c) (key : Nat) : (s.putBlock b m bs).blockBytes c key = s.blockBytes c key := by
  have hcells : cellsGet (s.putBlock b m bs).mem (64 * c) 64 = cellsGet s.mem (64 * c) 64 :=
    cellsGet_cellsSet_other bs 64 hw (by omega)
  simp only [State.blockBytes, State.spaceOf_putBlock, State.blockMeta_putBlock_other s b m bs h, hcells]
  rfl

/-- A block put under a key, or where nothing is encrypted, reads as put under that key. -/
theorem State.blockBytes_putBlock {s : State} {b key : Nat} {m : BlockMeta} {bs : List Byte} (hw : s.memWf) (hbs : bs.length = 64)
    (hpeer : ∀ p, s.spaceOf (64 * b) ≠ .peer p) (hkey : (s.spaceOf (64 * b)).encrypted = true → m.key = some key) :
    (s.putBlock b m bs).blockBytes b key = bs := by
  have hcells : cellsGet (s.putBlock b m bs).mem (64 * b) 64 = bs := by
    have := cellsGet_cellsSet (64 * b) bs hw
    rwa [hbs] at this
  unfold State.blockBytes
  simp only [State.spaceOf_putBlock, State.blockMeta_putBlock, hcells]
  cases hsp : s.spaceOf (64 * b) with
  | peer p => exact absurd hsp (hpeer p)
  | dram d => simp [underKey, hkey (by rw [hsp]; rfl)]
  | tier2 => simp [underKey, hkey (by rw [hsp]; rfl)]
  | commons | host | hole => rfl

/-! ## A store performed at its home (R217, R220) -/

/-- From `s` to `z`, block `b` has taken the bytes of a store under `key` and one more version, and no other block reads
otherwise. -/
structure BlockStored (s z : State) (b key : Nat) (items : List (Nat × Byte)) : Prop where
  version : (z.blockMeta b).version = (s.blockMeta b).version + 1
  bytes : z.blockBytes b key = storeItems (s.blockBytes b key) items
  others : ∀ c, c ≠ b → ∀ k, z.blockBytes c k = s.blockBytes c k

/-- What a home leaves alone when it performs a store: all but memory, the block records and the meters. -/
structure UnitsKept (s z : State) : Prop where
  tiles : z.tiles = s.tiles
  clusters : z.clusters = s.clusters
  waits : z.waits = s.waits
  net : z.net = s.net
  focus : z.focus = s.focus

theorem UnitsKept.task {s z : State} (h : UnitsKept s z) (c k : Nat) : z.task c k = s.task c k := by
  simp [State.task, State.cluster, h.clusters]

/-- A block put with the bytes of a store, one version higher and under the access's key, is stored. -/
theorem BlockStored.putBlock {s : State} {b key : Nat} {items : List (Nat × Byte)} {m : BlockMeta} (hw : s.memWf)
    (hpeer : ∀ p, s.spaceOf (64 * b) ≠ .peer p) (hversion : m.version = (s.blockMeta b).version + 1)
    (hkey : (s.spaceOf (64 * b)).encrypted = true → m.key = some key) :
    BlockStored s (s.putBlock b m (storeItems (s.blockBytes b key) items)) b key items := by
  have hbs : (storeItems (s.blockBytes b key) items).length = 64 := by rw [storeItems_length, State.blockBytes_length]
  exact ⟨by rw [State.blockMeta_putBlock, hversion], State.blockBytes_putBlock hw hbs hpeer hkey,
    fun c hc k => State.blockBytes_putBlock_other m hw hbs hc.symm k⟩

/-- A meter raised changes no block (R344). -/
theorem BlockStored.addMeter {s z : State} {b key : Nat} {items : List (Nat × Byte)} (h : BlockStored s z b key items)
    (tenant ix n : Nat) : BlockStored s (z.addMeter tenant ix n) b key items := by
  unfold State.addMeter
  split
  · exact h
  · exact ⟨h.version, h.bytes, h.others⟩

theorem UnitsKept.addMeter {s z : State} (h : UnitsKept s z) (tenant ix n : Nat) : UnitsKept s (z.addMeter tenant ix n) := by
  unfold State.addMeter
  split
  · exact h
  · exact ⟨h.tiles, h.clusters, h.waits, h.net, h.focus⟩

section
variable {s z : State} {a : Access} {o : AccessOut} {items : List (Nat × Byte)}

/-- A store that its home performs at no peer stores its block. -/
theorem State.homeStore_stores {out : List Byte → AccessOut × List Byte} (hout : ∀ bs, (out bs).2 = storeItems bs items)
    (hw : s.memWf) (hpeer : ∀ p, s.spaceOf (64 * a.block) ≠ .peer p) (h : s.homeStore a out = .done z o) :
    BlockStored s z a.block a.key items ∧ UnitsKept s z := by
  have hmeta : s.homeMeta a.block = s.blockMeta a.block := by
    unfold State.homeMeta
    split
    · next p hp => exact absurd hp (hpeer p)
    · rfl
  unfold State.homeStore at h
  simp only [hmeta] at h
  split at h
  · cases h
  · split at h
    · next r hr => exact absurd (hr.trans (congrArg some h)) (storeGate_ne_done _ _ _ _)
    · split at h
      · cases h
      · split at h
        · cases h
        · unfold State.homeStore.finish at h
          dsimp only at h
          split at h
          · next p hp => exact absurd hp (hpeer p)
          · cases h
            rw [hout]
            exact ⟨.putBlock hw hpeer rfl fun he => by simp [he], ⟨rfl, rfl, rfl, rfl, rfl⟩⟩

/-- So does every access of a store, charged to its meter. -/
theorem State.homeAct_stores (hop : a.op = .store items) (hw : s.memWf) (hpeer : ∀ p, s.spaceOf (64 * a.block) ≠ .peer p)
    (h : s.homeAct a = .done z o) : BlockStored s z a.block a.key items ∧ UnitsKept s z := by
  have go (n : Nat) (hc : (match s.homeStore a fun old => ({}, storeItems old items) with
      | .done y p => .done (y.addMeter a.tenant n a.moved) p
      | r => r) = HomeResult.done z o) : BlockStored s z a.block a.key items ∧ UnitsKept s z := by
    split at hc
    · next y p hy =>
      cases hc
      obtain ⟨hs, hu⟩ := State.homeStore_stores (fun _ => rfl) hw hpeer hy
      exact ⟨hs.addMeter _ _ _, hu.addMeter _ _ _⟩
    · next hn => exact absurd hc (hn _ _)
  unfold State.homeAct at h
  simp only [hop] at h
  split at h
  · cases h
  · split at h
    · cases h
    · split at h
      · cases h
      · exact go _ h
  · next p hp => exact absurd hp (hpeer p)
  · exact go _ h

/-! ## Where nothing waits, a performed store is all that happens (R219) -/

/-- Nothing that waits is met again after a store where nothing waits. -/
theorem State.afterAccess_of_still (hstill : Claims.Still s) (hkept : UnitsKept s z) : z.afterAccess a = z := by
  have hrecord : z.recordWaited a.block = false := by
    rw [← hstill.2 a.block, State.recordWaited, State.recordWaited, hkept.tiles, hkept.clusters]
  have hwaits : z.waits = [] := hkept.waits.trans hstill.1
  have hstored : z.stored a = z := by simp [State.stored, hrecord]
  simp [State.afterAccess, hstored, hwaits, State.serveWaits]

/-- A store whose home performs it is done at once. -/
theorem State.perform_of_still (who : Waiter) (ctx : Nat) (asid : Option Nat) (hstill : Claims.Still s) (hkept : UnitsKept s z)
    (h : s.homeAct a = .done z o) : s.perform a who ctx asid = .done z o := by
  unfold State.perform
  simp [State.inputBlocked, State.entryAwaited, hstill.1, h, State.afterAccess_of_still hstill hkept]

theorem State.peerWaits_of_no_waits (h : s.waits = []) : s.peerWaits = s := by simp [State.peerWaits, h]

end

/-- A change of a unit that is no memory stores nothing. -/
theorem BlockStored.updTile {s z : State} {b key : Nat} {items : List (Nat × Byte)} (h : BlockStored s z b key items) (t : Nat)
    (f : Tile → Tile) : BlockStored s (z.updTile t f) b key items := ⟨h.version, h.bytes, h.others⟩

theorem BlockStored.updTask {s z : State} {b key : Nat} {items : List (Nat × Byte)} (h : BlockStored s z b key items) (c k : Nat)
    (f : Task → Task) : BlockStored s (z.updTask c k f) b key items := ⟨h.version, h.bytes, h.others⟩

/-! ## A store of the fabric (R225, R226) -/

/-- A group of a store that its port may perform and its home performs is the home's state with the group finished. -/
theorem exec_homeAccess_group {s z : State} {t u k j : Nat} {p : MemPairing} {g : Group} {o : AccessOut} (hfocus : s.focus = .event u k)
    (hgroup : (issuedGroups (s.tile t).port)[k]? = some (p, j, g)) (hmay : s.mayPerform t p g = true) (hstill : Claims.Still s)
    (hkept : UnitsKept s z) (h : s.homeAct g.acc = .done z o) :
    exec (.homeAccess (.tilePort t)) s =
      .next (z.updTile t fun x => x.updGroup p.seq j fun m g => g.finish m.kind (fmtBytes m.fmt.toNat) o) := by
  have hperform := State.perform_of_still (.group t p.seq j) p.ctx (some (s.ctx p.ctx).asid) hstill hkept h
  have hmove : s.portMove t k = z.updTile t fun x => x.updGroup p.seq j fun m g => g.finish m.kind (fmtBytes m.fmt.toNat) o := by
    simp [State.portMove, hgroup, hmay, hperform]
  have hwaits : (z.updTile t fun x => x.updGroup p.seq j fun m g => g.finish m.kind (fmtBytes m.fmt.toNat) o).waits = [] :=
    hkept.waits.trans hstill.1
  show execHomeAccess (.tilePort t) s = _
  simp only [execHomeAccess, hfocus]
  rw [hmove, State.peerWaits_of_no_waits hwaits]

theorem fabricStoreFrame : Claims.FabricStoreFrame := by
  rintro s s' t u k j p g o items hfocus hgroup hmay hstill hw hop hitems hpeer ⟨z, hz⟩ hexec
  obtain ⟨hstored, hkept⟩ := State.homeAct_stores hop hw hpeer hz
  have hs : s' = _ := (Host.Outcome.next.inj ((exec_homeAccess_group hfocus hgroup hmay hstill hkept hz).symm.trans hexec)).symm
  have hstored : BlockStored s s' g.acc.block g.acc.key items := hs ▸ hstored.updTile t _
  have hlen (x : Nat × Byte) (hx : x ∈ items) : x.1 < (s.blockBytes g.acc.block g.acc.key).length := by
    rw [State.blockBytes_length]; exact hitems x hx
  refine ⟨hstored.version, fun i _ hi => ?_, fun l r x hl hr => ?_, hstored.others, ?_, fun v hv => ?_, ?_⟩
  · rw [hstored.bytes, storeItems_getD_other _ hi]
  · rw [hstored.bytes, hl]
    exact storeItems_getD_last _ l r (hlen x (by simp [hl])) hr
  · rw [hs]; exact hkept.clusters
  · rw [hs, State.updTile_eq, State.tile_setTile_other _ _ _ _ hv.symm, State.tile, State.tile, hkept.tiles]
  · rw [hs]; exact hkept.net

/-! ## A store of a task (R41, R283) -/

theorem storeMode_of_claimed {t : Task} {v : BitVec 5} {m : BitVec 2} {n : VMode} (h : Claims.storeModes t v m = some n) :
    storeMode t v m = some n := by
  have hm : m = 0 ∨ m = 1 ∨ m = 2 ∨ m = 3 := (by decide : ∀ m : BitVec 2, m = 0 ∨ m = 1 ∨ m = 2 ∨ m = 3) m
  unfold Claims.storeModes at h
  unfold storeMode
  rcases hm with rfl | rfl | rfl | rfl <;> simpa using h

/-- No recipe pins g0 (R246, R247). -/
theorem Task.pinned_zero (t : Task) : t.pinned 0 = false := by simp [Task.pinned, recipeSources]

theorem State.task_block (s : State) (c k : Nat) (why : BlockReason) :
    (s.block c k why).task c k = { s.task c k with st := .blocked why } := by
  unfold State.block
  dsimp only
  split
  · simp [State.setCore, State.task, State.updTask, State.setTask]
  · simp [State.updTask]

theorem State.block_blocks (s : State) (c k : Nat) (why : BlockReason) : (s.block c k why).blocks = s.blocks := by
  unfold State.block
  dsimp only
  split <;> rfl

theorem State.task_taskAccess (s : State) (c k va : Nat) (a : Access) (x : TaskAccess) :
    (s.taskAccess c k va a x).task c k =
      { s.task c k with access := { x with acc := a, va := va, bad := none }, st := .blocked .access } := by
  rw [State.taskAccess, State.task_block, State.updTask_eq, State.task_setTask]

theorem State.access_taskAccess (s : State) (c k va : Nat) (a : Access) (x : TaskAccess) :
    ((s.taskAccess c k va a x).task c k).access = { x with acc := a, va := va, bad := none } := by rw [State.task_taskAccess]

theorem State.reg_taskAccess (s : State) (c k va : Nat) (a : Access) (x : TaskAccess) (r : BitVec 5) :
    ((s.taskAccess c k va a x).task c k).reg r = (s.task c k).reg r := by rw [State.task_taskAccess]; rfl

/-- A task's store goes to its home with its bytes at the offset within the block. -/
theorem exec_stC {s : State} {c k : Nat} {d a v : BitVec 5} {m : BitVec 2} {sc : BitVec 3} {z : BitVec 2} (q : BitVec 1) {n : VMode}
    {h key : Nat} (hfocus : s.focus = .task c k) (hmode : storeMode (s.task c k) v m = some n) (hscope : sc.toNat ≤ 4)
    (halign : ((s.task c k).reg a).toNat % 2 ^ z.toNat = 0)
    (hhome : s.taskHome c k (s.task c k) ((s.task c k).reg a).toNat .write = .ok (h, key)) :
    exec (.stC d a v m sc z q) s = .next (s.taskAccess c k ((s.task c k).reg a).toNat
      { block := h / 64, op := storeOp (2 ^ z.toNat) ((s.task c k).reg d) (h % 64), mode := n, ret := 2 ≤ m.toNat, width := 2 ^ z.toNat,
        key := key, tenant := s.actingTenant (s.task c k).tenant (s.task c k).asid, moved := 2 ^ z.toNat }
      { kind := .st, off := h % 64, size := 2 ^ z.toNat }) := by
  show execStC d a v m sc z q s = _
  rw [execStC, tasking_next _ hfocus]
  simp [State.taskMem, hmode, not_lt.mpr hscope, State.writing, Task.pinned_zero, halign, hhome]

/-- A task's access that its home performs is the home's state with the task's instruction complete. -/
theorem exec_homeAccess_task {y z : State} {c k : Nat} {x : TaskAccess} {o : AccessOut} (hmeets : Claims.Meets y c k x)
    (hbad : x.bad = none) (hstill : Claims.Still y) (hkept : UnitsKept y z) (h : y.homeAct x.acc = .done z o) :
    exec (.homeAccess (.taskData c k)) y = .next (z.updTask c k fun t => (t.complete o).ready) := by
  obtain ⟨⟨u, n, hfocus⟩, hst, hx⟩ := hmeets
  have hperform := State.perform_of_still (.task c k) (y.task c k).ctx (some (y.task c k).asid) hstill hkept h
  have hmove : y.taskPerform c k = z.updTask c k fun t => (t.complete o).ready := by
    simp [State.taskPerform, hst, hx, hbad, hperform]
  have hwaits : (z.updTask c k fun t => (t.complete o).ready).waits = [] := hkept.waits.trans hstill.1
  show execHomeAccess (.taskData c k) y = _
  simp only [execHomeAccess, hfocus]
  rw [hmove, State.peerWaits_of_no_waits hwaits]

theorem Task.ready_reg (t : Task) (r : BitVec 5) : t.ready.reg r = t.reg r := by
  unfold Task.ready
  split <;> rfl

/-- A store writes no register. -/
theorem Task.complete_store_reg {t : Task} (h : t.access.kind = .st) (o : AccessOut) (r : BitVec 5) : (t.complete o).reg r = t.reg r := by
  simp [Task.complete, h, Task.retire, Task.reg]

/-- An aligned access of a power of two lies within its block. -/
theorem offset_le_of_aligned {h : Nat} (z : BitVec 2) (hz : h % 2 ^ z.toNat = 0) : h % 64 + 2 ^ z.toNat ≤ 64 := by
  have := z.isLt
  interval_cases hn : z.toNat <;> omega

theorem coreStoreFrame : Claims.CoreStoreFrame := by
  intro s s1 c k d a v m sc z q x n h key hx hfocus hmode hscope halign hoff hhome hexec
  cases hx
  rw [exec_stC q hfocus (storeMode_of_claimed hmode) hscope halign hhome] at hexec
  have hs1 := (Host.Outcome.next.inj hexec).symm
  refine ⟨by rw [hs1, State.taskAccess_mem], ?_, fun r => by rw [hs1, State.reg_taskAccess], ?_⟩
  · rw [hs1, State.taskAccess, State.block_blocks]; rfl
  intro y y' y'' o hmeets hstill hw hpeer hact hperf
  rw [hs1, State.access_taskAccess] at hmeets hact
  obtain ⟨hstored, hkept⟩ := State.homeAct_stores rfl hw hpeer hact
  rw [exec_homeAccess_task hmeets rfl hstill hkept hact] at hperf
  have hy := (Host.Outcome.next.inj hperf).symm
  have hstored := hstored.updTask c k fun t => (t.complete o).ready
  rw [← hy] at hstored
  refine ⟨hstored.version, fun i _ => ?_, fun b hb _ => hstored.others b hb, fun r => ?_⟩
  · rw [hstored.bytes, storeItems_toBytes _ _ _ (by rw [State.blockBytes_length]; exact offset_le_of_aligned z hoff)]
  · have hkind : (y.task c k).access.kind = .st := by rw [hmeets.2.2]
    rw [hy, State.updTask_eq, State.task_setTask, Task.ready_reg, hkept.task, Task.complete_store_reg hkind]

/-- Settles O9: a performed store puts its block under the access's key, and where nothing waits nothing else moves. -/
theorem storeFrames : Obligations.StoreFrames := ⟨coreStoreFrame, fabricStoreFrame⟩

end Sys2Proof.Machine

/-! PROOFS. Configuration sessions (R74 to R84, R371): what the configuration instructions, FUSEQ and SIGCHK give, what the end
of a session frees, and the row of the fuse map. -/

namespace Sys2Proof.Machine

/-! ## An instruction that gives its result (R75, R371) -/

section
variable {s z : State} {c k v n : Nat} {d : BitVec 5}

/-- An instruction whose gD no recipe pins goes on to its meaning (R247). -/
theorem tasking_writing {f : Nat → Nat → Task → State} (h : Claims.Runs s c k d) :
    tasking s (fun c k t => s.writing c k t d (f c k t)) = .next (f c k (s.task c k)) := by
  rw [tasking_next _ h.1, State.writing, if_neg (by simp [h.2])]

/-- A configuration instruction of a task with CFG gives the result that its meaning answers. -/
theorem configuring_ok {f : Nat → Nat → Task → TaskIO (Nat × State × Nat)} (h : Claims.Configures s c k d)
    (hf : f c k (s.task c k) = .ok (v, z, n)) :
    configuring s d f = .next (Claims.resulted z c k d (BitVec.ofNat 64 v) n) := by
  obtain ⟨⟨hfocus, hpin⟩, hcfg⟩ := h
  rw [configuring, tasking_next _ hfocus]
  simp only [hcfg, State.writing, hpin, hf]
  rfl

end

/-! ## The end of a session (R74, R81) -/

/-- The tiles of a session's rectangle that stays on the die's columns are those that the session holds. -/
theorem Session.mem_tiles {x : Session} {t : Nat} (hx : x.x0 + x.w ≤ 128) : t ∈ x.tiles ↔ x.holds t = true := by
  simp only [Session.tiles, Session.holds, List.mem_flatMap, List.mem_map, List.mem_range, Bool.and_eq_true, decide_eq_true_eq]
  constructor
  · rintro ⟨j, hj, i, hi, rfl⟩
    rw [tileX_tileOf _ (by omega), tileY_tileOf _ (by omega)]
    omega
  · rintro ⟨⟨⟨hx0, hx1⟩, hy0⟩, hy1⟩
    refine ⟨tileY t - x.y0, by omega, tileX t - x.x0, by omega, ?_⟩
    rw [Nat.add_sub_cancel' hx0, Nat.add_sub_cancel' hy0, tileOf_tileX_tileY]

/-- A tile as the end of a session leaves one of its rectangle. -/
def Tile.unreserved (y : Tile) : Tile := if y.status = .reserved then { y with status := .free } else y

theorem Tile.unreserved_of_reserved {y : Tile} (h : y.status = .reserved) : y.unreserved = { y with status := .free } := if_pos h

theorem Tile.unreserved_of_not_reserved {y : Tile} (h : y.status ≠ .reserved) : y.unreserved = y := if_neg h

@[simp] theorem Tile.unreserved_unreserved (y : Tile) : y.unreserved.unreserved = y.unreserved := by
  unfold Tile.unreserved
  split <;> simp_all

/-- A tile of a session's rectangle FREE again, unless it is fused off. -/
def State.unreserve (z : State) (t : Nat) : State := if z.fused t then z else z.updTile t Tile.unreserved

theorem State.freeSession_eq (s : State) (x : Session) : s.freeSession x = x.tiles.foldl State.unreserve s := rfl

@[simp] theorem State.unreserve_dean (z : State) (t : Nat) : (z.unreserve t).dean = z.dean := by
  unfold State.unreserve
  split <;> rfl

@[simp] theorem State.unreserve_fused (z : State) (t u : Nat) : (z.unreserve t).fused u = z.fused u := by
  rw [State.fused, State.fused, State.unreserve_dean]

theorem State.tile_unreserve_self {z : State} {t : Nat} (h : z.fused t = false) : (z.unreserve t).tile t = (z.tile t).unreserved := by
  simp [State.unreserve, h, State.updTile]

theorem State.tile_unreserve_other {z : State} {t u : Nat} (h : t ≠ u) : (z.unreserve t).tile u = z.tile u := by
  unfold State.unreserve
  split
  · rfl
  · exact State.tile_setTile_other _ _ _ _ h

/-- Tiles made FREE one after another: each listed one that is not fused off is no longer RESERVED. -/
theorem State.tile_foldl_unreserve (ts : List Nat) (s : State) (u : Nat) :
    (ts.foldl State.unreserve s).tile u = if u ∈ ts ∧ s.fused u = false then (s.tile u).unreserved else s.tile u := by
  induction ts generalizing s with
  | nil => simp
  | cons t ts ih =>
    rw [List.foldl_cons, ih, State.unreserve_fused]
    by_cases htu : t = u
    · subst htu
      cases hf : s.fused t
      · simp [State.tile_unreserve_self hf]
      · simp [State.unreserve, hf]
    · simp [State.tile_unreserve_other htu, Ne.symm htu]

/-- The tiles that the sessions of an owner have reserved. -/
def State.reservedBy (s : State) (of : Session → Bool) : List Nat := (s.dean.sessions.filter of).flatMap Session.tiles

theorem State.mem_reservedBy {s : State} {of : Session → Bool} {t : Nat}
    (hx : ∀ y ∈ s.dean.sessions, of y = true → y.x0 + y.w ≤ 128) :
    t ∈ s.reservedBy of ↔ ∃ y ∈ s.dean.sessions, of y = true ∧ y.holds t = true := by
  simp only [State.reservedBy, List.mem_flatMap, List.mem_filter, and_assoc]
  exact exists_congr fun y => and_congr_right fun hy => and_congr_right fun ho => Session.mem_tiles (hx y hy ho)

theorem State.endSessions_eq (s : State) (of : Session → Bool) :
    s.endSessions of = ((s.reservedBy of).foldl State.unreserve s).setDean
      { s.dean with sessions := s.dean.sessions.filter fun y => !of y } := by
  have hdean : ((s.reservedBy of).foldl State.unreserve s).dean = s.dean :=
    foldl_keeps (fun z => z.dean = s.dean) State.unreserve (fun z t h => (State.unreserve_dean z t).trans h) _ s rfl
  have hfold : (s.dean.sessions.filter of).foldl State.freeSession s = (s.reservedBy of).foldl State.unreserve s := by
    rw [State.reservedBy, List.foldl_flatMap]
    rfl
  rw [State.endSessions, hfold, hdean]

theorem State.tile_endSessions (s : State) (of : Session → Bool) (u : Nat) :
    (s.endSessions of).tile u = if u ∈ s.reservedBy of ∧ s.fused u = false then (s.tile u).unreserved else s.tile u := by
  rw [State.endSessions_eq]
  exact State.tile_foldl_unreserve _ s u

@[simp] theorem State.rollback_session (s : State) (c k : Nat) : (s.rollback c k).session c k = none := by
  rw [State.rollback, State.endSessions_eq, State.session, State.setDean_dean, List.find?_eq_none]
  intro y hy
  simpa using (List.mem_filter.mp hy).2

@[simp] theorem State.rollback_regions (s : State) (c k : Nat) : (s.rollback c k).dean.regions = s.dean.regions := by
  rw [State.rollback, State.endSessions_eq, State.setDean_dean]

/-- A RESERVED tile that a session of the task holds is FREE after the sessions' end. -/
theorem State.rollback_tile_held {s : State} {c k t : Nat} {y : Session}
    (hx : ∀ y ∈ s.dean.sessions, y.ofTask c k = true → y.x0 + y.w ≤ 128) (hy : y ∈ s.dean.sessions) (ho : y.ofTask c k = true)
    (hheld : y.holds t = true) (hfused : s.fused t = false) (hres : (s.tile t).status = .reserved) :
    (s.rollback c k).tile t = { s.tile t with status := .free } := by
  rw [State.rollback, State.tile_endSessions, if_pos ⟨(State.mem_reservedBy hx).mpr ⟨y, hy, ho, hheld⟩, hfused⟩,
    Tile.unreserved_of_reserved hres]

/-- A tile that no session of the task holds, or that is not RESERVED, is as it was. -/
theorem State.rollback_tile_other {s : State} {c k t : Nat}
    (hx : ∀ y ∈ s.dean.sessions, y.ofTask c k = true → y.x0 + y.w ≤ 128)
    (h : (∀ y ∈ s.dean.sessions, y.ofTask c k = true → y.holds t = false) ∨ (s.tile t).status ≠ .reserved) :
    (s.rollback c k).tile t = s.tile t := by
  rw [State.rollback, State.tile_endSessions]
  split
  · next hu =>
    obtain ⟨y, hy, ho, hheld⟩ := (State.mem_reservedBy hx).mp hu.1
    rcases h with hnone | hres
    · exact absurd hheld (by simp [hnone y hy ho])
    · exact Tile.unreserved_of_not_reserved hres
  · rfl

section
variable {s : State} {c k : Nat} {d : BitVec 5}

theorem exec_cfgrb_of_noSession (h : Claims.Configures s c k d) (hs : s.session c k = none) :
    exec (.cfgrb d) s = .next (Claims.resulted s c k d 0 40) := by
  show execCfgrb d s = _
  exact configuring_ok h (by rw [hs])

theorem exec_cfgrb_of_session {x : Session} (h : Claims.Configures s c k d) (hs : s.session c k = some x) :
    exec (.cfgrb d) s = .next (Claims.resulted (s.rollback c k) c k d (BitVec.ofNat 64 x.staged.length) (x.cycles c)) := by
  show execCfgrb d s = _
  exact configuring_ok h (by rw [hs])

end

/-! ## A control-core word refused for its zero fields (R43) -/

/-- A word whose low bits are not all zero keeps one of them under the mask of those bits. -/
theorem and_lowMask_ne_zero {w : BitVec 32} {n : Nat} (hn : n ≤ 32) (h : w.toNat % 2 ^ n ≠ 0) :
    w &&& BitVec.ofNat 32 (2 ^ n - 1) ≠ 0#32 := by
  intro hz
  have hpow : 2 ^ n ≤ 2 ^ 32 := Nat.pow_le_pow_right (by decide) hn
  have hpos : 0 < 2 ^ n := by positivity
  have hnat := congrArg BitVec.toNat hz
  rw [BitVec.toNat_and, BitVec.toNat_ofNat, Nat.mod_eq_of_lt (by omega), Nat.and_two_pow_sub_one_eq_mod] at hnat
  exact h hnat

/-- A word of an opcode of R42 that no row of the decoder takes is refused for its zero fields. -/
theorem decodeCore_eq_badField {w : BitVec 32} {op : Nat} (hop : w.toNat / 2 ^ 25 = op) (hmem : coreOps.contains op = true)
    (hnone : coreInstr w = none) : decodeCore w = .error (.badField op) := by
  rw [decodeCore, hnone]
  simp only [Laws.toNat_opcode, hop, hmem, if_true]

theorem coreInstr_cfgrb_none {w : BitVec 32} (hop : w.toNat / 2 ^ 25 = 0x4C) (h : w.toNat % 2 ^ 20 ≠ 0) : coreInstr w = none := by
  rw [coreInstr, Laws.toNat_opcode, hop]
  exact if_neg (and_lowMask_ne_zero (by decide) h)

theorem coreInstr_fuseq_none {w : BitVec 32} (hop : w.toNat / 2 ^ 25 = 0x4E) (h : w.toNat % 2 ^ 15 ≠ 0) : coreInstr w = none := by
  rw [coreInstr, Laws.toNat_opcode, hop]
  exact if_neg (and_lowMask_ne_zero (by decide) h)

/-- Settles O51: the tiles that the task's sessions have reserved are made FREE one after another, and a tile made FREE
twice is FREE. -/
theorem rollbackDiscards : Obligations.RollbackDiscards := by
  refine ⟨fun s c k d hruns => ⟨exec_cfgrb_of_noSession hruns, fun x hs hx => ?_⟩,
    fun w hop hlow => decodeCore_eq_badField hop (by decide) (coreInstr_cfgrb_none hop hlow)⟩
  have hmem : x ∈ s.dean.sessions := List.mem_of_find?_eq_some hs
  have hof : x.ofTask c k = true := by simpa using List.find?_some hs
  exact ⟨s.rollback c k, exec_cfgrb_of_session hruns hs, State.rollback_session s c k, State.rollback_regions s c k,
    State.rollback_mem s c k, fun t => State.rollback_tile_held hx hmem hof, fun t => State.rollback_tile_other hx⟩

/-! ## A row of the fuse map (R83) -/

/-- A sum of different powers of two has the bits that it sums. -/
theorem testBit_sum_two_pow {l : List Nat} (h : l.SortedLT) (i : Nat) :
    (l.foldl (fun n i => n + 2 ^ i) 0).testBit i = decide (i ∈ l) := by
  have hsum : l.foldl (fun n i => n + 2 ^ i) 0 = (l.map (2 ^ ·)).sum := by rw [List.sum_eq_foldl, List.foldl_map]
  rw [hsum, Bool.eq_iff_iff, ← Nat.mem_bitIndices, Nat.bitIndices_sum_map_two_pow h, decide_eq_true_iff]

theorem State.testBit_fuseRow (s : State) (v : Nat) {i : Nat} (hi : i < 64) :
    (s.fuseRow v).testBit i = s.fused (tileOf (64 * (v / 64 % 2) + i) (v % 64)) := by
  have hsorted : ((List.range 64).filter fun i => s.fused (tileOf (64 * bits v 6 6 + i) (v % 64))).SortedLT :=
    ((List.pairwise_lt_range).filter _).sortedLT
  rw [State.fuseRow, testBit_sum_two_pow hsorted]
  simp [hi, bits]

/-- Where all 16 tiles of a tile's cluster are fused off, so is the tile. -/
theorem State.fused_of_cluster {s : State} {t : Nat} (h : ∀ l < 16, s.fused (tileIn (clusterOf t) l) = true) : s.fused t = true := by
  simpa [tileIn_clusterOf_localOf] using h (localOf t) (localOf_lt t)

theorem exec_fuseq {s : State} {c k : Nat} {d : BitVec 5} (a : BitVec 5) (h : Claims.Runs s c k d) :
    exec (.fuseq d a) s = .next (Claims.resulted s c k d (BitVec.ofNat 64 (s.fuseRow ((s.task c k).reg a).toNat)) 4) := by
  show execFuseq d a s = _
  exact tasking_writing h

/-- Settles O52: gD is a sum of different powers of two, one for each fused tile of the half-row. -/
theorem fuseRowRead : Obligations.FuseRowRead := by
  refine ⟨fun s c k d a hruns => ?_, fun w hop hlow => decodeCore_eq_badField hop (by decide) (coreInstr_fuseq_none hop hlow)⟩
  intro v
  have hbit (i : Nat) (hi : i < 64) :
      (BitVec.ofNat 64 (s.fuseRow v)).getLsbD i = s.fused (tileOf (64 * (v / 64 % 2) + i) (v % 64)) := by
    rw [BitVec.getLsbD_ofNat, State.testBit_fuseRow s v hi, decide_eq_true hi, Bool.true_and]
  refine ⟨_, exec_fuseq a hruns, hbit, fun cl i hcl hi _ hin => ?_⟩
  subst hin
  exact (hbit i hi).trans (State.fused_of_cluster hcl)

/-! ## CFGW and CFGCRC (R76, R77, R79) -/

theorem bits_lt (n hi lo : Nat) : bits n hi lo < 2 ^ (hi + 1 - lo) := Nat.mod_lt _ (by positivity)

/-- A tile of the die that the session holds, not fused off, with the block's address aligned, passes the checks that come before
the block is read. -/
theorem State.placeStatus_eq_zero {s : State} {x : Session} {px py va : Nat} (hx : px < 128) (hy : py < 64)
    (hholds : x.holds (tileOf px py) = true) (hfused : s.fused (tileOf px py) = false) (hva : va % 16 = 0) :
    s.placeStatus x px py va = 0 := by
  simp [State.placeStatus, hx, hy, hholds, hfused, hva]

section
variable {s : State} {c k v va : Nat} {d a : BitVec 5} (b : BitVec 5) {x : Session} (h : Claims.Configures s c k d)
include h

theorem exec_cfgw_of_noSession (hv : ((s.task c k).reg a).toNat = v) (hs : s.session c k = none) :
    exec (.cfgw d a b) s = .next (Claims.resulted s c k d 0x12 (40 + 3 * farthest c [tileOf (bits v 6 0) (bits v 13 8)])) := by
  show execCfgw d a b s = _
  exact configuring_ok h (by simp only [hv, hs])

theorem exec_cfgw_of_reservedBit (hv : ((s.task c k).reg a).toNat = v) (hs : s.session c k = some x) (hbits : v &&& 0x3F7F3F7F ≠ v) :
    exec (.cfgw d a b) s = .next (Claims.resulted s c k d 0x02 (40 + 3 * farthest c [tileOf (bits v 6 0) (bits v 13 8)])) := by
  show execCfgw d a b s = _
  exact configuring_ok h (by simp only [hv, hs, if_pos hbits])

section
variable {hd : BlockHead} {bs : List Byte} (hv : ((s.task c k).reg a).toNat = v) (hva : ((s.task c k).reg b).toNat = va)
  (hs : s.session c k = some x) (hbits : v &&& 0x3F7F3F7F = v) (hplace : s.placeStatus x (bits v 6 0) (bits v 13 8) va = 0)
  (hread : s.readBlock c k (s.task c k) va = .ok (hd, bs))
include hv hva hs hbits hplace hread

/-- A block that a check fails is not staged: gD is that check's status. -/
theorem exec_cfgw_of_misfit (hfit : x.blockFits (bits v 6 0) (bits v 13 8) hd bs ≠ 0) :
    exec (.cfgw d a b) s = .next (Claims.resulted s c k d (BitVec.ofNat 64 (x.blockFits (bits v 6 0) (bits v 13 8) hd bs))
      (40 + 3 * farthest c [tileOf (bits v 6 0) (bits v 13 8)] + (16 + bs.length) / 16)) := by
  show execCfgw d a b s = _
  exact configuring_ok h (by simp only [hv, hva, hs, hbits, hplace, hread, ne_eq, not_true_eq_false, if_false, if_pos hfit])

/-- A block that passes every check is staged with the records of its place. -/
theorem exec_cfgw_of_fit {fx : List RouteFix} (hfit : x.blockFits (bits v 6 0) (bits v 13 8) hd bs = 0)
    (hfix : s.readFixes c k (s.task c k) x = .ok fx) :
    exec (.cfgw d a b) s = .next (Claims.resulted
      (s.stage c k (tileOf (bits v 6 0) (bits v 13 8)) (bits v 22 16) (bits v 29 24) hd bs fx) c k d 0
      (40 + 3 * farthest c [tileOf (bits v 6 0) (bits v 13 8)] + (16 + bs.length) / 16)) := by
  show execCfgw d a b s = _
  exact configuring_ok h (by simp only [hv, hva, hs, hbits, hplace, hread, hfit, hfix, ne_eq, not_true_eq_false, if_false])

end

theorem exec_cfgcrc_of_noSession (hv : ((s.task c k).reg a).toNat = v) (hs : s.session c k = none) :
    exec (.cfgcrc d a) s =
      .next (Claims.resulted s c k d 0xFFFFFFFF00000000 (40 + 3 * farthest c [tileOf (bits v 6 0) (bits v 13 8)])) := by
  show execCfgcrc d a s = _
  exact configuring_ok h (by simp only [hv, hs, Option.bind_none])

theorem exec_cfgcrc_of_staged {y : Staged} (hv : ((s.task c k).reg a).toNat = v) (hs : s.session c k = some x)
    (hy : (x.staged.find? fun y => y.tile = tileOf (bits v 6 0) (bits v 13 8)) = some y) :
    exec (.cfgcrc d a) s =
      .next (Claims.resulted s c k d (BitVec.ofNat 64 y.crc) (40 + 3 * farthest c [tileOf (bits v 6 0) (bits v 13 8)])) := by
  show execCfgcrc d a s = _
  exact configuring_ok h (by simp only [hv, hs, Option.bind_some, hy])

theorem exec_cfgmc_of_noSession (hs : s.session c k = none) :
    exec (.cfgmc d a b) s = .next (Claims.resulted s c k d 0x12 40) := by
  show execCfgmc d a b s = _
  exact configuring_ok h (by simp only [hs])

/-! ## CFGCOM (R80) -/

theorem exec_cfgcom_of_noSession (hs : s.session c k = none) :
    exec (.cfgcom d) s = .next (Claims.resulted s c k d 0x8000000000000012 40) := by
  show execCfgcom d s = _
  exact configuring_ok h (by simp only [hs, placeFailed, Nat.reducePow, Nat.reduceAdd])

theorem exec_cfgcom_of_session {bs : List Byte} (hs : s.session c k = some x)
    (hread : s.taskRead c k (s.task c k) x.addr (hdrLength x.header) = .ok bs) :
    exec (.cfgcom d) s = .next (Claims.resulted
      (s.commit x (s.actingTenant (s.task c k).tenant (s.task c k).asid) (s.task c k).asid bs) c k d
      (BitVec.ofNat 64 x.staged.length) (x.cycles c)) := by
  show execCfgcom d s = _
  exact configuring_ok h (by simp only [hs, hread])

end

/-! ## PLACE (R74, R82) -/

/-- The placer takes a task's request where it has served none of a higher cluster in this cycle. -/
theorem State.placer_takes {s : State} {c : Nat} (h : s.dean.placedAt ≠ s.cycle ∨ s.dean.placedBy ≤ c) :
    (decide (s.dean.placedAt = s.cycle) && decide (c < s.dean.placedBy)) = false := by
  rw [Bool.and_eq_false_iff, decide_eq_false_iff_not, decide_eq_false_iff_not, Nat.not_lt]
  exact h

/-- The state in which the placer has taken a request of this cycle from a task of cluster `c`. -/
def State.placerServed (s : State) (c : Nat) : State := s.setDean { s.dean with placedAt := s.cycle, placedBy := c }

section
variable {s : State} {c k : Nat} {d : BitVec 5} (a b : BitVec 5) (h : Claims.Configures s c k d)
  (hopen : s.dean.placedAt ≠ s.cycle ∨ s.dean.placedBy ≤ c)
include h hopen

theorem exec_place_of_session {x : Session} (hs : s.session c k = some x) :
    exec (.place d a b) s = .next (Claims.resulted s c k d (BitVec.ofNat 64 (placeFailed 0x13)) 40) := by
  have hsome : (s.session c k).isSome = true := by rw [hs]; rfl
  show execPlace d a b s = _
  exact configuring_ok h (by simp only [State.placer_takes hopen, Bool.false_eq_true, if_false, hsome, if_true])

variable {a b} {v va : Nat} {hd : List Byte} (hv : ((s.task c k).reg a).toNat = v) (hva : ((s.task c k).reg b).toNat = va)
  (hs : s.session c k = none) (hread : s.taskRead c k (s.task c k) va hdrBytes = .ok hd)
include hv hva hs hread

theorem exec_place_of_search (hok : hdrOk hd = true) (hzero : v = 0) :
    exec (.place d a b) s = .next (Claims.resulted ((s.placerServed c).placeSearch c k va hd).2 c k d
      (BitVec.ofNat 64 ((s.placerServed c).placeSearch c k va hd).1) (40 + s.examined (s.placer c k) hd)) := by
  have hfixed : bit 0 63 = false := rfl
  show execPlace d a b s = _
  refine configuring_ok h ?_
  simp only [State.placer_takes hopen, hv, hva, hs, hread, hok, hzero, hfixed, Option.isSome_none, Bool.not_true, Bool.false_eq_true,
    ne_eq, not_true_eq_false, if_false]
  rfl

theorem exec_place_of_fixed (hok : hdrOk hd = true) (hfixed : bit v 63 = true) (hbits : v &&& 0x800000007FFF3F7F = v) :
    exec (.place d a b) s = .next (Claims.resulted ((s.placerServed c).placeFixed c k va v hd).2 c k d
      (BitVec.ofNat 64 ((s.placerServed c).placeFixed c k va v hd).1) 40) := by
  show execPlace d a b s = _
  refine configuring_ok h ?_
  simp only [State.placer_takes hopen, hv, hva, hs, hread, hok, hfixed, hbits, Option.isSome_none, Bool.not_true, Bool.false_eq_true,
    ne_eq, not_true_eq_false, if_false, if_true]
  rfl

/-- Bytes that are no header, and a gA with a reserved bit, give the status Layout. -/
theorem exec_place_of_layout
    (hbad : hdrOk hd = false ∨ (bit v 63 = false ∧ v ≠ 0) ∨ (bit v 63 = true ∧ v &&& 0x800000007FFF3F7F ≠ v)) :
    exec (.place d a b) s = .next (Claims.resulted s c k d 0x8000000000000002 40) := by
  show execPlace d a b s = _
  refine configuring_ok (v := placeFailed 0x02) h ?_
  simp only [State.placer_takes hopen, hv, hva, hs, hread, Option.isSome_none, Bool.false_eq_true, if_false]
  cases hok : hdrOk hd
  · rfl
  · rcases hbad with hno | ⟨hfixed, hne⟩ | ⟨hfixed, hne⟩
    · exact absurd hok (by simp [hno])
    · simp only [hfixed, Bool.not_true, Bool.false_eq_true, if_false, if_pos hne]
    · simp only [hfixed, Bool.not_true, Bool.false_eq_true, if_false, if_true, if_pos hne]

end

theorem configurationSessions : Claims.ConfigurationSessions := by
  intro s c k d a b h t v va tile open_ z one all
  refine ⟨fun hs => ⟨?cfgw, ?cfgmc, ?cfgcrc, ?cfgcom, fun hd hopen hread => ?place⟩, fun x hs => ?session⟩
  case cfgw => exact exec_cfgw_of_noSession b h rfl hs
  case cfgmc => exact exec_cfgmc_of_noSession b h hs
  case cfgcrc => exact exec_cfgcrc_of_noSession h rfl hs
  case cfgcom => exact exec_cfgcom_of_noSession h hs
  case place =>
    exact ⟨exec_place_of_search h hopen rfl rfl hs hread, exec_place_of_fixed h hopen rfl rfl hs hread,
      exec_place_of_layout h hopen rfl rfl hs hread⟩
  case session =>
    refine ⟨exec_cfgw_of_reservedBit b h rfl hs, fun hd bs hbits hholds hfused hva hread => ?block,
      fun y => exec_cfgcrc_of_staged h rfl hs, fun bs => exec_cfgcom_of_session h hs, fun hopen => exec_place_of_session a b h hopen hs⟩
    have hplace := State.placeStatus_eq_zero (bits_lt v 6 0) (bits_lt v 13 8) hholds hfused hva
    exact ⟨fun st hst hne => hst ▸ exec_cfgw_of_misfit b h rfl rfl hs hbits hplace hread (hst ▸ hne),
      fun fx => exec_cfgw_of_fit b h rfl rfl hs hbits hplace hread⟩

/-! ## CFGMC (R78) -/

section
variable {s : State} {c k : Nat} {d : BitVec 5} (a b : BitVec 5) (h : Claims.Configures s c k d)
include h

theorem exec_cfgmc_of_list {x : Session} {rects : List (Nat × Nat × Nat × Nat)} {tiles : List (Nat × Nat)} {v n : Nat} {z : State}
    (hs : s.session c k = some x) (hlist : s.mcList c k (s.task c k) ((s.task c k).reg a).toNat = .ok (some rects))
    (htiles : mcTiles rects = tiles)
    (hwrite : s.mcWrite c k (s.task c k) x ((s.task c k).reg b).toNat tiles = .ok (v, z, n)) :
    exec (.cfgmc d a b) s = .next (Claims.resulted z c k d (BitVec.ofNat 64 v) n) := by
  show execCfgmc d a b s = _
  exact configuring_ok h (by simp only [hs, hlist, htiles, hwrite])

end

/-- The rectangles of a list of `n` of them in memory (R78). -/
def mcRects (list : List Byte) (n : Nat) : List (Nat × Nat × Nat × Nat) :=
  (List.range n).map fun i => (field list (4 * i) 1, field list (4 * i + 1) 1, field list (4 * i + 2) 1, field list (4 * i + 3) 1)

theorem State.mcList_eq_some {s : State} {c k at_ n : Nat} {t : Task} {w list : List Byte} (hcount : s.taskRead c k t at_ 4 = .ok w)
    (hn : field w 0 4 = n) (hpos : 1 ≤ n) (hle : n ≤ 64) (hlist : s.taskRead c k t (at_ + 4) (4 * n) = .ok list)
    (hcorners : ∀ i < n, field list (4 * i) 1 ≤ field list (4 * i + 2) 1 ∧ field list (4 * i + 1) 1 ≤ field list (4 * i + 3) 1) :
    s.mcList c k t at_ = .ok (some (mcRects list n)) := by
  have hrange : ¬ (decide (n = 0) || decide (64 < n)) = true := by
    simp only [Bool.or_eq_true, decide_eq_true_eq]
    omega
  have hordered : ¬ ((mcRects list n).any fun r => r.2.2.1 < r.1 || r.2.2.2 < r.2.1) = true := by
    simp only [mcRects, List.any_map, List.any_eq_true, List.mem_range, Function.comp_apply, Bool.or_eq_true, decide_eq_true_eq, not_exists,
      not_and, not_or, Nat.not_lt]
    exact hcorners
  simp only [State.mcList, hcount, hn, if_neg hrange, hlist, Nat.add_comm _ (4 * _)]
  exact congrArg _ (if_neg hordered)

section
variable {s : State} {c k va : Nat} {t : Task} {x : Session} {tiles : List (Nat × Nat)} {p : Nat × Nat}
  (hp : tiles.headD (0, 0) = p)
include hp

/-- Where the first tile fails a check before the block is read, nothing is staged. -/
theorem State.mcWrite_of_early (hearly : s.placeStatus x p.1 p.2 va ≠ 0) :
    s.mcWrite c k t x va tiles =
      .ok (mcStopped (s.placeStatus x p.1 p.2 va) p.1 p.2, s, 40 + 3 * farthest c (tiles.map fun p => tileOf p.1 p.2)) := by
  simp only [State.mcWrite, hp, if_pos hearly]

/-- Where the block fits the first tile, the tiles are written one after another. -/
theorem State.mcWrite_of_fit {hd : BlockHead} {bs : List Byte} {fx : List RouteFix} (hearly : s.placeStatus x p.1 p.2 va = 0)
    (hread : s.readBlock c k t va = .ok (hd, bs)) (hfit : x.blockFits p.1 p.2 hd bs = 0) (hfix : s.readFixes c k t x = .ok fx) :
    s.mcWrite c k t x va tiles =
      .ok ((State.writeTiles c k va hd bs fx s tiles).1, (State.writeTiles c k va hd bs fx s tiles).2,
        40 + 3 * farthest c (tiles.map fun p => tileOf p.1 p.2) + (16 + bs.length) / 16 +
          mcWritten (State.writeTiles c k va hd bs fx s tiles).1 tiles) := by
  simp only [State.mcWrite, hp, hearly, hread, hfit, hfix, ne_eq, not_true_eq_false, if_false]

end

theorem multicastConfiguration : Claims.MulticastConfiguration := by
  intro s c k n d a b x w list h hs hcount hn hpos hle hlist hcorners va tiles p early far
  have hrects := State.mcList_eq_some hcount hn hpos hle hlist hcorners
  have htiles : mcTiles (mcRects list n) = tiles := by rw [mcTiles, mcRects, List.flatMap_map]
  exact ⟨fun hearly => exec_cfgmc_of_list a b h hs hrects htiles (State.mcWrite_of_early rfl hearly),
    fun hd bs fx hearly hread hfit hfix => exec_cfgmc_of_list a b h hs hrects htiles (State.mcWrite_of_fit rfl hearly hread hfit hfix)⟩

/-! ## SIGCHK (R84) -/

section
variable {s : State} {c k v : Nat} {d a : BitVec 5} (b : BitVec 5) {hd : List Byte} (h : Claims.Runs s c k d)
  (hv : ((s.task c k).reg a).toNat = v) (hread : s.taskRead c k (s.task c k) v 32 = .ok hd)
include h hv hread

theorem exec_sigchk_of_noImage (hno : field hd 0 4 ≠ hdrMagic ∨ field hd 0x1C 4 < 256) :
    exec (.sigchk d a b) s = .next (Claims.resulted s c k d 4 20000) := by
  have hno : (decide (field hd 0 4 ≠ hdrMagic) || decide (field hd 0x1C 4 < 256)) = true := by simpa using hno
  show execSigchk d a b s = _
  refine (tasking_writing h).trans ?_
  simp only [hv, hread, if_pos hno]
  rfl

theorem exec_sigchk_of_image {bs : List Byte} (hmagic : field hd 0 4 = hdrMagic) (hlength : 256 ≤ field hd 0x1C 4)
    (hrest : s.taskRead c k (s.task c k) (v + 32) (field hd 0x1C 4 - 32) = .ok bs) :
    exec (.sigchk d a b) s = .next (Claims.resulted s c k d
      (BitVec.ofNat 64 (s.sigStatus (hd ++ bs) (((s.task c k).reg b).toNat % 8))) (20000 + field hd 0x1C 4 / 2)) := by
  have himage : ¬ (decide (field hd 0 4 ≠ hdrMagic) || decide (field hd 0x1C 4 < 256)) = true := by
    simp [hmagic, Nat.not_lt.mpr hlength]
  show execSigchk d a b s = _
  refine (tasking_writing h).trans ?_
  simp only [hv, hread, if_neg himage, hrest]
  rfl

end

theorem signatureChecks : Claims.SignatureChecks := by
  intro s c k d a b h v hd hread
  exact ⟨exec_sigchk_of_noImage b h rfl hread, fun hmagic hlength bs => exec_sigchk_of_image b h rfl hread hmagic hlength⟩

/-- Settles O14: each instruction answers what its checks, taken in order, lead to. -/
theorem configuration : Obligations.Configuration := ⟨configurationSessions, multicastConfiguration, signatureChecks⟩

end Sys2Proof.Machine

/-! PROOFS. Operands that a firing does not compute on (R98, R145, R161): FAULT runs and runs of another format. -/

namespace Sys2Proof.Machine

section
variable {s : State} {t : Nat} {p : Pairing} {w : DWord} {two : Bool} {out : Fmt} {held : Nat} {ok : Token → Token → Option (Nat × Nat)}
  {body : State → List (Nat × BitVec 18) → Lanes → State} {each : Bool}

/-- A FAULT L is passed on, before all else (R98). -/
theorem State.withLanes_of_leftFault (hl : p.left.act = .fault) :
    s.withLanes t p w two out held ok body each = (s.hold t held).passFault t p (s.targets t w.nt w.t1 w.t0) out p.left :=
  if_pos hl

/-- So is a FAULT Rt, where a token Rt is read. -/
theorem State.withLanes_of_rightFault (hl : p.left.act ≠ .fault) (htwo : two = true) (hkr : w.kr = 0) (hr : p.right.act = .fault) :
    s.withLanes t p w two out held ok body each = (s.hold t held).passFault t p (s.targets t w.nt w.t1 w.t0) out p.right := by
  have hboth : (two && decide (w.kr = 0) && decide (p.right.act = .fault)) = true := by simp [htwo, hkr, hr]
  exact (if_neg hl).trans (if_pos hboth)

/-- Operands that a check of the instruction refuses raise the fault that the check names (R145). -/
theorem State.withLanes_of_refused {c u : Nat} (hl : p.left.act ≠ .fault) (hr : two = true → w.kr = 0 → p.right.act ≠ .fault)
    (hok : ok p.left p.right = some (c, u)) :
    s.withLanes t p w two out held ok body each =
      (s.hold t held).fireFault t p (s.targets t w.nt w.t1 w.t0) out p.itag.toNat c u := by
  have hboth : ¬ (two && decide (w.kr = 0) && decide (p.right.act = .fault)) = true := by
    simpa using hr
  simp only [State.withLanes, if_neg hl, if_neg hboth, hok]

end

theorem sameFmt_of_wrong_left {w : DWord} {two : Bool} {l r : Token} (h : decide (l.fmt.toNat = w.fmt.toNat) = false) :
    sameFmt w two l r = some illFormat :=
  if_pos fun he => of_decide_eq_false h (congrArg BitVec.toNat he)

theorem rightFmt_of_wrong_left {w : DWord} {set : Nat → Bool} {l r : Token} (h : decide (l.fmt.toNat = w.fmt.toNat) = false) :
    rightFmt w set l r = some illFormat :=
  if_pos fun he => of_decide_eq_false h (congrArg BitVec.toNat he)

/-- The row `i` fires by `o`, whose result has the format and whose hold the class of `e`, and which refuses an L in a format that
`e` has not. -/
structure RefusesBy (i : Instr) (e : Claims.Element) (o : LaneOp) : Prop where
  runs : ∀ s, exec i s = firing s fun t p => s.lanewise t p e.w o
  two : o.two = e.two
  out : o.out = e.out
  cls : o.cls = e.cls
  wrongLeft : ∀ l r : Token, e.left l.fmt.toNat = false → o.ok l r = some illFormat

theorem refusesBy_of_arithmetic {i : Instr} {e : Claims.Element} (h : Claims.arithmetic i = some e) : ∃ o, RefusesBy i e o := by
  cases i
  case add | sub | mul | mulh | div | rem | min | max | abs | neg | cmp | adds | subs | madk =>
    cases h
    exact ⟨_, fun _ => rfl, rfl, rfl, rfl, fun _ _ => sameFmt_of_wrong_left⟩
  case agen w =>
    cases h
    refine ⟨laneAgen w, fun _ => rfl, rfl, rfl, rfl, fun l _ hl => ?_⟩
    have hfmt : l.fmt ≠ 30 := fun he => of_decide_eq_false hl (congrArg BitVec.toNat he)
    simpa [laneAgen] using fun he => absurd he hfmt
  all_goals cases h

theorem refusesBy_of_bitwise {i : Instr} {e : Claims.Element} (h : Claims.bitwise i = some e) : ∃ o, RefusesBy i e o := by
  cases i
  case and | or | xor | andn | not | clz | popc | bfx =>
    cases h
    exact ⟨_, fun _ => rfl, rfl, rfl, rfl, fun _ _ => sameFmt_of_wrong_left⟩
  case shl | shr | sar | rol | plane =>
    cases h
    exact ⟨_, fun _ => rfl, rfl, rfl, rfl, fun _ _ => rightFmt_of_wrong_left⟩
  all_goals cases h

theorem refusesBy_of_floating {i : Instr} {e : Claims.Element} (h : Claims.floating i = some e) : ∃ o, RefusesBy i e o := by
  cases i
  case fadd | fsub | fmul | fmak | fnmsk | fdiv | fsqrt | fmin | fmax | fabs | fneg | fcpys | fcmp | fclass | fround =>
    cases h
    exact ⟨_, fun _ => rfl, rfl, rfl, rfl, fun _ _ => sameFmt_of_wrong_left⟩
  case fscale w =>
    cases h
    exact ⟨laneFscale w, fun _ => rfl, rfl, rfl, rfl, fun _ _ hl => rightFmt_of_wrong_left (set := fun f => f = 8) hl⟩
  all_goals cases h

theorem refusesBy_of_row {i : Instr} {e : Claims.Element}
    (h : Claims.arithmetic i = some e ∨ Claims.bitwise i = some e ∨ Claims.floating i = some e) : ∃ o, RefusesBy i e o := by
  rcases h with h | h | h
  · exact refusesBy_of_arithmetic h
  · exact refusesBy_of_bitwise h
  · exact refusesBy_of_floating h

theorem faultOperandsPass : Claims.FaultOperandsPass := by
  intro s t p i e hrow hfocus pass
  obtain ⟨o, ho⟩ := refusesBy_of_row hrow
  rw [ho.runs, firing_next _ hfocus, State.lanewise, ho.two, ho.out, ho.cls]
  exact ⟨fun hl => congrArg _ (State.withLanes_of_leftFault hl),
    fun hl htwo hkr hr => congrArg _ (State.withLanes_of_rightFault hl htwo hkr hr)⟩

theorem wrongFormatFaults : Claims.WrongFormatFaults := by
  intro s t p i e hrow hfocus hl hr hleft
  obtain ⟨o, ho⟩ := refusesBy_of_row hrow
  rw [ho.runs, firing_next _ hfocus, State.lanewise, ho.two, ho.out, ho.cls]
  exact congrArg _ (State.withLanes_of_refused hl hr (ho.wrongLeft _ _ hleft))

/-- Settles O19: a firing looks for FAULT operands first, and then at L's format, before it computes. -/
theorem operandFaults : Obligations.OperandFaults := ⟨faultOperandsPass, wrongFormatFaults⟩

end Sys2Proof.Machine

/-! PROOFS. The arrival of a token at a tile (R89 to R91, R319) and the reclaim of a context (R22, R23). -/

namespace Sys2Proof.Machine

/-! ## What an arrival comes to (R21, R89, R95) -/

/-- A token of a context whose tokens are not delivered is taken and leaves nothing. -/
theorem State.arrive_of_undelivered {s : State} {u : Nat} {p : Packet} (hbell : p.tok.act ≠ .bell)
    (hdue : (s.tile u).belled p.tok.ctx = false) (hsaved : (s.tile u).savedFor p.tok.ctx = false)
    (hlive : (s.ctx p.tok.ctx).st ≠ .live) (hfrozen : (s.ctx p.tok.ctx).st ≠ .frozen) : s.arrive u p = .taken s := by
  have hdelivers : (s.ctx p.tok.ctx).delivers = false := by simp [Ctx.delivers, hlive, hfrozen]
  simp [State.arrive, hbell, hdue, hsaved, hdelivers]

/-- A PURGE at a slot that is no EGRESS purges the port that it came to. -/
theorem State.arrive_of_purge {s : State} {u : Nat} {p : Packet} (hact : p.tok.act = .purge)
    (hdue : (s.tile u).belled p.tok.ctx = false) (hsaved : (s.tile u).savedFor p.tok.ctx = false)
    (hlive : (s.ctx p.tok.ctx).st = .live) (hop : (s.slotInfo u p.tok.slot).op ≠ 0x0F) :
    s.arrive u p = .taken (s.updTile u fun x => x.purge p.tok.ctx p.tok.slot p.tok.port) := by
  have hdelivers : (s.ctx p.tok.ctx).delivers = true := by simp [Ctx.delivers, hlive]
  simp [State.arrive, hdue, hsaved, hdelivers, hact, hop, State.updTile]

/-! ## TOKEN_ARRIVAL (R89, R90, R322) -/

/-- The head `p` of input port `k` has come, and nothing is taken before it. -/
def State.Admits (s : State) (u k : Nat) (p : Packet) : Prop :=
  p.since ≤ s.cycle ∧ s.doorBefore u p = false ∧ s.replayBefore u p = false ∧ ∀ q < 5, s.headBefore u q p k = false

/-- The state in which a packet is out of the net. -/
abbrev State.without (s : State) (i : Nat) : State := { s with net := s.net.eraseIdx i }

/-- The state after an arrival: a packet that is held goes back to its place, stalled. -/
def Arrival.result (i : Nat) (p : Packet) : Arrival → State
  | .taken s' => s'
  | .held s' hit => { s' with net := s'.net.insertIdx i { p with stalled := true, collided := hit } }

section
variable {s s' : State} {u k i : Nat} {p : Packet} (hfocus : s.focus = .event u k) (hhead : s.inputHead u k = some (p, i))
include hfocus hhead

/-- The head of a port waits while it has not come yet, or something else is taken before it. -/
theorem exec_tokenArrival_waits
    (h : s.cycle < p.since ∨ s.doorBefore u p = true ∨ s.replayBefore u p = true ∨ ∃ q < 5, s.headBefore u q p k = true) :
    exec .tokenArrival s = .next s := by
  have hwaits : (decide (s.cycle < p.since) || s.doorBefore u p || s.replayBefore u p ||
      (List.range 5).any fun q => s.headBefore u q p k) = true := by
    simpa [or_assoc] using h
  show execTokenArrival s = _
  simp only [execTokenArrival, hfocus, hhead, if_pos hwaits]

/-- Else it is what its arrival makes of it. -/
theorem exec_tokenArrival_admits (h : s.Admits u k p) :
    exec .tokenArrival s = .next (((s.without i).arrive u p).result i p) := by
  obtain ⟨hcome, hdoor, hreplay, hheads⟩ := h
  have hgoes : ¬ (decide (s.cycle < p.since) || s.doorBefore u p || s.replayBefore u p ||
      (List.range 5).any fun q => s.headBefore u q p k) = true := by
    simpa [hdoor, hreplay] using ⟨hcome, hheads⟩
  show execTokenArrival s = _
  unfold execTokenArrival
  split
  · next v j hf =>
    obtain ⟨rfl, rfl⟩ := Focus.event.inj (hfocus.symm.trans hf)
    simp only [hhead, if_neg hgoes]
    cases (s.without i).arrive u p with
    | taken s' => rfl
    | held s' hit => rfl
  · next hf => exact absurd hfocus (hf u k)

end

theorem tokenArrival : Claims.TokenArrival := by
  intro s u k i p hfocus hhead
  refine ⟨exec_tokenArrival_waits hfocus hhead, fun hcome hdoor hreplay hheads => ?_⟩
  have hexec := exec_tokenArrival_admits hfocus hhead ⟨hcome, hdoor, hreplay, hheads⟩
  have htaken {s' : State} (h : (s.without i).arrive u p = .taken s') : exec .tokenArrival s = .next s' := by
    rw [hexec, h, Arrival.result]
  refine ⟨fun hbell hdue hsaved hlive hfrozen => ?undelivered, fun hact hdue hsaved hlive hop => ?purge, fun _ => htaken,
    fun s' hit h => ?held⟩
  case undelivered => exact htaken (State.arrive_of_undelivered hbell hdue hsaved hlive hfrozen)
  case purge => exact htaken (State.arrive_of_purge hact hdue hsaved hlive hop)
  case held => rw [hexec, h, Arrival.result]

/-! ## CONTEXT_RECLAIM (R22, R23) -/

theorem contextReclaim : Claims.ContextReclaim := by
  intro s u k hfocus
  have hexec : exec .contextReclaim s = execContextReclaim s := rfl
  simp only [hexec, execContextReclaim, hfocus]
  refine ⟨fun hst hdone => ?reclaims, fun hst hdone => ?frees, fun hst => ?stays⟩
  case reclaims => simp [hst, hdone]
  case frees => simp [hst, hdone]
  case stays => simp [hst]

/-- Settles O40: an arrival that nothing comes before is what `State.arrive` makes of it, and a reclaim goes by the state of
the context. -/
theorem arrivalAndReclaim : Obligations.ArrivalAndReclaim := ⟨tokenArrival, contextReclaim⟩

end Sys2Proof.Machine

/-! PROOFS. The results of a firing (R17, R96, R97): the run that a result makes, where some of its elements are absent too, and
its emission. -/

namespace Sys2Proof.Machine

/-! ## The mask and the elements of a run (R97) -/

theorem bit_eq_testBit (n i : Nat) : bit n i = n.testBit i := by
  rw [bit, Nat.testBit_eq_decide_div_mod_eq, Bool.beq_eq_decide_eq]

theorem testBit_maskOf (l : List (Option Nat)) (i : Nat) : (maskOf l).testBit i = (l.getD i none).isSome := by
  induction l generalizing i with
  | nil => simp [maskOf]
  | cons v l ih =>
    have hbit : (if v.isSome then 1 else 0) + 2 * maskOf l = Nat.bit v.isSome (maskOf l) := by
      cases v.isSome <;> simp [Nat.bit, Nat.add_comm]
    rw [maskOf, hbit]
    cases i with
    | zero => simp
    | succ i => simpa [Nat.testBit_bit_succ] using ih i

theorem maskOf_lt (l : List (Option Nat)) : maskOf l < 2 ^ l.length := by
  induction l with
  | nil => decide
  | cons v l ih =>
    have hv : (if v.isSome then 1 else 0) ≤ 1 := by split <;> decide
    rw [maskOf, List.length_cons, Nat.pow_succ]
    omega

/-- The NORMAL run of a result at a tag (R97). -/
def Res.run (r : Res) (c : Nat) (g : BitVec 32) : Token :=
  { act := .normal, fmt := r.fmt, len := r.vals.length, scale := BitVec.ofInt 8 r.scale, ctx := c, itag := g,
    mask := BitVec.ofNat 32 (maskOf r.vals), data := r.vals.map fun v => BitVec.ofNat 64 (v.getD 0) }

section
variable {r : Res} {c n i : Nat} {g : BitVec 32} {v : Nat → Option Nat} (hv : r.vals = (List.range n).map v) (hi : i < n)
include hv hi

/-- A run of up to 32 elements holds those that are present in its result. -/
theorem Res.has_run (hn : n ≤ 32) : (r.run c g).has i = (v i).isSome := by
  have hlen : r.vals.length = n := by simp [hv]
  have hmask : maskOf r.vals < 2 ^ 32 := (maskOf_lt _).trans_le (Nat.pow_le_pow_right (by decide) (hlen ▸ hn))
  have hword : (BitVec.ofNat 32 (maskOf r.vals)).toNat = maskOf r.vals := by
    rw [BitVec.toNat_ofNat, Nat.mod_eq_of_lt hmask]
  rw [Token.has, Res.run, hword, bit_eq_testBit, testBit_maskOf, hlen]
  simp [hv, hi]

theorem Res.elem_run : (r.run c g).elem i = (v i).getD 0 % 2 ^ 64 := by
  simp [Token.elem, Res.run, hv, hi]

end

/-- A result with an element present is its NORMAL run. -/
theorem Res.tokenAt_eq_run {r : Res} (h : ∃ v ∈ r.vals, v ≠ none) (c : Nat) (g : BitVec 32) (n : Nat) (fwd : Bool) :
    r.tokenAt c g n fwd = some (r.run c g) := by
  refine if_neg ?_
  simpa using h

/-- A result with no element present is an EMPTY where an absence is FORWARD or the instruction's own, and else nothing. -/
theorem Res.tokenAt_of_absent {r : Res} (h : ∀ v ∈ r.vals, v = none) (c : Nat) (g : BitVec 32) (n : Nat) (fwd : Bool) :
    r.tokenAt c g n fwd =
      if fwd || r.own then some { act := .empty, fmt := r.fmt, len := n, scale := BitVec.ofInt 8 r.scale, ctx := c, itag := g }
      else none := by
  refine if_pos ?_
  simpa using h

/-! ## Emission of a run (R17, R97) -/

/-- A run passes the last tag by its ITAG and LEN alone. -/
theorem Token.wraps_of_run {tok : Token} (h : tok.act = .normal ∨ tok.act = .sticky ∨ tok.act = .empty) :
    tok.wraps = decide (2 ^ 32 < tok.lo + tok.len) := by
  rcases h with h | h | h <;> simp [Token.wraps, h]

section
variable {z : State} {t : Nat} {p : Pairing} {ts : List (Nat × BitVec 18)}

/-- Where TagWrap stands in for the tokens of a firing, they are sent or it is raised. -/
theorem State.wrapOr_eq_sentTo {fmt : Fmt} {outs : List Out} {n : Nat} {wraps : Bool} (h : wraps = decide (2 ^ 32 < p.itag.toNat + n)) :
    (if wraps then z.fireFault t p ts fmt p.itag.toNat 0x0B 0x05 else z.emit t p.slot p.ctx p.itag.toNat outs) =
      Claims.sentTo z t p ts fmt n outs := by
  rw [h, Claims.sentTo]
  by_cases hfit : p.itag.toNat + n ≤ 2 ^ 32
  · rw [if_pos hfit, if_neg (by simpa using hfit)]
  · rw [if_neg hfit, if_pos (by simpa using hfit)]
    rfl

/-- A run over a pairing's tags is sent to every target, or raises TagWrap. -/
theorem State.emitRun_eq_sentTo {tok : Token} (hact : tok.act = .normal ∨ tok.act = .sticky ∨ tok.act = .empty)
    (hitag : tok.itag = p.itag) : z.emitRun t p ts tok = Claims.sentTo z t p ts tok.fmt tok.len (toAll ts tok) :=
  State.wrapOr_eq_sentTo (by rw [Token.wraps_of_run hact, Token.lo, hitag])

/-- So is the run of a result with an element present. -/
theorem State.emitRes_eq_run {r : Res} (h : ∃ v ∈ r.vals, v ≠ none) (fwd : Bool) :
    z.emitRes t p ts fwd r =
      Claims.sentTo z t p ts r.fmt r.vals.length (toAll ts (r.run p.ctx p.itag)) := by
  rw [State.emitRes, Res.token, Res.tokenAt_eq_run h]
  exact State.emitRun_eq_sentTo (.inl rfl) rfl

/-- An EMPTY result is sent to every target, or raises TagWrap. -/
theorem State.emitRes_eq_empty {r : Res} (h : ∀ v ∈ r.vals, v = none) {fwd : Bool} (hshown : (fwd || r.own) = true) :
    z.emitRes t p ts fwd r = Claims.sentTo z t p ts r.fmt p.len (toAll ts
      { act := .empty, fmt := r.fmt, len := p.len, scale := BitVec.ofInt 8 r.scale, ctx := p.ctx, itag := p.itag }) := by
  rw [State.emitRes, Res.token, Res.tokenAt_of_absent h, if_pos hshown]
  exact State.emitRun_eq_sentTo (.inr (.inr rfl)) rfl

/-- A result with no element that is no EMPTY is not sent. -/
theorem State.emitRes_eq_self {r : Res} (h : ∀ v ∈ r.vals, v = none) {fwd : Bool} (hshown : (fwd || r.own) = false) :
    z.emitRes t p ts fwd r = z := by
  rw [State.emitRes, Res.token, Res.tokenAt_of_absent h, if_neg (by simp [hshown])]

/-- A result with every element present is sent as the run of its values. -/
theorem State.emitRes_eq_fullRun {r : Res} {l : List Nat} (hv : r.vals = l.map some) (hl : l ≠ []) (fwd : Bool) :
    z.emitRes t p ts fwd r =
      Claims.sentTo z t p ts r.fmt l.length (toAll ts (Claims.fullRun p r.fmt r.scale l)) := by
  rw [State.emitRes, Res.token, Res.tokenAt_present r l hv hl]
  exact State.emitRun_eq_sentTo (.inl rfl) rfl

end

/-! ## The elements that the empty policies leave (R96) -/

section
variable {each : Bool} {el er kl kr : Nat} {α : Type} {g : α → Option Nat × Option Nat}

/-- Where no tag raises Empty, each tag has what its policies leave it. -/
theorem lanesFrom_eq_ok {f : α → Option Nat × Option Nat × Bool} {l : List α}
    (h : ∀ i ∈ l, policy each el er kl kr (g i).1 (g i).2 = some (f i)) (n : Nat) :
    lanesFrom each el er kl kr (l.map g) n = .ok (l.map fun i => (f i).1, l.map fun i => (f i).2.1, l.any fun i => (f i).2.2) := by
  induction l generalizing n with
  | nil => rfl
  | cons i l ih =>
    have hi := h i (by simp)
    have hl := ih (fun x hx => h x (by simp [hx])) (n + 1)
    simp only [List.map_cons, lanesFrom, hi, hl, List.any_cons]

/-- The first tag whose policies raise Empty is the one that the fault names. -/
theorem lanesFrom_eq_error {l : List (Option Nat × Option Nat)} {j : Nat} (hj : j < l.length)
    (hbelow : ∀ i, (hi : i < j) → (policy each el er kl kr (l[i]'(hi.trans hj)).1 (l[i]'(hi.trans hj)).2).isSome = true)
    (hat : policy each el er kl kr l[j].1 l[j].2 = none) (n : Nat) : lanesFrom each el er kl kr l n = .error (n + j) := by
  induction l generalizing j n with
  | nil => simp at hj
  | cons v l ih =>
    cases j with
    | zero =>
      have hv : policy each el er kl kr v.1 v.2 = none := hat
      simp only [lanesFrom, hv, Nat.add_zero]
    | succ j =>
      obtain ⟨y, hy⟩ : ∃ y, policy each el er kl kr v.1 v.2 = some y := Option.isSome_iff_exists.mp (hbelow 0 (Nat.succ_pos j))
      have hrest := ih (Nat.lt_of_succ_lt_succ hj) (fun i hi => hbelow (i + 1) (Nat.succ_lt_succ hi)) hat (n + 1)
      simp only [lanesFrom, hy, hrest, Except.error.injEq]
      omega

end

/-! ## An element-wise firing on the elements that are there (R145 to R148) -/

/-- An operation that sets no flag, element by element: an element is there where both operands hold one and the operation
keeps it. -/
theorem mapLanes_map {α : Type} (f : Nat → Nat → Option Nat) (x y : α → Option Nat) (l : List α) :
    mapLanes (fun a b => (f a b, 0)) (l.map x) (l.map y) = (l.map fun i => (x i).bind fun a => (y i).bind fun b => f a b, 0) := by
  induction l with
  | nil => rfl
  | cons i l ih =>
    cases hx : x i with
    | none => simp [mapLanes, ih, hx]
    | some a =>
      cases hy : y i with
      | none => simp [mapLanes, ih, hx, hy]
      | some b => simp [mapLanes, ih, hx, hy]

theorem ownAbsence_map {α : Type} (x y v : α → Option Nat) (l : List α) :
    ownAbsence (l.map x) (l.map y) (l.map v) = l.any fun i => (x i).isSome && (y i).isSome && (v i).isNone := by
  induction l with
  | nil => rfl
  | cons i l ih => simp only [List.map_cons, ownAbsence, ih, List.any_cons]

section
variable {s : State} {t : Nat} {p : Pairing} {w : DWord}

/-- A firing that leaves an Empty fault is that fault (R97). -/
theorem State.withLanes_of_empty {two : Bool} {out : Fmt} {held : Nat} {ok : Token → Token → Option (Nat × Nat)}
    {body : State → List (Nat × BitVec 18) → Lanes → State} {each : Bool} {j : Nat} (hl : p.left.act ≠ .fault)
    (hr : two = true → w.kr = 0 → p.right.act ≠ .fault) (hok : ok p.left p.right = none)
    (hlanes : lanesFrom each w.el.toNat w.er.toNat (s.konst t 15 % 2 ^ fmtBits p.left.fmt.toNat)
      (s.konst t 15 % 2 ^ fmtBits p.right.fmt.toNat)
      ((List.range p.len).map fun i => (p.left.lane i, rightLane w two (s.konst t w.kidx.toNat) p.right i)) 0 = .error j) :
    s.withLanes t p w two out held ok body each =
      (s.hold t held).emptyFault t p (s.targets t w.nt w.t1 w.t0) out (p.itag.toNat + j) := by
  have hboth : ¬ (two && decide (w.kr = 0) && decide (p.right.act = .fault)) = true := by
    simpa using hr
  simp only [State.withLanes, if_neg hl, if_neg hboth, hok, State.hold_konst, hlanes]

/-- The firing of a row that reads two tokens and sets no flag, where each tag has what `f` says that R96 leaves it: the result of
the row's operation on these elements. -/
theorem State.lanewise_of_lanes {o : LaneOp} {f : Nat → Option Nat × Option Nat × Bool} {val : Nat → Nat → Option Nat} {sc : Int}
    (htwo : o.two = true) (hkr : w.kr = 0) (hl : p.left.act ≠ .fault) (hr : p.right.act ≠ .fault) (hok : o.ok p.left p.right = none)
    (hpolicy : ∀ i < p.len, policy false w.el.toNat w.er.toNat (s.konst t 15 % 2 ^ fmtBits p.left.fmt.toNat)
      (s.konst t 15 % 2 ^ fmtBits p.right.fmt.toNat) (p.left.lane i) (p.right.lane i) = some (f i))
    (hscale : o.rule.apply p.left.scale.toInt (some p.right.scale.toInt) = some sc) (hval : ∀ z, o.f z = fun a b => (val a b, 0)) :
    s.lanewise t p w o =
      ((s.hold t (o.cls.cycles w.fmt.toNat p.len)).addFlags p.ctx 0).emitRes t p (s.targets t w.nt w.t1 w.t0)
        ((List.range p.len).any fun i => (f i).2.2)
        { fmt := o.out, scale := sc,
          vals := (List.range p.len).map fun i => (f i).1.bind fun a => (f i).2.1.bind fun b => val a b,
          own := (List.range p.len).any fun i =>
            (f i).1.isSome && (f i).2.1.isSome && ((f i).1.bind fun a => (f i).2.1.bind fun b => val a b).isNone } := by
  have hlanes := lanesFrom_eq_ok (g := fun i => (p.left.lane i, p.right.lane i)) (fun i hi => hpolicy i (List.mem_range.mp hi)) 0
  rw [State.lanewise, State.withLanes_body s t p w o.two o.out _ o.ok _ false _ _ _ hl (fun _ _ => hr) hok
    (by simpa [rightLane, htwo, hkr] using hlanes)]
  have hrule : o.rule.apply p.left.scale.toInt (if (o.two && decide (w.kr = 0)) = true then some p.right.scale.toInt else none) = some sc := by
    simpa [htwo, hkr] using hscale
  simp only [Lanes.sl, Lanes.sr, hrule, hval, mapLanes_map, ownAbsence_map]

end

end Sys2Proof.Machine

/-! PROOFS. ADD and MASK on runs with absent elements (R96, R97). -/

namespace Sys2Proof.Machine

/-! ## The policies of a tag's absences (R96) -/

/-- The policies of the operands that have no element at tag `i`. -/
def Pairing.absences (p : Pairing) (w : DWord) (i : Nat) : List Nat :=
  (if p.left.has i then [] else [w.el.toNat]) ++ (if p.right.has i then [] else [w.er.toNat])

/-- Every absence at tag `i` is REPLACE: both operands give an element. -/
def Pairing.there (p : Pairing) (w : DWord) (i : Nat) : Bool := (p.absences w i).all fun q => q = 2

/-- An operand's element, or the constant that replaces it. -/
def Token.elemOr (a : Token) (k i : Nat) : Nat := if a.has i then a.elem i else k

/-- What R96 leaves of an operand at tag `i`. -/
def Pairing.filled (p : Pairing) (w : DWord) (k : Nat) (a : Token) (i : Nat) : Option Nat :=
  if a.has i || p.there w i then some (a.elemOr k i) else none

theorem Pairing.there_of_has {p : Pairing} {i : Nat} (w : DWord) (hl : p.left.has i = true) (hr : p.right.has i = true) :
    p.there w i = true := by
  simp [Pairing.there, Pairing.absences, hl, hr]

/-- Both operands give an element where every absence is REPLACE, and else at most one does. -/
theorem Pairing.filled_bind_filled (p : Pairing) (w : DWord) (k i : Nat) (f : Nat → Nat → Option Nat) :
    ((p.filled w k p.left i).bind fun a => (p.filled w k p.right i).bind fun b => f a b) =
      if p.there w i then f (p.left.elemOr k i) (p.right.elemOr k i) else none := by
  cases hthere : p.there w i
  · cases hl : p.left.has i
    · simp [Pairing.filled, hthere, hl]
    · have hr : p.right.has i = false := by
        rw [← Bool.not_eq_true]
        intro hr
        simp [Pairing.there_of_has w hl hr] at hthere
      simp [Pairing.filled, hthere, hr]
  · simp [Pairing.filled, hthere]

/-- What both operands give, the result has, if the operation keeps every element. -/
theorem Pairing.filled_kept (p : Pairing) (w : DWord) (k i v : Nat) :
    ((p.filled w k p.left i).isSome && (p.filled w k p.right i).isSome && (if p.there w i then some v else none).isNone) = false := by
  cases hthere : p.there w i
  · have hbind := p.filled_bind_filled w k i fun a _ => some a
    rw [hthere] at hbind
    cases hx : p.filled w k p.left i
    · rfl
    · cases hy : p.filled w k p.right i
      · rfl
      · simp [hx, hy] at hbind
  · simp

/-- R96 at a tag of a pairing, both operands under one constant. -/
theorem policy_lanes (p : Pairing) (w : DWord) (k i : Nat) :
    policy false w.el.toNat w.er.toNat k k (p.left.lane i) (p.right.lane i) =
      if 3 ∈ p.absences w i then none
      else some (p.filled w k p.left i, p.filled w k p.right i, decide (1 ∈ p.absences w i)) := by
  cases hl : p.left.has i <;> cases hr : p.right.has i <;>
    simp [policy, Token.lane, Pairing.absences, Pairing.filled, Pairing.there, Token.elemOr, hl, hr]

theorem fmtBits_le (f : Nat) : fmtBits f ≤ 64 := by
  unfold fmtBits fmtBytes
  split_ifs <;> decide

theorem low_lt {n : Nat} (z : Int) (hn : n ≤ 64) : low n z < 2 ^ 64 := by
  have hpos : (0 : Int) < (2 ^ n : Nat) := by positivity
  have hlt := Int.emod_lt_of_pos z hpos
  have hle : 2 ^ n ≤ 2 ^ 64 := Nat.pow_le_pow_right (by decide) hn
  rw [low]
  omega

/-! ## ADD (R96, R97) -/

/-- The result of ADD where no absence raises Empty. -/
def addResult (p : Pairing) (w : DWord) (k : Nat) : Res :=
  { fmt := w.fmt, scale := p.left.scale.toInt,
    vals := (List.range p.len).map fun i =>
      if p.there w i then
        some (low (fmtBits w.fmt.toNat) (ival w.fmt.toNat (p.left.elemOr k i) + ival w.fmt.toNat (p.right.elemOr k i)))
      else none }

section
variable {s : State} {t : Nat} {p : Pairing} {w : DWord} (hfocus : s.focus = .firing t p) (hl : p.left.act ≠ .fault)
  (hr : p.right.act ≠ .fault) (hkr : w.kr = 0) (hlf : p.left.fmt = w.fmt) (hrf : p.right.fmt = w.fmt)
include hfocus hl hr hkr hlf hrf

theorem exec_add_of_empty {j : Nat} (hj : j < p.len) (hat : 3 ∈ p.absences w j) (hbelow : ∀ i < j, 3 ∉ p.absences w i) :
    exec (.add w) s = .next ((s.hold t (Hold.simple.cycles w.fmt.toNat p.len)).slotFault t p.slot p.ctx (s.targets t w.nt w.t1 w.t0)
      w.fmt p.itag p.len p.itag.toNat 0x0A 0x00 (p.itag.toNat + j) 0 0) := by
  have hok : (laneAdd w).ok p.left p.right = none := sameFmt_none (by rw [hlf]) fun _ _ => by rw [hrf]
  have hlanes : lanesFrom false w.el.toNat w.er.toNat (s.konst t 15 % 2 ^ fmtBits p.left.fmt.toNat)
      (s.konst t 15 % 2 ^ fmtBits p.right.fmt.toNat)
      ((List.range p.len).map fun i => (p.left.lane i, rightLane w true (s.konst t w.kidx.toNat) p.right i)) 0 = .error j := by
    rw [hlf, hrf]
    refine (lanesFrom_eq_error (j := j) (by simpa using hj) (fun i hi => ?_) ?_ 0).trans (by rw [Nat.zero_add])
    · simp [rightLane, hkr, policy_lanes, hbelow i hi]
    · simp [rightLane, hkr, policy_lanes, hat]
  exact (firing_next _ hfocus).trans (congrArg _ (State.withLanes_of_empty hl (fun _ _ => hr) hok hlanes))

theorem exec_add_of_lanes (hsc : p.left.scale = p.right.scale) (hnone : ∀ i < p.len, 3 ∉ p.absences w i) :
    exec (.add w) s = .next (((s.hold t (Hold.simple.cycles w.fmt.toNat p.len)).addFlags p.ctx 0).emitRes t p
      (s.targets t w.nt w.t1 w.t0) ((List.range p.len).any fun i => 1 ∈ p.absences w i)
      (addResult p w (s.konst t 15 % 2 ^ fmtBits w.fmt.toNat))) := by
  have hok : (laneAdd w).ok p.left p.right = none := sameFmt_none (by rw [hlf]) fun _ _ => by rw [hrf]
  have hpolicy (i : Nat) (hi : i < p.len) :=
    (policy_lanes p w (s.konst t 15 % 2 ^ fmtBits w.fmt.toNat) i).trans (if_neg (hnone i hi))
  have hscale : (laneAdd w).rule.apply p.left.scale.toInt (some p.right.scale.toInt) = some p.left.scale.toInt := by
    simp [laneAdd, intOp, ScaleRule.apply, hsc]
  have hlane := State.lanewise_of_lanes (o := laneAdd w) rfl hkr hl hr hok (by rwa [hlf, hrf]) hscale fun _ => rfl
  refine (firing_next _ hfocus).trans (congrArg _ (hlane.trans ?_))
  have hown (n : Nat) : ((List.range n).any fun _ => false) = false := List.any_eq_false.mpr fun _ _ => Bool.false_ne_true
  simp only [Pairing.filled_bind_filled, Pairing.filled_kept, hown]
  rfl

end

theorem emptyPolicies : Claims.EmptyPolicies := by
  intro s t p w hfocus _ hlen hl hr hkr hlf hrf hsc absent k elem there n z
  have hresult (hnone : ∀ i < p.len, 3 ∉ p.absences w i) := exec_add_of_lanes hfocus hl hr hkr hlf hrf hsc hnone
  have hnoVals (h : ∀ i < p.len, 3 ∉ absent i ∧ there i = false) : ∀ v ∈ (addResult p w k).vals, v = none := by
    have hthere : ∀ i < p.len, p.there w i = false := fun i hi => (h i hi).2
    simpa [addResult] using hthere
  refine ⟨fun j hj => exec_add_of_empty hfocus hl hr hkr hlf hrf hj, fun hnone hsome => ?run, fun habsent hforward => ?empty,
    fun habsent hforward => ?nothing⟩
  case run =>
    have hvals : ∃ v ∈ (addResult p w k).vals, v ≠ none := by
      have hthere : ∃ i < p.len, p.there w i = true := hsome
      simpa [addResult] using hthere
    refine ⟨(addResult p w k).run p.ctx p.itag, (hresult hnone).trans (congrArg _ (State.emitRes_eq_run hvals _)), rfl, rfl,
      by simp [Res.run, addResult], rfl, fun i hi => ⟨?_, fun hthere => ?_⟩⟩
    · rw [Res.has_run rfl hi hlen]
      change _ = p.there w i
      cases p.there w i <;> rfl
    · have hthere : p.there w i = true := hthere
      rw [Res.elem_run rfl hi, hthere]
      exact Nat.mod_eq_of_lt (low_lt _ (fmtBits_le _))
  case empty =>
    have hfwd : ((List.range p.len).any fun i => 1 ∈ p.absences w i) = true := by
      obtain ⟨i, hi, h1⟩ := hforward
      exact List.any_eq_true.mpr ⟨i, List.mem_range.mpr hi, decide_eq_true h1⟩
    refine (hresult fun i hi => (habsent i hi).1).trans (congrArg _ ?_)
    rw [State.emitRes_eq_empty (hnoVals habsent) (by rw [hfwd, Bool.true_or])]
    simp only [addResult, BitVec.ofInt_toInt]
    rfl
  case nothing =>
    have hfwd : ((List.range p.len).any fun i => 1 ∈ p.absences w i) = false :=
      List.any_eq_false.mpr fun i hi h1 => hforward i (List.mem_range.mp hi) (of_decide_eq_true h1)
    refine (hresult fun i hi => (habsent i hi).1).trans (congrArg _ ?_)
    exact State.emitRes_eq_self (hnoVals habsent) (by rw [hfwd]; rfl)

/-! ## MASK (R97) -/

/-- The result of MASK on whole operands. -/
def maskResult (p : Pairing) (w : DWord) : Res :=
  { fmt := w.fmt, scale := p.left.scale.toInt,
    vals := (List.range p.len).map fun i => if p.right.elem i = 0 then none else some (p.left.elem i),
    own := (List.range p.len).any fun i => p.right.elem i = 0 }

theorem lane_of_full {a : Token} {p : Pairing} {i : Nat} (h : Claims.Full a p) (hi : i < p.len) : a.lane i = some (a.elem i) :=
  if_pos (h.2 i hi)

theorem exec_mask {s : State} {t : Nat} {p : Pairing} {w : DWord} (hfocus : s.focus = .firing t p) (hl : Claims.Full p.left p)
    (hr : Claims.Full p.right p) (hkr : w.kr = 0) (hlf : p.left.fmt = w.fmt) :
    exec (.mask w) s = .next (((s.hold t (Hold.simple.cycles w.fmt.toNat p.len)).addFlags p.ctx 0).emitRes t p
      (s.targets t w.nt w.t1 w.t0) false (maskResult p w)) := by
  have hok : (laneMask w).ok p.left p.right = none := 
    rightFmt_none (set := fun _ => true) (r := p.right) (by rw [hlf]) fun _ => rfl
  have hlane := State.lanewise_of_lanes (s := s) (t := t) (o := laneMask w) (sc := p.left.scale.toInt)
    (f := fun i => (some (p.left.elem i), some (p.right.elem i), false)) (val := fun a b => if b = 0 then none else some a)
    rfl hkr hl.1 hr.1 hok (fun i hi => by rw [lane_of_full hl hi, lane_of_full hr hi, policy_present]) rfl fun _ => rfl
  refine (firing_next _ hfocus).trans (congrArg _ (hlane.trans ?_))
  have hfwd : ((List.range p.len).any fun _ => false) = false := List.any_eq_false.mpr fun _ _ => Bool.false_ne_true
  have hown (i : Nat) : (if p.right.elem i = 0 then none else some (p.left.elem i)).isNone = decide (p.right.elem i = 0) := by
    split <;> simp [*]
  simp only [Option.bind_some, Option.isSome_some, Bool.true_and, hfwd, hown]
  rfl

theorem maskElements : Claims.MaskElements := by
  intro s t p w hfocus hpos hlen hl hr hkr hlf
  have hexec := exec_mask hfocus hl hr hkr hlf
  by_cases hzero : ∀ i < p.len, p.right.elem i = 0
  · have hvals : ∀ v ∈ (maskResult p w).vals, v = none := by simpa [maskResult] using hzero
    have hown : (maskResult p w).own = true := List.any_eq_true.mpr ⟨0, List.mem_range.mpr hpos, by simpa using hzero 0 hpos⟩
    refine ⟨{ act := .empty, fmt := w.fmt, len := p.len, scale := BitVec.ofInt 8 p.left.scale.toInt, ctx := p.ctx, itag := p.itag },
      hexec.trans (congrArg _ (State.emitRes_eq_empty (fwd := false) hvals hown)), rfl, rfl, rfl, BitVec.ofInt_toInt,
      by simpa using hzero, .inl rfl, fun i hi => ?_, fun i hi hne => absurd (hzero i hi) hne⟩
    simp [Token.has, bit, hzero i hi]
  · push Not at hzero
    have hvals : ∃ v ∈ (maskResult p w).vals, v ≠ none := by simpa [maskResult] using hzero
    refine ⟨(maskResult p w).run p.ctx p.itag, hexec.trans (congrArg _ (State.emitRes_eq_run hvals _)),
      by simp [Res.run, maskResult], rfl, rfl, BitVec.ofInt_toInt, ?_, .inr rfl, fun i hi => ?_, fun i hi hne => ?_⟩
    · obtain ⟨i, hi, hne⟩ := hzero
      exact ⟨fun h => by simp [Res.run] at h, fun h => absurd (h i hi) hne⟩
    · rw [Res.has_run rfl hi hlen]
      split <;> simp [*]
    · rw [Res.elem_run rfl hi, if_neg hne]
      rfl

/-- Settles O20: R96 is applied tag by tag, and the result of the elements that it leaves is a run, an EMPTY or nothing. -/
theorem absentElements : Obligations.AbsentElements := ⟨emptyPolicies, maskElements⟩

end Sys2Proof.Machine

/-! PROOFS. What the dataflow instructions send (R17, R18, R103, R104). -/

namespace Sys2Proof.Machine

/-! ## Firings on whole operands in any formats (R103, R105) -/

section
variable {s : State} {t : Nat} {p : Pairing} {w : DWord} (hl : Claims.Full p.left p)
include hl

theorem State.withLanes_of_full {two : Bool} {out : Fmt} {held : Nat} {ok : Token → Token → Option (Nat × Nat)}
    (hr : two = true → Claims.Full p.right p) (hok : ok p.left p.right = none)
    (body : State → List (Nat × BitVec 18) → Lanes → State) :
    s.withLanes t p w two out held ok body = body (s.hold t held) (s.targets t w.nt w.t1 w.t0) (Claims.lanes s t p w two) :=
  State.withLanes_full s t p w two out held ok body false hl.1 hl.2 (fun htwo _ => hr htwo) hok

theorem State.onLeft_of_full (out : Fmt) (body : State → List (Nat × BitVec 18) → Lanes → State) :
    s.onLeft t p w out body = body (s.hold t 1) (s.targets t w.nt w.t1 w.t0) (Claims.lanes s t p w false) :=
  State.withLanes_of_full (two := false) (ok := fun _ _ => none) hl nofun rfl body

theorem State.onBoth_of_full (hr : Claims.Full p.right p) (body : State → List (Nat × BitVec 18) → Lanes → State) :
    s.onBoth t p w body = body (s.hold t 1) (s.targets t w.nt w.t1 w.t0) (Claims.lanes s t p w true) :=
  State.withLanes_of_full (ok := fun _ _ => none) hl (fun _ => hr) rfl body

end

/-- The elements of L at a pairing's tags. -/
def Pairing.lefts (p : Pairing) : List Nat := (List.range p.len).map p.left.elem

@[simp] theorem Pairing.lefts_length (p : Pairing) : p.lefts.length = p.len := by simp [Pairing.lefts]

theorem Pairing.lefts_ne_nil {p : Pairing} (h : 0 < p.len) : p.lefts ≠ [] := by
  simpa [← List.length_pos_iff] using h

/-- L over a pairing's tags is the run of its elements. -/
theorem pieceOf_whole (p : Pairing) :
    Claims.pieceOf p 0 p.len = Claims.fullRun p p.left.fmt p.left.scale.toInt p.lefts := by
  simp [Claims.pieceOf, Claims.fullRun, Pairing.lefts]

section
variable {s : State} {t : Nat} {p : Pairing} {w : DWord} {two : Bool}

theorem lanes_x (s : State) (t : Nat) (p : Pairing) (w : DWord) (two : Bool) : (Claims.lanes s t p w two).x = p.lefts.map some := by
  simp [Claims.lanes, Pairing.lefts]

/-- A firing that sends L's tags with elements that are all there (R17, R97). -/
theorem State.emitRes_eq_sends {r : Res} {l : List Nat} (hv : r.vals = l.map some) (hl : l ≠ []) (fwd : Bool) :
    (s.hold t 1).emitRes t p (s.targets t w.nt w.t1 w.t0) fwd r = Claims.sends s t p w (Claims.fullRun p r.fmt r.scale l) :=
  State.emitRes_eq_fullRun hv hl fwd

/-- L sent as it is. -/
theorem State.emitRes_left (hpos : 0 < p.len) :
    (s.hold t 1).emitRes t p (s.targets t w.nt w.t1 w.t0) (Claims.lanes s t p w two).fwd
      ((Claims.lanes s t p w two).asL (Claims.lanes s t p w two).x) = Claims.sends s t p w (Claims.pieceOf p 0 p.len) := by
  rw [pieceOf_whole]
  exact State.emitRes_eq_sends (lanes_x s t p w two) (Pairing.lefts_ne_nil hpos) _

/-- Where Rt holds every element too, its data drop out. -/
theorem lanes_both : (Claims.lanes s t p w true).both = p.lefts.map some := by
  simp [Lanes.both, Claims.lanes, Pairing.lefts, List.zipWith_map, List.zipWith_self]

end

/-! ## Instructions that send L or a run over its tags (R103) -/

section
variable {s : State} {t : Nat} {p : Pairing} (w : DWord) (hfocus : s.focus = .firing t p) (hl : Claims.Full p.left p)
include hfocus hl

theorem exec_sink : exec (.sink w) s = .next (s.hold t 1) :=
  (firing_next _ hfocus).trans (congrArg _ (State.onLeft_of_full hl _ _))

theorem exec_purge :
    exec (.purge w) s = .next ((s.hold t 1).emit t p.slot p.ctx p.itag.toNat
      (toAll (s.targets t w.nt w.t1 w.t0) { act := .purge, ctx := p.ctx })) :=
  (firing_next _ hfocus).trans (congrArg _ (State.onLeft_of_full hl _ _))

theorem exec_cancel :
    exec (.cancel w) s = .next ((s.hold t 1).emit t p.slot p.ctx p.itag.toNat
      (toAll (s.targets t w.nt w.t1 w.t0) (Claims.bare p .cancel))) :=
  (firing_next _ hfocus).trans (congrArg _ (State.onLeft_of_full hl _ _))

variable (hpos : 0 < p.len)
include hpos

theorem exec_pass : exec (.pass w) s = .next (Claims.sends s t p w (Claims.pieceOf p 0 p.len)) :=
  (firing_next _ hfocus).trans (congrArg _ ((State.onLeft_of_full hl _ _).trans (State.emitRes_left hpos)))

theorem exec_fanout : exec (.fanout w) s = .next (Claims.sends s t p w (Claims.pieceOf p 0 p.len)) :=
  (firing_next _ hfocus).trans (congrArg _ ((State.onLeft_of_full hl _ _).trans (State.emitRes_left hpos)))

theorem exec_sync (hr : Claims.Full p.right p) :
    exec (.sync w) s = .next (Claims.sends s t p w (Claims.pieceOf p 0 p.len)) := by
  refine (firing_next _ hfocus).trans (congrArg _ ((State.onBoth_of_full hl hr _).trans ?_))
  rw [lanes_both, pieceOf_whole]
  exact State.emitRes_eq_sends rfl (Pairing.lefts_ne_nil hpos) _

theorem exec_emit :
    exec (.emit w) s = .next (Claims.sends s t p w { Claims.pieceOf p 0 p.len with
      fmt := w.fmt, scale := 0,
      data := List.replicate p.len (BitVec.ofNat 64 (s.konst t w.kidx.toNat % 2 ^ fmtBits w.fmt.toNat)) }) := by
  have hrun : { Claims.pieceOf p 0 p.len with
      fmt := w.fmt, scale := 0, data := List.replicate p.len (BitVec.ofNat 64 (s.konst t w.kidx.toNat % 2 ^ fmtBits w.fmt.toNat)) } =
      Claims.fullRun p w.fmt 0 (List.replicate p.len (s.konst t w.kidx.toNat % 2 ^ fmtBits w.fmt.toNat)) := by
    simp [Claims.pieceOf, Claims.fullRun]
  refine (firing_next _ hfocus).trans (congrArg _ ((State.onLeft_of_full hl _ _).trans ?_))
  rw [hrun]
  refine State.emitRes_eq_sends ?_ (by simp; omega) _
  simp [Claims.lanes, Function.comp_def]

theorem exec_ctag :
    exec (.ctag w) s = .next (Claims.sends s t p w { Claims.pieceOf p 0 p.len with
      fmt := 11, scale := 0, data := (List.range p.len).map fun i => BitVec.ofNat 64 ((p.itag.toNat + i) % 2 ^ 32) }) := by
  have hrun : { Claims.pieceOf p 0 p.len with
      fmt := 11, scale := 0, data := (List.range p.len).map fun i => BitVec.ofNat 64 ((p.itag.toNat + i) % 2 ^ 32) } =
      Claims.fullRun p 11 0 ((List.range p.len).map fun i => (p.itag.toNat + i) % 2 ^ 32) := by
    simp [Claims.pieceOf, Claims.fullRun]
  refine (firing_next _ hfocus).trans (congrArg _ ((State.onLeft_of_full hl _ _).trans ?_))
  rw [hrun]
  refine State.emitRes_eq_sends ?_ (by simp; omega) _
  refine List.ext_getElem (by simp [Claims.lanes]) fun i _ _ => ?_
  simp [Claims.lanes]

theorem exec_stick :
    exec (.stick w) s = .next (Claims.sends s t p w { Claims.pieceOf p 0 p.len with
      act := .sticky, drp := w.kr = 1, crib := if w.kr = 1 then BitVec.ofNat 4 (s.konst t w.kidx.toNat % 16) else 0 }) := by
  have hcrib (k : Nat) : BitVec.ofNat 4 (k % 16) = BitVec.ofNat 4 k := by
    apply BitVec.eq_of_toNat_eq
    simp
  have htoken : ((Claims.lanes s t p w false).asL (Claims.lanes s t p w false).x).token p (Claims.lanes s t p w false).fwd =
      some (Claims.pieceOf p 0 p.len) := by
    rw [pieceOf_whole]
    exact Res.tokenAt_present _ _ (lanes_x s t p w false) (Pairing.lefts_ne_nil hpos) _ _ _ _
  refine (firing_next _ hfocus).trans (congrArg _ ((State.onLeft_of_full hl _ _).trans ?_))
  rw [htoken, hcrib]
  exact State.emitRun_eq_sentTo (.inr (.inl rfl)) (by simp [Claims.pieceOf])

end

theorem dataflowResults : Claims.DataflowResults := by
  intro s t p w hfocus hpos _ hl k l
  exact ⟨exec_sink w hfocus hl, exec_pass w hfocus hl hpos, exec_fanout w hfocus hl hpos, fun hr _ => exec_sync w hfocus hl hpos hr,
    exec_emit w hfocus hl hpos, exec_ctag w hfocus hl hpos, exec_stick w hfocus hl hpos⟩

theorem dataflowPassing : Claims.DataflowPassing := by
  intro s t p w hfocus ts out arrived
  refine ⟨fun hl => ⟨exec_purge w hfocus hl, exec_cancel w hfocus hl⟩, firing_next _ hfocus, fun hfit => ?merge⟩
  case merge =>
    have hwraps : ¬ arrived.wraps = true := by rw [Token.wraps_of_le hfit]; exact Bool.false_ne_true
    exact (firing_next _ hfocus).trans (congrArg _ (if_neg hwraps))

/-! ## STEER (R103) -/

/-- The elements of one side of a STEER. -/
def sideResult (p : Pairing) (taken : Nat → Bool) : Res :=
  { fmt := p.left.fmt, scale := p.left.scale.toInt,
    vals := (List.range p.len).map fun i => if taken (p.right.elem i) then some (p.left.elem i) else none }

/-- What a STEER sends to a side: L's elements under the side's predicate, over the pairing's tags. -/
structure IsSteerSide (p : Pairing) (taken : Nat → Bool) (x : Token) : Prop where
  len : x.len = p.len
  itag : x.itag = p.itag
  ctx : x.ctx = p.ctx
  fmt : x.fmt = p.left.fmt
  act : x.act = .normal ∨ x.act = .cancel
  cancel : x.act = .cancel ↔ ∀ i < p.len, x.has i = false
  elem : ∀ i < p.len, x.has i = true → x.elem i = p.left.elem i
  has : ∀ i < p.len, x.has i = taken (p.right.elem i)

section
variable {s : State} {t : Nat} {p : Pairing} {w : DWord} {taken : Nat → Bool}

theorem steerSide_eq (hkr : w.kr = 0) :
    steerSide p (Claims.lanes s t p w true) taken =
      ((sideResult p taken).token p false).getD (bareToken .cancel p.left.fmt p) := by
  have hright (i : Nat) : Claims.rightElem s t p w i = p.right.elem i := if_neg (by simp [hkr])
  simp only [steerSide, Claims.lanes, List.zipWith_map, List.zipWith_self, hright, if_true]
  split
  · next tok h =>
    have hrun : (sideResult p taken).token p false = some tok := h
    rw [hrun, Option.getD_some]
  · next h =>
    have hnone : (sideResult p taken).token p false = none := h
    rw [hnone, Option.getD_none]

theorem isSteerSide_steerSide (hkr : w.kr = 0) (hlen : p.len ≤ 32) :
    IsSteerSide p taken (steerSide p (Claims.lanes s t p w true) taken) := by
  rw [steerSide_eq hkr, Res.token]
  by_cases hany : ∃ i < p.len, taken (p.right.elem i) = true
  · have hvals : ∃ v ∈ (sideResult p taken).vals, v ≠ none := by simpa [sideResult] using hany
    have hhas : ∀ i < p.len, ((sideResult p taken).run p.ctx p.itag).has i = taken (p.right.elem i) := by
      intro i hi
      rw [Res.has_run rfl hi hlen]
      cases taken (p.right.elem i) <;> rfl
    rw [Res.tokenAt_eq_run hvals, Option.getD_some]
    refine ⟨by simp [Res.run, sideResult], rfl, rfl, rfl, .inl rfl, ⟨nofun, fun h => ?_⟩, fun i hi h => ?_, hhas⟩
    · obtain ⟨i, hi, htaken⟩ := hany
      simp [← hhas i hi, h i hi] at htaken
    · rw [hhas i hi] at h
      rw [Res.elem_run rfl hi, h]
      exact Nat.mod_eq_of_lt (BitVec.isLt _)
  · have htaken : ∀ i < p.len, taken (p.right.elem i) = false := by simpa using hany
    have hvals : ∀ v ∈ (sideResult p taken).vals, v = none := by simpa [sideResult] using htaken
    have hhas (i : Nat) : (bareToken .cancel p.left.fmt p).has i = false := by simp [bareToken, Token.has, bit]
    rw [Res.tokenAt_of_absent hvals, if_neg (show ¬ (false || (sideResult p taken).own) = true from Bool.false_ne_true), Option.getD_none]
    exact ⟨rfl, rfl, rfl, rfl, .inr rfl, ⟨fun _ i _ => hhas i, fun _ => rfl⟩, fun i _ h => absurd h (by simp [hhas i]),
      fun i hi => (hhas i).trans (htaken i hi).symm⟩

/-- A side passes the last tag where the pairing's tags do, unless it is a CANCEL. -/
theorem IsSteerSide.wraps_eq {x : Token} (h : IsSteerSide p taken x) :
    x.wraps = (decide (x.act = .normal) && decide (2 ^ 32 < p.itag.toNat + p.len)) := by
  rcases h.act with hact | hact <;> simp [Token.wraps, Token.lo, hact, h.len, h.itag]

/-- A side with an element is a run. -/
theorem IsSteerSide.normal_of_taken {x : Token} {i : Nat} (h : IsSteerSide p taken x) (hi : i < p.len)
    (htaken : taken (p.right.elem i) = true) : x.act = .normal := by
  refine h.act.resolve_right fun hcancel => ?_
  simp [← h.has i hi, h.cancel.mp hcancel i hi] at htaken

end

/-- Two sides of which one is a run are sent, or raise TagWrap (R17). -/
theorem State.emitRuns_sides {z : State} {t : Nat} {p : Pairing} {ts : List (Nat × BitVec 18)} {fmt : Fmt} {taken other : Nat → Bool}
    {a b : Out} (ha : IsSteerSide p taken a.tok) (hb : IsSteerSide p other b.tok) (hrun : a.tok.act = .normal ∨ b.tok.act = .normal) :
    z.emitRuns t p ts fmt [a, b] = Claims.sentTo z t p ts fmt p.len [a, b] := by
  have hwraps : ([a, b].any fun o => o.tok.wraps) = decide (2 ^ 32 < p.itag.toNat + p.len) := by
    simp only [List.any_cons, List.any_nil, Bool.or_false, ha.wraps_eq, hb.wraps_eq]
    rcases hrun with hrun | hrun <;> simp [hrun]
  rw [State.emitRuns, hwraps]
  exact State.wrapOr_eq_sentTo rfl

theorem steerSplitsByPredicate : Claims.SteerSplitsByPredicate := by
  intro s t p w hfocus hpos hlen hkr hl hr
  have ha := isSteerSide_steerSide (s := s) (t := t) (taken := fun b => b ≠ 0) hkr hlen
  have hb := isSteerSide_steerSide (s := s) (t := t) (taken := fun b => b = 0) hkr hlen
  have hrun : (steerSide p (Claims.lanes s t p w true) fun b => b ≠ 0).act = .normal ∨
      (steerSide p (Claims.lanes s t p w true) fun b => b = 0).act = .normal := by
    by_cases hzero : p.right.elem 0 = 0
    · exact .inr (hb.normal_of_taken hpos (decide_eq_true hzero))
    · exact .inl (ha.normal_of_taken hpos (decide_eq_true hzero))
  refine ⟨_, _, (firing_next _ hfocus).trans (congrArg _ ((State.onBoth_of_full hl hr _).trans (State.emitRuns_sides ha hb hrun))),
    ?_, fun i hi => ⟨ha.has i hi, hb.has i hi⟩⟩
  rintro x hx
  obtain ⟨taken, h⟩ : ∃ taken, IsSteerSide p taken x := by
    simp only [List.mem_cons, List.not_mem_nil, or_false] at hx
    rcases hx with rfl | rfl
    · exact ⟨_, ha⟩
    · exact ⟨_, hb⟩
  exact ⟨h.len, h.itag, h.ctx, h.fmt, h.act, h.cancel, h.elem⟩

/-! ## RETAG, SPLIT and UNPACK (R17, R103, R104) -/

section
variable {s : State} {t : Nat} {p : Pairing} (w : DWord) (hfocus : s.focus = .firing t p) (hl : Claims.Full p.left p) (hpos : 0 < p.len)

/-- A part of L is a run of its elements. -/
theorem partRun_lanes {a n : Nat} (hn : 0 < n) (han : a + n ≤ p.len) :
    partRun p (Claims.lanes s t p w false) a n = some (Claims.pieceOf p a n) := by
  have hvals : ((Claims.lanes s t p w false).x.drop a).take n = ((List.range n).map fun i => p.left.elem (a + i)).map some := by
    refine List.ext_getElem (by simp [Claims.lanes]; omega) fun i _ _ => ?_
    simp [Claims.lanes]
  have hne : ((List.range n).map fun i => p.left.elem (a + i)) ≠ [] := by simp; omega
  rw [partRun, Res.tokenAt_present _ _ hvals hne]
  simp [Claims.pieceOf, Lanes.asL, Lanes.sl, Claims.lanes]

theorem partOut_lanes {a n : Nat} (ix : Nat) (g : BitVec 18) (hn : 0 < n) (han : a + n ≤ p.len) :
    partOut p (Claims.lanes s t p w false) ix g a n = [{ ix := ix, tgt := g, tok := Claims.pieceOf p a n }] := by
  simp [partOut, partRun_lanes w hn han]

/-- The runs of an UNPACK start at L's tags. -/
theorem piece_starts_within {n j : Nat} (hn : 0 < n) (hj : j < (p.len + n - 1) / n) : j * n < p.len := by
  have hle := (Nat.le_div_iff_mul_le hn).mp (Nat.succ_le_of_lt hj)
  rw [Nat.succ_mul] at hle
  omega

include hfocus hl

theorem exec_unpack_of_shape {n : Nat} (hk : s.konst t w.kidx.toNat % 64 = n) (hn : n = 0 ∨ fmtMaxLen p.left.fmt.toNat < n) :
    exec (.unpack w) s = .next ((s.hold t 1).fireFault t p (s.targets t w.nt w.t1 w.t0) p.left.fmt p.itag.toNat 0x0B 0x0A) := by
  have hshape : (decide (n = 0) || decide (fmtMaxLen p.left.fmt.toNat < n)) = true := by simpa using hn
  have hk : (Claims.lanes s t p w false).k % 64 = n := hk
  refine (firing_next _ hfocus).trans (congrArg _ ((State.onLeft_of_full hl _ _).trans ?_))
  simp only [hk]
  exact if_pos hshape

include hpos

theorem exec_retag (hr : Claims.Full p.right p) :
    exec (.retag w) s = .next
      (if 2 ^ 32 < p.right.elem 0 % 2 ^ 32 + p.len then
        (s.hold t 1).fireFault t p (s.targets t w.nt w.t1 w.t0) p.left.fmt p.itag.toNat 0x0B 0x05
      else (s.hold t 1).emit t p.slot p.ctx p.itag.toNat (toAll (s.targets t w.nt w.t1 w.t0)
        { Claims.pieceOf p 0 p.len with itag := BitVec.ofNat 32 (p.right.elem 0 % 2 ^ 32) })) := by
  have htoken (g : BitVec 32) : ((Claims.lanes s t p w true).asL (Claims.lanes s t p w true).both).tokenAt p.ctx g p.len
      (Claims.lanes s t p w true).fwd = some { Claims.pieceOf p 0 p.len with itag := g } := by
    rw [pieceOf_whole]
    exact Res.tokenAt_present _ _ lanes_both (Pairing.lefts_ne_nil hpos) _ _ _ _
  refine (firing_next _ hfocus).trans (congrArg _ ((State.withLanes_of_full hl (fun _ => hr) (if_pos (hr.2 0 hpos)) _).trans ?_))
  refine if_congr Iff.rfl rfl ?_
  rw [htoken]
  rfl

theorem exec_split :
    let n := s.konst t w.kidx.toNat % 64
    exec (.split w) s = .next (Claims.sentTo (s.hold t 1) t p (s.targets t w.nt w.t1 w.t0) p.left.fmt p.len
      (if n = 0 then [{ ix := 1, tgt := w.t1, tok := Claims.pieceOf p 0 p.len }]
       else if p.len ≤ n then [{ ix := 0, tgt := w.t0, tok := Claims.pieceOf p 0 p.len }]
       else [{ ix := 0, tgt := w.t0, tok := Claims.pieceOf p 0 n }, { ix := 1, tgt := w.t1, tok := Claims.pieceOf p n (p.len - n) }])) := by
  intro n
  have hk : (Claims.lanes s t p w false).k % 64 = n := rfl
  refine (firing_next _ hfocus).trans (congrArg _ ((State.onLeft_of_full hl _ _).trans ?_))
  simp only [hk]
  by_cases hzero : n = 0
  · simp only [if_pos hzero, partOut_lanes w 1 w.t1 hpos (Nat.zero_add _).le]
    exact State.wrapOr_eq_sentTo (by simp)
  · by_cases hlong : p.len ≤ n
    · simp only [if_neg hzero, if_pos hlong, partOut_lanes w 0 w.t0 hpos (Nat.zero_add _).le]
      exact State.wrapOr_eq_sentTo (by simp)
    · have hhead := partOut_lanes (s := s) (t := t) (p := p) (a := 0) (n := n) w 0 w.t0 (by omega) (by omega)
      have htail := partOut_lanes (s := s) (t := t) (p := p) (a := n) (n := p.len - n) w 1 w.t1 (by omega) (by omega)
      simp only [if_neg hzero, if_neg hlong, hhead, htail]
      exact State.wrapOr_eq_sentTo (by simp)

theorem exec_unpack {n : Nat} (hk : s.konst t w.kidx.toNat % 64 = n) (hn : 1 ≤ n) (hmax : n ≤ fmtMaxLen p.left.fmt.toNat) :
    exec (.unpack w) s = .next (Claims.sentTo (s.hold t 1) t p (s.targets t w.nt w.t1 w.t0) p.left.fmt p.len
      ((List.range ((p.len + n - 1) / n)).flatMap fun j =>
        toAll (s.targets t w.nt w.t1 w.t0) (Claims.pieceOf p (j * n) (min n (p.len - j * n))))) := by
  have hruns : ((List.range ((p.len + n - 1) / n)).filterMap fun j =>
      partRun p (Claims.lanes s t p w false) (j * n) (min n (p.len - j * n))) =
      (List.range ((p.len + n - 1) / n)).map fun j => Claims.pieceOf p (j * n) (min n (p.len - j * n)) := by
    rw [← List.filterMap_eq_map]
    refine List.filterMap_congr fun j hj => ?_
    have hstart := piece_starts_within (p := p) hn (List.mem_range.mp hj)
    exact partRun_lanes w (by omega) (by omega)
  have hsome : 0 < (p.len + n - 1) / n := Nat.div_pos (by omega) hn
  have hshape : ¬ (decide (n = 0) || decide (fmtMaxLen p.left.fmt.toNat < n)) = true := by
    simp only [Bool.or_eq_true, decide_eq_true_eq]
    omega
  have hk : (Claims.lanes s t p w false).k % 64 = n := hk
  refine (firing_next _ hfocus).trans (congrArg _ ((State.onLeft_of_full hl _ _).trans ?_))
  simp only [hk]
  refine (if_neg hshape).trans ?_
  simp only [hruns, List.flatMap_map]
  exact State.wrapOr_eq_sentTo (by simp; omega)

end

theorem dataflowTags : Claims.DataflowTags := by
  intro s t p w hfocus hpos hlen hl n b ts fault out sent
  refine ⟨fun _ hr => ?retag, exec_split w hfocus hl hpos, exec_unpack w hfocus hl hpos rfl, exec_unpack_of_shape w hfocus hl rfl⟩
  case retag =>
    have hexec := exec_retag w hfocus hl hpos hr
    exact ⟨fun hfit => hexec.trans (congrArg _ (if_neg (Nat.not_lt.mpr hfit))), fun hwrap => hexec.trans (congrArg _ (if_pos hwrap))⟩

/-! ## PACK (R103, R104) -/

/-- An operand of a PACK that holds each of its elements gives them all. -/
theorem packSide_of_full (pol k : Nat) {a : Token} (h : ∀ i < a.len, a.has i = true) :
    packSide pol k a = .ok (((List.range a.len).map a.elem).map some, false) := by
  have hlanes : ((List.range a.len).map fun i => (a.lane i, some 0)) =
      ((List.range a.len).map fun i => (a.elem i, 0)).map fun v => (some v.1, some v.2) := by
    rw [List.map_map]
    refine List.map_congr_left fun i hi => ?_
    simp [Token.lane, h i (List.mem_range.mp hi)]
  rw [packSide, hlanes, lanesFrom_present]
  simp [Function.comp_def]

section
variable {s : State} {t : Nat} {p : Pairing} (w : DWord) (hfocus : s.focus = .firing t p) (hl : p.l.value.act ≠ .fault)
  (hr : p.r.value.act ≠ .fault)
include hfocus hl hr

theorem exec_pack_of_clash (h : p.l.value.fmt ≠ p.r.value.fmt ∨ p.l.value.scale ≠ p.r.value.scale ∨
      fmtMaxLen p.l.value.fmt.toNat < p.l.value.len + p.r.value.len) :
    exec (.pack w) s = .next ((s.hold t 1).slotFault t p.slot p.ctx (s.targets t w.nt w.t1 w.t0) p.l.value.fmt p.itag
      (min p.len (fmtMaxLen p.l.value.fmt.toNat)) p.itag.toNat 0x0B 0x09 0 0 0) := by
  have hclash : (decide (p.l.value.fmt ≠ p.r.value.fmt) || decide (p.l.value.scale ≠ p.r.value.scale) ||
      decide (fmtMaxLen p.l.value.fmt.toNat < p.l.value.len + p.r.value.len)) = true := by
    simpa [or_assoc] using h
  exact (firing_next _ hfocus).trans (congrArg _ ((if_neg hl).trans ((if_neg hr).trans (if_pos hclash))))

theorem exec_pack (h : ¬ (p.l.value.fmt ≠ p.r.value.fmt ∨ p.l.value.scale ≠ p.r.value.scale ∨
      fmtMaxLen p.l.value.fmt.toNat < p.l.value.len + p.r.value.len))
    (hlall : ∀ i < p.l.value.len, p.l.value.has i = true) (hrall : ∀ i < p.r.value.len, p.r.value.has i = true)
    (hpos : 0 < p.l.value.len) :
    exec (.pack w) s = .next (Claims.sentTo (s.hold t 1) t p (s.targets t w.nt w.t1 w.t0) p.l.value.fmt
      (p.l.value.len + p.r.value.len) (toAll (s.targets t w.nt w.t1 w.t0)
        (Claims.fullRun p p.l.value.fmt p.l.value.scale.toInt
          ((List.range p.l.value.len).map p.l.value.elem ++ (List.range p.r.value.len).map p.r.value.elem)))) := by
  have hagree : ¬ (decide (p.l.value.fmt ≠ p.r.value.fmt) || decide (p.l.value.scale ≠ p.r.value.scale) ||
      decide (fmtMaxLen p.l.value.fmt.toNat < p.l.value.len + p.r.value.len)) = true := by
    simpa [or_assoc] using h
  refine (firing_next _ hfocus).trans (congrArg _ ((if_neg hl).trans ((if_neg hr).trans ((if_neg hagree).trans ?_))))
  simp only [packSide_of_full _ _ hlall, packSide_of_full _ _ hrall]
  have hne : (List.range p.l.value.len).map p.l.value.elem ++ (List.range p.r.value.len).map p.r.value.elem ≠ [] := by
    simp
    omega
  refine (State.emitRes_eq_fullRun (List.map_append).symm hne _).trans ?_
  simp

end

theorem packJoins : Claims.PackJoins := by
  intro s t p w hfocus l r n ts bad hl hr
  refine ⟨fun hgood hlall hrall hpos => ?_, exec_pack_of_clash w hfocus hl hr⟩
  rw [exec_pack w hfocus hl hr hgood hlall hrall hpos]
  simp [Claims.fullRun, Function.comp_def, l, r, n, ts]

/-- Settles O23: the firings compute on whole operands, and each sends the runs that its instruction makes of them. -/
theorem dataflowInstructions : Obligations.DataflowInstructions :=
  ⟨dataflowResults, dataflowPassing, steerSplitsByPredicate, dataflowTags, packJoins⟩

end Sys2Proof.Machine

/-! PROOFS. Elements in a tile store (R4, R106, R122): they read back, and every other byte is as it was. -/

namespace Sys2Proof.Machine

/-! ## Bytes of a number (R4) -/

theorem ofBytes_toBytes (n v : Nat) : ofBytes (toBytes n v) = v % 256 ^ n := by
  induction n generalizing v with
  | zero => simp [toBytes, ofBytes, Nat.mod_one]
  | succ n ih => rw [toBytes, ofBytes, ih, pow_succ', Nat.mod_mul, BitVec.toNat_ofNat]

/-! ## Elements written one after another (R122) -/

/-- The places of two elements have no byte in common. -/
theorem element_places_disjoint {w i k j : Nat} (hj : j < w) (hlow : k * w ≤ i * w + j) (hhigh : i * w + j < k * w + w) : i = k := by
  have hdiv : (i * w + j) / w = i := by
    rw [Nat.add_comm, Nat.add_mul_div_right _ _ (by omega), Nat.div_eq_of_lt hj, Nat.zero_add]
  rw [← hdiv]
  exact Nat.div_eq_of_lt_le hlow (by rwa [Nat.succ_mul])

section
variable {m : List Host.Cell} {base w : Nat} {r : Token} (h : cellsWf m = true)
include h

theorem cellsWf_writeElems (l : List Nat) : cellsWf (writeElems m base w r l) = true := by
  induction l generalizing m with
  | nil => exact h
  | cons i is ih => exact ih (cellsWf_cellsSet _ _ _ h)

/-- A byte in the place of no element written is as it was. -/
theorem cellGet_writeElems_other {l : List Nat} {a : Nat} (ha : ∀ i ∈ l, ¬ (base + i * w ≤ a ∧ a < base + i * w + w)) :
    cellGet (writeElems m base w r l) a = cellGet m a := by
  induction l generalizing m with
  | nil => rfl
  | cons i is ih =>
    obtain ⟨hi, his⟩ := List.forall_mem_cons.mp ha
    rw [writeElems, ih (cellsWf_cellsSet _ _ _ h) his, cellGet_cellsSet _ _ _ _ h, toBytes_length, if_neg hi]

/-- Each element written is at its place. -/
theorem cellsGet_writeElems {l : List Nat} (hl : l.Nodup) {i : Nat} (hi : i ∈ l) :
    cellsGet (writeElems m base w r l) (base + i * w) w = toBytes w (r.elem i) := by
  induction l generalizing m with
  | nil => cases hi
  | cons k ks ih =>
    obtain ⟨hk, hks⟩ := List.nodup_cons.mp hl
    have hset := cellsWf_cellsSet m (base + k * w) (toBytes w (r.elem k)) h
    rcases List.mem_cons.mp hi with rfl | hi
    · have hkept : ∀ j < w, cellGet (writeElems m base w r (i :: ks)) (base + i * w + j) =
          cellGet (cellsSet m (base + i * w) (toBytes w (r.elem i))) (base + i * w + j) := by
        refine fun j hj => cellGet_writeElems_other hset fun n hn hin => ?_
        have : i = n := element_places_disjoint hj (by omega) (by omega)
        exact hk (this ▸ hn)
      have hread := cellsGet_cellsSet (base + i * w) (toBytes w (r.elem i)) h
      rw [toBytes_length] at hread
      exact (cellsGet_congr hkept).trans hread
    · exact ih hset hks hi

end

/-- Settles O26: elements of a run have places of their own, so each write leaves the others' bytes and all other bytes alone. -/
theorem tileStoreReadsBack : Obligations.TileStoreReadsBack := by
  intro m base w n r hm _ _ m'
  refine ⟨cellsWf_writeElems hm _, fun i hi hhas => ?read, fun a ha => cellGet_writeElems_other hm fun i hi => ?other⟩
  case read =>
    have hread := cellsGet_writeElems (base := base) (w := w) (r := r) hm (List.nodup_range.filter _)
      (List.mem_filter.mpr ⟨List.mem_range.mpr hi, hhas⟩)
    rw [hread, ofBytes_toBytes, pow_mul, show (2 : Nat) ^ 8 = 256 from rfl]
  case other =>
    obtain ⟨hin, hhas⟩ := List.mem_filter.mp hi
    exact ha i (List.mem_range.mp hin) hhas

end Sys2Proof.Machine

/-! PROOFS. The service of pool operations at their pool's tile (R109 to R113, R122, R124): which operation is served next, what
GIVE, RELEASE, TST and TLD do at a slot, and an ALLOC's grant on its way and at its arrival. -/

namespace Sys2Proof.Machine

/-! ## The operation served next (R111, R113) -/

/-- The choice so far, after one more head of an input port. -/
def State.pickOp (s : State) (u : Nat) (b : Option (Nat × PoolOp × Nat)) (h : Nat × PoolOp × Nat) : Option (Nat × PoolOp × Nat) :=
  if s.opHeld u h.2.1 then b
  else match b with
    | none => some h
    | some z => if h.1 < z.1 then some h else some z

/-- The choice among the heads of the first `m` input ports. -/
def State.bestOp (s : State) (u m : Nat) : Option (Nat × PoolOp × Nat) :=
  ((List.range m).filterMap fun q => s.opHead u q).foldl (s.pickOp u) none

/-- The head of one of the first `m` ports, which no full wait list holds. -/
def State.Contends (s : State) (u m q : Nat) (h : Nat × PoolOp × Nat) : Prop :=
  q < m ∧ s.opHead u q = some h ∧ s.opHeld u h.2.1 = false

section
variable {s : State} {u m q : Nat} {h z : Nat × PoolOp × Nat}

theorem State.nextOp_eq (s : State) (u : Nat) : s.nextOp u = (s.bestOp u 5).map fun h => h.2 := rfl

theorem State.bestOp_succ_of_none (hm : s.opHead u m = none) : s.bestOp u (m + 1) = s.bestOp u m := by
  simp [State.bestOp, List.range_succ, hm]

theorem State.bestOp_succ_of_head (hm : s.opHead u m = some h) : s.bestOp u (m + 1) = s.pickOp u (s.bestOp u m) h := by
  simp [State.bestOp, List.range_succ, hm]

theorem State.pickOp_none (hfree : s.opHeld u h.2.1 = false) : s.pickOp u none h = some h := if_neg (by simp [hfree])

theorem State.pickOp_some (hfree : s.opHeld u h.2.1 = false) :
    s.pickOp u (some z) h = if h.1 < z.1 then some h else some z := if_neg (by simp [hfree])

theorem State.contends_succ : s.Contends u (m + 1) q h ↔ s.Contends u m q h ∨ (q = m ∧ s.opHead u m = some h ∧ s.opHeld u h.2.1 = false) := by
  constructor
  · rintro ⟨hq, hh⟩
    rcases Nat.lt_succ_iff_lt_or_eq.mp hq with hq | rfl
    · exact .inl ⟨hq, hh⟩
    · exact .inr ⟨rfl, hh⟩
  · rintro (⟨hq, hh⟩ | ⟨rfl, hh⟩)
    · exact ⟨Nat.lt_succ_of_lt hq, hh⟩
    · exact ⟨Nat.lt_succ_self _, hh⟩

/-- A port without a head, or with one that a full wait list holds, leaves the choice as it was. -/
theorem State.contends_succ_of_idle (hm : ∀ h, s.opHead u m = some h → s.opHeld u h.2.1 = true) :
    s.Contends u (m + 1) q h ↔ s.Contends u m q h := by
  rw [State.contends_succ]
  refine or_iff_left ?_
  rintro ⟨-, hh, hfree⟩
  exact Bool.false_ne_true (hfree.symm.trans (hm h hh))

/-- Whether the head `z` of port `q` came before all others that contend, or with them at an earlier port. -/
def State.First (s : State) (u m q : Nat) (z : Nat × PoolOp × Nat) : Prop :=
  s.Contends u m q z ∧ ∀ q' h', s.Contends u m q' h' → z.1 < h'.1 ∨ (z.1 = h'.1 ∧ q ≤ q')

/-- The choice over one more port: its head goes first only where it came strictly earlier. -/
theorem State.first_succ (hm : s.opHead u m = some h) (hfree : s.opHeld u h.2.1 = false) (hz : s.First u m q z) :
    if h.1 < z.1 then s.First u (m + 1) m h else s.First u (m + 1) q z := by
  obtain ⟨hcont, hleast⟩ := hz
  have hnew : s.Contends u (m + 1) m h := ⟨Nat.lt_succ_self m, hm, hfree⟩
  split
  · next hlt =>
    refine ⟨hnew, fun q' h' hc => ?_⟩
    rcases State.contends_succ.mp hc with hc | ⟨rfl, hh, -⟩
    · have := hleast q' h' hc
      omega
    · cases hm.symm.trans hh
      exact .inr ⟨rfl, le_refl _⟩
  · next hge =>
    refine ⟨State.contends_succ.mpr (.inl hcont), fun q' h' hc => ?_⟩
    rcases State.contends_succ.mp hc with hc | ⟨rfl, hh, -⟩
    · exact hleast q' h' hc
    · cases hm.symm.trans hh
      have := hcont.1
      omega

/-- The choice is the first of the heads that contend, if any does. -/
theorem State.bestOp_spec (s : State) (u m : Nat) :
    (s.bestOp u m = none → ∀ q h, ¬ s.Contends u m q h) ∧ ∀ z, s.bestOp u m = some z → ∃ q, s.First u m q z := by
  induction m with
  | zero => exact ⟨fun _ q h hc => absurd hc.1 (Nat.not_lt_zero q), fun z hz => nomatch hz⟩
  | succ m ih =>
    obtain ⟨ihnone, ihsome⟩ := ih
    have hidle (hb : s.bestOp u (m + 1) = s.bestOp u m) (hm : ∀ h, s.opHead u m = some h → s.opHeld u h.2.1 = true) :
        (s.bestOp u (m + 1) = none → ∀ q h, ¬ s.Contends u (m + 1) q h) ∧
          ∀ z, s.bestOp u (m + 1) = some z → ∃ q, s.First u (m + 1) q z := by
      simp only [hb, State.First, State.contends_succ_of_idle hm]
      exact ⟨ihnone, ihsome⟩
    cases hm : s.opHead u m with
    | none => exact hidle (State.bestOp_succ_of_none hm) (by simp [hm])
    | some h =>
      have hb := State.bestOp_succ_of_head hm
      cases hheld : s.opHeld u h.2.1 with
      | true => exact hidle (hb.trans (if_pos hheld)) (by simp [hm, hheld])
      | false =>
        rw [hb]
        cases hbest : s.bestOp u m with
        | none =>
          rw [State.pickOp_none hheld]
          refine ⟨nofun, fun z hz => ⟨m, ?_⟩⟩
          cases hz
          refine ⟨⟨Nat.lt_succ_self m, hm, hheld⟩, fun q' h' hc => ?_⟩
          rcases State.contends_succ.mp hc with hc | ⟨rfl, hh, -⟩
          · exact absurd hc (ihnone hbest q' h')
          · cases hm.symm.trans hh
            exact .inr ⟨rfl, le_refl _⟩
        | some b =>
          rw [State.pickOp_some hheld]
          obtain ⟨q, hq⟩ := ihsome b hbest
          have hfirst := State.first_succ hm hheld hq
          split_ifs at hfirst ⊢
          · exact ⟨nofun, fun z hz => ⟨m, by cases hz; exact hfirst⟩⟩
          · exact ⟨nofun, fun z hz => ⟨q, by cases hz; exact hfirst⟩⟩

end

theorem poolOperationsOrder : Claims.PoolOperationsOrder := by
  intro s u i o hnext
  rw [State.nextOp_eq, Option.map_eq_some_iff] at hnext
  obtain ⟨⟨n, z⟩, hbest, rfl⟩ := hnext
  obtain ⟨q, ⟨hq, hhead, hfree⟩, hleast⟩ := (s.bestOp_spec u 5).2 _ hbest
  exact ⟨q, n, hq, hhead, hfree, fun q' n' o' i' hq' hh hf => hleast q' (n', o', i') ⟨hq', hh, hf⟩⟩

/-! ## The pools of a tile (R106, R107) -/

section
variable {s : State} {t p : Nat}

theorem State.pool_of_resident (hp : p ≠ 7) (hres : (s.tile t).status = .resident) : s.pool t p = (s.tile t).pools[p]? := by
  rw [State.pool, if_neg hp, if_pos hres]

theorem State.setPool_of_tile (x : Pool) (hp : p ≠ 7) : s.setPool t p x = s.updTile t fun y => { y with pools := y.pools.set p x } :=
  if_neg hp

theorem State.setPool_dean (x : Pool) (hp : p ≠ 7) : (s.setPool t p x).dean = s.dean := by
  rw [State.setPool_of_tile x hp]
  rfl

theorem State.tile_setPool (x : Pool) (hp : p ≠ 7) : (s.setPool t p x).tile t = { s.tile t with pools := (s.tile t).pools.set p x } := by
  rw [State.setPool_of_tile x hp, State.updTile_eq, State.tile_setTile]

/-- A pool put into a tile that has it is the pool there. -/
theorem State.pool_setPool {x : Pool} (y : Pool) (hp : p ≠ 7) (hres : (s.tile t).status = .resident) (hx : (s.tile t).pools[p]? = some x) :
    (s.setPool t p y).pool t p = some y := by
  rw [State.pool_of_resident hp (by rw [State.tile_setPool y hp]; exact hres), State.tile_setPool y hp]
  exact List.getElem?_set_self (List.getElem?_eq_some_iff.mp hx).1

/-- What a tile's slot emits to is in its block. -/
theorem State.slotTargets_updTile {f : Tile → Tile} (hf : (f (s.tile t)).block = (s.tile t).block) (slot : Nat) :
    (s.updTile t f).slotTargets t slot = s.slotTargets t slot := by
  simp [State.slotTargets, State.targets, State.blockOf, State.updTile_eq, hf]

end

/-! ## One operation served (R111, R124) -/

/-- A pool's tile as it serves an operation: the packet is gone, and the tile is busy for the operation's cycles. -/
def State.serving (s : State) (u i : Nat) (o : PoolOp) : State :=
  (s.without i).updTile u fun a => { a with opAt := s.cycle + o.cycles }

theorem PoolOp.cycles_eq (o : PoolOp) :
    o.cycles = if o.act = .tst ∨ o.act = .tld then 1 + (o.l.len * fmtBytes o.fmt.toNat + 31) / 32 else 1 := by
  rw [PoolOp.cycles]
  cases o.act <;> rfl

section
variable (s : State) (u i : Nat) (o : PoolOp)

@[simp] theorem State.tile_serving : (s.serving u i o).tile u = { s.tile u with opAt := s.cycle + o.cycles } :=
  State.tile_setTile _ _ _

@[simp] theorem State.serving_dean : (s.serving u i o).dean = s.dean := rfl
@[simp] theorem State.serving_net : (s.serving u i o).net = s.net.eraseIdx i := rfl
@[simp] theorem State.serving_mem : (s.serving u i o).mem = s.mem := rfl

@[simp] theorem State.pool_serving (p : Nat) : (s.serving u i o).pool u p = s.pool u p := by
  rw [State.pool, State.pool, State.tile_serving]
  rfl

@[simp] theorem State.slotBase_serving (p j : Nat) : (s.serving u i o).slotBase u p j = s.slotBase u p j := by
  simp [State.slotBase]

@[simp] theorem State.holdsRank_serving (p c : Nat) (tag : BitVec 32) :
    (s.serving u i o).holdsRank u p c tag = s.holdsRank u p c tag := by
  simp [State.holdsRank]

end

section
variable {s : State} {u k i : Nat} {o : PoolOp} (hfocus : s.focus = .event u k) (hat : (s.tile u).opAt ≤ s.cycle)
  (hnext : s.nextOp u = some (o, i))
include hfocus hat hnext

theorem exec_poolOp : exec .poolOp s = .next ((s.serving u i o).serveOp u o) := by
  show execPoolOp s = _
  simp only [execPoolOp, hfocus, if_neg (Nat.not_lt.mpr hat), hnext]
  rw [← hfocus]
  rfl

end

/-! ## Operations on a slot (R110, R122) -/

/-- A slot of a tile that an operation's handle names, not free and of the operation's context. -/
structure State.Reaches (y : State) (u : Nat) (o : PoolOp) (x : Pool) (z : PSlot) : Prop where
  tile : hPool o.handle.toNat ≠ 7
  pool : y.pool u (hPool o.handle.toNat) = some x
  slot : x.slots[hSlot o.handle.toNat]? = some z
  gen : z.gen = hGen o.handle.toNat
  used : z.st ≠ .free
  owner : z.ownerCtx = o.ctx

section
variable {y : State} {u : Nat} {o : PoolOp} {x : Pool} {z : PSlot}

/-- A handle of an earlier generation fails its check (R122). -/
theorem State.checkHandle_of_gen {h c : Nat} (hx : y.pool u (hPool h) = some x) (hz : x.slots[hSlot h]? = some z)
    (hgen : z.gen ≠ hGen h) : y.checkHandle u h c = some (0x02, 0x01) := by
  simp only [State.checkHandle, hx, hz, if_pos hgen]

/-- A TST, TLD or RELEASE whose handle fails its check is that fault. -/
theorem State.serveOp_of_check {c e : Nat} (hact : o.act ∈ [.release, .tst, .tld])
    (hcheck : y.checkHandle u o.handle.toNat o.ctx = some (c, e)) : y.serveOp u o = y.opFault o o.outFmt c e := by
  simp only [List.mem_cons, List.not_mem_nil, or_false] at hact
  rcases hact with hact | hact | hact <;> simp only [State.serveOp, PoolOp.outFmt, hact, hcheck]

theorem slotIn_state {s : State} {st : SlotState} (h : Claims.SlotIn s u o x z st) : z.st = st := by
  obtain ⟨-, -, -, -, hst, -⟩ := h
  exact hst

theorem State.reaches_serving {s : State} {i : Nat} {st : SlotState} (h : Claims.SlotIn s u o x z st) (hst : st ≠ .free) :
    (s.serving u i o).Reaches u o x z := by
  obtain ⟨htile, hres, hx, hz, rfl, hgen, howner⟩ := h
  exact ⟨htile, by rw [State.pool_serving, State.pool_of_resident htile hres, hx], hz, hgen, hst, howner⟩

variable (h : y.Reaches u o x z)
include h

theorem State.Reaches.check : y.checkHandle u o.handle.toNat o.ctx = none := by
  simp [State.checkHandle, h.pool, h.slot, h.gen, h.used, h.owner]

theorem State.serveOp_give {n : Nat} (hact : o.act = .give n) (hst : z.st = .held) :
    y.serveOp u o = (y.setPool u (hPool o.handle.toNat)
      { x with slots := x.slots.set (hSlot o.handle.toNat) { z with st := .given, n := n } }).opEmit o o.l := by
  simp [State.serveOp, State.giveSlot, hact, h.check, h.pool, h.slot, hst, h.tile]

theorem State.serveOp_release (hact : o.act = .release) (hst : z.st = .given) (hn : 2 ≤ z.n) :
    y.serveOp u o = (y.setPool u (hPool o.handle.toNat)
      { x with slots := x.slots.set (hSlot o.handle.toNat) { z with n := z.n - 1 } }).opEmit o o.l := by
  have hmany : ¬ z.n ≤ 1 := Nat.not_le.mpr hn
  simp [State.serveOp, State.releaseSlot, hact, h.check, h.pool, h.slot, hst, hmany]

theorem State.serveOp_tst (hact : o.act = .tst) (hst : z.st = .held) (hoff : o.offset % 16 = 0)
    (hfit : o.offset + o.l.len * fmtBytes o.fmt.toNat ≤ x.size) :
    y.serveOp u o = ((y.setPool u (hPool o.handle.toNat)
        { x with slots := x.slots.set (hSlot o.handle.toNat) { z with scale := o.r.scale } }).updTile u fun a =>
      { a with store := writeElems a.store (y.slotBase u (hPool o.handle.toNat) (hSlot o.handle.toNat) + o.offset)
                          (fmtBytes o.fmt.toNat) o.r ((List.range o.l.len).filter o.r.has) }).opEmit o o.l := by
  simp [State.serveOp, slotBounds, hact, h.check, h.pool, h.slot, hst, h.tile, hoff, hfit]

theorem State.serveOp_tld (hact : o.act = .tld) (hst : z.st = .given) (hoff : o.offset % 16 = 0)
    (hfit : o.offset + o.l.len * fmtBytes o.fmt.toNat ≤ x.size) :
    y.serveOp u o = y.opEmit o { o.l with
      act := .normal, fmt := o.fmt, scale := z.scale,
      data := (List.range o.l.len).map fun i =>
        if o.l.has i then BitVec.ofNat 64 (ofBytes (cellsGet (y.tile u).store
          (y.slotBase u (hPool o.handle.toNat) (hSlot o.handle.toNat) + o.offset + i * fmtBytes o.fmt.toNat) (fmtBytes o.fmt.toNat)))
        else 0 } := by
  simp [State.serveOp, slotBounds, hact, h.check, h.pool, h.slot, hst, h.tile, hoff, hfit]

end

theorem poolOperationsServe : Claims.PoolOperationsServe := by
  intro s u k i o x z hfocus hat hnext h n y put at_ w
  have hy : y = s.serving u i o := by rw [State.serving, PoolOp.cycles_eq]
  have hbase : at_ = (s.serving u i o).slotBase u (hPool h) (hSlot h) + o.offset := by rw [State.slotBase_serving]
  have hstore : (s.tile u).store = ((s.serving u i o).tile u).store := by rw [State.tile_serving]
  rw [exec_poolOp hfocus hat hnext]
  simp only [put, hy, hbase, hstore]
  have hreach {st : SlotState} (hs : Claims.SlotIn s u o x z st) (hst : st ≠ .free) := State.reaches_serving (i := i) hs hst
  refine ⟨fun n hact hs => ?give, fun hact hs hn => ?release, fun hact hs hoff hfit => ?tst, fun hact hs hoff hfit => ?tld,
    fun hact htile hres hx hz hgen => ?stale⟩
  case give => rw [State.serveOp_give (hreach hs nofun) hact (slotIn_state hs)]
  case release => rw [State.serveOp_release (hreach hs nofun) hact (slotIn_state hs) hn]
  case tst => rw [State.serveOp_tst (hreach hs nofun) hact (slotIn_state hs) hoff hfit]
  case tld => rw [State.serveOp_tld (hreach hs nofun) hact (slotIn_state hs) hoff hfit]
  case stale =>
    have hpool : (s.serving u i o).pool u (hPool h) = some x := by rw [State.pool_serving, State.pool_of_resident htile hres, hx]
    rw [State.serveOp_of_check hact (State.checkHandle_of_gen hpool hz hgen)]

/-! ## Grants (R109, R112, R124) -/

/-- The head waiter `q` of a pool given its free slot `j`, and its grant sent. -/
def State.grantHead (s : State) (t p : Nat) (x : Pool) (q : Req) (rest : List Req) (j : Nat) (r : Region) : State :=
  ((s.setPool t p { x with
      slots := x.slots.set j { x.slots.getD j {} with st := .held, ownerCtx := q.ctx, ownerTag := q.itag, n := 0 }
      wait := rest }).updTile t Tile.granted).sendGrant q.tile
    { trig := q.trig, tile := t, tk := p, ctx := q.ctx,
      handle := some (BitVec.ofNat 32 (mkHandle (x.slots.getD j {}).gen p (tileX t - r.x0) (tileY t - r.y0) j)) }

section
variable {s : State} {t p : Nat} {x : Pool} {q : Req} {rest : List Req} {r : Region} {j : Nat}

/-- A pool with no waiter grants nothing. -/
theorem State.grantPool_of_noWaiter (hx : s.pool t p = some x) (hwait : x.wait = []) (fuel : Nat) : s.grantPool t p fuel = s := by
  cases fuel with
  | zero => rfl
  | succ n =>
    rw [State.grantPool, hx]
    cases s.regionAt t with
    | none => rfl
    | some r => simp only [hwait]

theorem State.grantPool_succ (hx : s.pool t p = some x) (hr : s.regionAt t = some r) (hwait : x.wait = q :: rest)
    (hj : x.slots.findIdx? (fun z => z.st = .free) = some j) (fuel : Nat) :
    s.grantPool t p (fuel + 1) = (s.grantHead t p x q rest j r).grantPool t p fuel := by
  rw [State.grantPool, hx, hr]
  simp only [hwait, hj]
  rfl

theorem State.tile_grantHead (hp : p ≠ 7) :
    (s.grantHead t p x q rest j r).tile t = Tile.granted { s.tile t with pools := (s.tile t).pools.set p { x with
      slots := x.slots.set j { x.slots.getD j {} with st := .held, ownerCtx := q.ctx, ownerTag := q.itag, n := 0 }
      wait := rest } } := by
  rw [← State.tile_setPool _ hp]
  exact State.tile_setTile _ _ _

/-- A pool with its head waiter granted. -/
theorem State.pools_grantHead {y : Pool} (hp : p ≠ 7) (hy : (s.tile t).pools[p]? = some y) :
    ((s.grantHead t p x q rest j r).tile t).pools[p]? = some { x with
      slots := x.slots.set j { x.slots.getD j {} with st := .held, ownerCtx := q.ctx, ownerTag := q.itag, n := 0 }
      wait := rest } := by
  rw [State.tile_grantHead hp]
  exact List.getElem?_set_self (List.getElem?_eq_some_iff.mp hy).1

/-- The grant is the only packet sent. -/
theorem State.net_grantHead (hp : p ≠ 7) : ∃ k : Packet, (s.grantHead t p x q rest j r).net = s.net ++ [k] ∧ k.place = .outq t ∧
    k.dest = .tile q.tile ∧ k.vc = 1 ∧ k.cargo = .grant
      { trig := q.trig, tile := t, tk := p, ctx := q.ctx,
        handle := some (BitVec.ofNat 32 (mkHandle (x.slots.getD j {}).gen p (tileX t - r.x0) (tileY t - r.y0) j)) } := by
  rw [State.grantHead, State.setPool_of_tile _ hp]
  exact ⟨_, rfl, rfl, rfl, rfl, rfl⟩

/-- A pool's only waiter granted. -/
theorem State.grantPool_of_oneWaiter (hp : p ≠ 7) (hres : (s.tile t).status = .resident) (hx : (s.tile t).pools[p]? = some x)
    (hr : s.regionAt t = some r) (hwait : x.wait = [q]) (hj : x.slots.findIdx? (fun z => z.st = .free) = some j) (fuel : Nat) :
    s.grantPool t p (fuel + 1) = s.grantHead t p x q [] j r := by
  rw [State.grantPool_succ ((State.pool_of_resident hp hres).trans hx) hr hwait hj]
  have hres' : ((s.grantHead t p x q [] j r).tile t).status = .resident := by
    rw [State.tile_grantHead hp]
    exact hres
  exact State.grantPool_of_noWaiter ((State.pool_of_resident hp hres').trans (State.pools_grantHead hp hx)) rfl fuel

end

/-- An ALLOC's only request taken into its pool's wait list and granted at once (R112). -/
theorem State.serveOp_alloc {y : State} {u j : Nat} {o : PoolOp} {x : Pool} {r : Region} (hact : o.act = .alloc)
    (hp : hPool o.handle.toNat ≠ 7) (hres : (y.tile u).status = .resident) (hx : (y.tile u).pools[hPool o.handle.toNat]? = some x)
    (hr : y.regionAt u = some r) (hwait : x.wait = []) (hj : x.slots.findIdx? (fun z => z.st = .free) = some j)
    (hrank : y.holdsRank u (hPool o.handle.toNat) o.ctx o.itag = false) :
    y.serveOp u o = (y.setPool u (hPool o.handle.toNat) { x with wait := [o.req] }).grantHead u (hPool o.handle.toNat)
      { x with wait := [o.req] } o.req [] j r := by
  have hpool : y.pool u (hPool o.handle.toNat) = some x := (State.pool_of_resident hp hres).trans hx
  have htile := State.tile_setPool (s := y) (t := u) { x with wait := [o.req] } hp
  simp only [State.serveOp, hact, hpool, hrank, Bool.false_eq_true, if_false, hwait, List.nil_append]
  refine State.grantPool_of_oneWaiter (x := { x with wait := [o.req] }) hp (by rw [htile]; exact hres) ?_ ?_ rfl hj 63
  · rw [htile]
    exact List.getElem?_set_self (List.getElem?_eq_some_iff.mp hx).1
  · rw [State.regionAt, State.fused, State.setPool_dean _ hp]
    exact hr

/-! ## A grant's arrival (R124) -/

section
variable {s : State} {u k i : Nat} {p : Packet} {g : Grant}

theorem exec_grantArrival (hfocus : s.focus = .event u k) (hhead : s.headAt u k 1 = some (p, i)) (hcargo : p.cargo = .grant g)
    (hsince : p.since ≤ s.cycle) (hbelled : (s.tile u).belled g.ctx = false) :
    exec .grantArrival s = .next ((s.without i).takeGrant u g) := by
  have hnot : ¬ ((s.without i).tile u).belled g.ctx = true := by
    rw [show ((s.without i).tile u).belled g.ctx = false from hbelled]
    exact Bool.false_ne_true
  show execGrantArrival s = _
  simp only [execGrantArrival, hfocus, hhead, hcargo, if_neg (Nat.not_lt.mpr hsince)]
  rw [← hfocus]
  exact if_neg hnot

/-- A handle's grant takes its trigger and leaves from the trigger's slot. -/
theorem State.takeGrant_of_trigger {e : Entry} {h : BitVec 32} (hhandle : g.handle = some h)
    (hfind : (s.tile u).entries.find? (fun e => e.use = .trigger && e.id = g.trig) = some e) :
    s.takeGrant u g = (s.updTile u fun x => x.delEntry e.id).emit u e.tok.slot e.tok.ctx e.tok.itag.toNat
      (toAll (s.slotTargets u e.tok.slot) (handleRun e.tok h.toNat)) := by
  simp only [State.takeGrant, hfind, hhandle]
  rw [State.slotTargets_updTile rfl]
  rfl

end

theorem allocationAndGrant : Claims.AllocationAndGrant := by
  refine ⟨?alloc, ?grant⟩
  case alloc =>
    intro s u k i o x r j hfocus hat hnext hact hp hres hx hr hwait hj hrank
    have hy : (s.serving u i o).tile u = { s.tile u with opAt := s.cycle + o.cycles } := State.tile_serving s u i o
    have hserve := State.serveOp_alloc (y := s.serving u i o) hact hp (by rw [hy]; exact hres) (by rw [hy]; exact hx) hr hwait hj
      ((State.holdsRank_serving ..).trans hrank)
    have hwaiting := State.tile_setPool (s := s.serving u i o) (t := u) { x with wait := [o.req] } hp
    obtain ⟨pk, hnet, hplace, hdest, hvc, hcargo⟩ := State.net_grantHead (s := (s.serving u i o).setPool u _ { x with wait := [o.req] })
      (t := u) (x := { x with wait := [o.req] }) (q := o.req) (rest := []) (j := j) (r := r) hp
    refine ⟨_, pk, (exec_poolOp hfocus hat hnext).trans (congrArg _ hserve), ?pools, ?net, hplace, hdest, hvc, hcargo, ?counter, ?mem⟩
    case pools =>
      rw [State.pools_grantHead hp (y := { x with wait := [o.req] }), hwait]
      · rfl
      · rw [hwaiting, hy]
        exact List.getElem?_set_self (List.getElem?_eq_some_iff.mp hx).1
    case net =>
      rw [hnet, State.setPool_of_tile _ hp]
      rfl
    case counter =>
      rw [State.tile_grantHead hp, hwaiting, hy]
      rfl
    case mem =>
      rw [State.grantHead, State.setPool_of_tile _ hp, State.setPool_of_tile _ hp]
      rfl
  case grant =>
    intro s u k i p g e h hfocus hhead hcargo hsince hhandle hbelled hfind
    rw [exec_grantArrival hfocus hhead hcargo hsince hbelled, State.takeGrant_of_trigger (s := s.without i) hhandle hfind]
    rfl

/-- Settles O25: a tile picks the operation that came first, each operation is its step at the slot that its handle names, and an
ALLOC's grant goes out in the step that takes the slot. -/
theorem poolOperations : Obligations.PoolOperations := ⟨poolOperationsOrder, poolOperationsServe, allocationAndGrant⟩

end Sys2Proof.Machine

/-! PROOFS. The pool instructions (R111, R122), RECALL and DROP (R244), and the replay of a dropped sticky (R238 to R242). -/

namespace Sys2Proof.Machine

/-! ## A pool instruction's operands (R96, R122) -/

/-- An operand whose elements are all there, as R96 leaves it. -/
def Token.whole (a : Token) : Token := a.withLanes ((List.range a.len).map fun i => some (a.elem i))

theorem packSide_of_full_some (pol k : Nat) {a : Token} (h : ∀ i < a.len, a.has i = true) :
    packSide pol k a = .ok ((List.range a.len).map fun i => some (a.elem i), false) := by
  rw [packSide_of_full pol k h, List.map_map]
  rfl

/-- L's lowest element heads its elements. -/
theorem Pairing.left_elems {p : Pairing} (hpos : 0 < p.len) :
    ∃ rest, ((List.range p.left.len).map fun i => some (p.left.elem i)).filterMap id = p.left.elem 0 :: rest := by
  obtain ⟨n, hn⟩ : ∃ n, p.left.len = n + 1 := ⟨p.len - 1, (Nat.succ_pred_eq_of_pos hpos).symm⟩
  simp [List.filterMap_map, hn, List.range_succ_eq_map]

section
variable {s : State} {t : Nat} {p : Pairing} {w : DWord} (hl : Claims.Full p.left p) (hpos : 0 < p.len) (out : Fmt)
  (body : State → List (Nat × BitVec 18) → Token → Token → Nat → State)
include hl hpos

/-- A pool instruction that reads L alone is its body on L and L's lowest element. -/
theorem State.onPool_left : s.onPool t p w false out body =
    body (s.hold t 1) (s.targets t w.nt w.t1 w.t0) p.left.whole (p.right.withLanes []) (p.left.elem 0) := by
  obtain ⟨rest, hlow⟩ := Pairing.left_elems hpos
  have hside (pol k : Nat) := packSide_of_full_some pol k (a := p.left) hl.2
  simp only [State.onPool, if_neg hl.1, hside, hlow, Bool.false_and, Bool.false_eq_true, if_false]
  rfl

/-- One that reads both operands is its body on both. -/
theorem State.onPool_both (hr : Claims.Full p.right p) : s.onPool t p w true out body =
    body (s.hold t 1) (s.targets t w.nt w.t1 w.t0) p.left.whole p.right.whole (p.left.elem 0) := by
  obtain ⟨rest, hlow⟩ := Pairing.left_elems hpos
  have hside (pol k : Nat) := packSide_of_full_some pol k (a := p.left) hl.2
  have hother (pol k : Nat) := packSide_of_full_some pol k (a := p.right) hr.2
  have hract : ¬ (true && decide (p.right.act = .fault)) = true := by simpa using hr.1
  simp only [State.onPool, if_neg hl.1, if_neg hract, hside, hother, hlow, if_true]
  rfl

end

/-! ## An operation sent to its pool's tile (R111) -/

/-- An operation put into its tile's output queue, to leave at a cycle, as a packet of the request channel. -/
def State.opSent (y : State) (u now : Nat) (o : PoolOp) : State :=
  { y with net := y.net ++ [{ tok := ({ act := .purge, ctx := o.ctx } : Token).sendTo u 0 0, edge := { tile := o.src, slot := o.slot },
                              dest := .tile u, vc := 0, cargo := .op o, place := .outq o.src, sent := now, since := now }] }

theorem State.sendOp_of_tile {y : State} {u : Nat} {o : PoolOp} (h : y.poolTile o.src o.handle.toNat = some u) :
    y.sendOp o = y.opSent u (y.sentAt o.src) o := by
  rw [State.sendOp, h]
  rfl

section
variable {s : State} {t u : Nat} {p : Pairing} {w : DWord} (hfocus : s.focus = .firing t p)
include hfocus

/-- A firing of one cycle sends in the next (R143). -/
theorem State.sentAt_hold : (s.hold t 1).sentAt t = s.cycle + 1 := by
  have hf : (s.hold t 1).focus = .firing t p := hfocus
  rw [State.sentAt, hf]
  simp [State.hold, State.updTile_eq]

variable {n : Nat} (hu : s.poolTile t (n % 2 ^ 32) = some u)
include hu

/-- An operation of a firing's pairing on the tile that its handle names. -/
theorem State.sendOp_firing {o : PoolOp} (hsrc : o.src = t) (hname : o.handle = BitVec.ofNat 32 n) :
    (s.hold t 1).sendOp o = (s.hold t 1).opSent u (s.cycle + 1) o := by
  subst hsrc
  rw [State.sendOp_of_tile (u := u) (by rw [hname, BitVec.toNat_ofNat]; exact hu), State.sentAt_hold hfocus]

/-- A request leaves its trigger in the tile (R113). -/
theorem State.request_firing {o : PoolOp} (hsrc : o.src = t) (hname : o.handle = BitVec.ofNat 32 n) :
    (s.hold t 1).request t o = ((s.hold t 1).updTile t fun x => x.addEntry .trigger o.l s.cycle).opSent u (s.cycle + 1)
      { o with trig := (s.tile t).nextId } := by
  subst hsrc
  have hsent : ((s.hold o.src 1).updTile o.src fun x => x.addEntry .trigger o.l s.cycle).sentAt o.src = s.cycle + 1 := by
    rw [← State.sentAt_hold hfocus]
    simp [State.sentAt, State.updTile_eq, Tile.addEntry]
  have hid : ((s.hold o.src 1).tile o.src).nextId = (s.tile o.src).nextId := by simp [State.hold, State.updTile_eq]
  rw [State.request, hid]
  refine (State.sendOp_of_tile (u := u) ?_).trans (congrArg (State.opSent _ u · _) hsent)
  show s.poolTile o.src o.handle.toNat = some u
  rw [hname, BitVec.toNat_ofNat, hu]

end

theorem poolInstructionsSend : Claims.PoolInstructionsSend := by
  intro s t u p w hfocus hpos _ hl k h l z op send trigger
  have hstep (i : Instr) {f : Nat → Pairing → State} (hi : exec i s = firing s f) {y : State} (hy : f t p = y) :
      exec i s = .next y := hi.trans ((firing_next f hfocus).trans (congrArg _ hy))
  refine ⟨fun hu => ⟨hstep _ rfl ?alloc, hstep _ rfl ?ticket, hstep _ rfl ?retn, hstep _ rfl ?poolq⟩,
    fun hu => ⟨fun hlow hhigh => hstep _ rfl ?give, hstep _ rfl ?tld, fun hr => ⟨hstep _ rfl ?release, fun hfmt => hstep _ rfl ?tst⟩⟩⟩
  case alloc | ticket =>
    rw [State.onPool_left hl hpos, State.hold_konst]
    exact State.request_firing hfocus hu rfl rfl
  case retn | poolq | tld =>
    rw [State.onPool_left hl hpos, State.hold_konst]
    exact State.sendOp_firing hfocus hu rfl rfl
  case give =>
    have hcount : ¬ (decide (k % 256 = 0) || decide (15 < k % 256)) = true := by simp; omega
    rw [State.onPool_left hl hpos, State.hold_konst]
    exact (if_neg hcount).trans (State.sendOp_firing hfocus hu rfl rfl)
  case release =>
    rw [State.onPool_both hl hpos _ _ hr]
    exact State.sendOp_firing hfocus hu rfl rfl
  case tst =>
    have hsame : ¬ p.right.whole.fmt ≠ w.fmt := not_not.mpr hfmt
    rw [State.onPool_both hl hpos _ _ hr, State.hold_konst]
    exact (if_neg hsame).trans (State.sendOp_firing hfocus hu rfl rfl)

/-! ## RECALL and DROP (R244) -/

/-- The records that a RECALL of a pairing asks for. -/
def State.recallIds (s : State) (t : Nat) (p : Pairing) (k : Nat) : List Nat :=
  ((s.tile t).drops.filter fun d =>
    d.poisoned.isNone && !d.purged && d.tok.ctx = p.ctx && d.tok.slot = k % 32 && d.tok.port = k / 32 % 2 &&
      agrees (s.tagMask t (k % 32)) d.tok.lo p.itag.toNat).map fun d => d.id

theorem State.recallIds_hold (s : State) (t n : Nat) (p : Pairing) (k : Nat) : (s.hold t n).recallIds t p k = s.recallIds t p k := by
  simp [State.recallIds, State.hold, State.updTile_eq, State.tagMask, State.blockOf]

section
variable {s : State} {t : Nat} {p : Pairing} (w : DWord) (hfocus : s.focus = .firing t p) (hl : Claims.Full p.left p) (hpos : 0 < p.len)
include hfocus hl

theorem exec_recall_of_records (h : s.recallIds t p (s.konst t w.kidx.toNat) ≠ []) :
    exec (.recall w) s = .next ((s.hold t 1).updTile t fun x => { x with
      recalls := x.recalls ++ [(p, s.recallIds t p (s.konst t w.kidx.toNat))]
      replayQ := x.replayQ ++ (s.recallIds t p (s.konst t w.kidx.toNat)).filter fun i => !x.replayQ.contains i }) := by
  rw [← State.recallIds_hold s t 1] at h ⊢
  exact (firing_next _ hfocus).trans (congrArg _ ((State.onLeft_of_full hl _ _).trans (if_neg (by rwa [List.isEmpty_iff]))))

include hpos

theorem exec_drop : exec (.drop w) s = .next (Claims.sentTo ((s.hold t 1).updTile t fun x => Tile.dropAll p.ctx Config.matchEntries x)
    t p (s.targets t w.nt w.t1 w.t0) p.left.fmt p.len (toAll (s.targets t w.nt w.t1 w.t0) (Claims.pieceOf p 0 p.len))) := by
  refine (firing_next _ hfocus).trans (congrArg _ ((State.onLeft_of_full hl _ _).trans ?_))
  rw [pieceOf_whole, ← Pairing.lefts_length p]
  exact State.emitRes_eq_fullRun (lanes_x s t p w false) (Pairing.lefts_ne_nil hpos) _

theorem exec_recall_of_none (h : s.recallIds t p (s.konst t w.kidx.toNat) = []) :
    exec (.recall w) s = .next (Claims.sends s t p w (Claims.pieceOf p 0 p.len)) := by
  rw [← State.recallIds_hold s t 1] at h
  refine (firing_next _ hfocus).trans (congrArg _ ((State.onLeft_of_full hl _ _).trans ?_))
  exact (if_pos (by rwa [List.isEmpty_iff])).trans (State.emitRes_left hpos)

end

theorem recallAndDrop : Claims.RecallAndDrop := by
  intro s t p w hfocus hpos _ hl l ts z k ids
  exact ⟨exec_drop w hfocus hl hpos, exec_recall_of_none w hfocus hl hpos, exec_recall_of_records w hfocus hl⟩

/-! ## A dropped sticky readmitted (R90, R241) -/

theorem Tile.dropEntry_recalls (x : Tile) (e : Entry) : (x.dropEntry e).recalls = x.recalls := rfl

/-- What is admitted is the action on the tile with some of its droppable stickies dropped (R90). -/
theorem Tile.admission_eq_some {act : Tile → Tile × Effects} {fuel : Nat} {x y : Tile} {f : Effects}
    (h : Tile.admission act fuel x = (y, some f)) : ∃ z : Tile, z.recalls = x.recalls ∧ y = (act z).1.peaked := by
  induction fuel generalizing x with
  | zero => cases h
  | succ n ih =>
    rw [Tile.admission] at h
    dsimp only at h
    split at h
    · cases h
      exact ⟨x, rfl, rfl⟩
    · split at h
      · cases h
      · next e _ =>
        obtain ⟨z, hz, hy⟩ := ih h
        exact ⟨z, hz.trans (x.dropEntry_recalls e), hy⟩

/-- A sticky in the match store under a record's number, and no record of that number. -/
def Tile.Rests (x : Tile) (id : Nat) (tok : Token) : Prop :=
  (∃ e ∈ x.entries, e.id = id ∧ e.use = .sticky ∧ e.tok = tok) ∧ ∀ e ∈ x.drops, e.id ≠ id

theorem Tile.rests_of_readmission {d : DropRec} {tok : Token} {now fuel : Nat} {x y : Tile} {f : Effects}
    (h : Tile.admission (Tile.readmission d tok now) fuel x = (y, some f)) : y.Rests d.id tok ∧ y.recalls = x.recalls := by
  obtain ⟨z, hz, rfl⟩ := Tile.admission_eq_some h
  refine ⟨⟨⟨{ id := d.id, use := .sticky, tok := tok, lastRead := now }, ?_, rfl, rfl, rfl⟩, fun e he => ?_⟩, hz⟩
  · simp [Tile.readmission, Tile.peaked]
  · have : e ∈ z.drops.filter fun e => e.id ≠ d.id := he
    simpa using (List.mem_filter.mp this).2

section
variable {s : State} {t : Nat}

/-- With no RECALL that asked for it, the end of a replay leaves the match store and the records alone. -/
theorem State.tile_replayOver {id : Nat} (h : (s.tile t).recalls = []) :
    (s.replayOver t id).tile t = { s.tile t with
      recalls := [], replayQ := (s.tile t).replayQ.filter fun i => i ≠ id, rcur := none, rval := [], rfail := none, rrun := none } := by
  simp [State.replayOver, h]

/-- The value taken into the match store (R241). -/
theorem State.readmit_of_admission {d : DropRec} {tok : Token} {x : Tile} {f : Effects} (hbelled : (s.tile t).belled d.tok.ctx = false)
    (hpurged : d.purged = false) (hrun : (s.tile t).rrun = none) (hwaiters : s.waitersBefore t s.cycle = false)
    (h : Tile.admission (Tile.readmission d tok s.cycle) (Config.matchEntries + 1) (s.tile t) = (x, some f)) :
    s.readmit t d tok = ((s.setTile t x).progressed d.tok.ctx).replayOver t d.id := by
  simp only [State.readmit, hbelled, hpurged, hrun, hwaiters, h, Option.isSome_none, Bool.false_eq_true, if_false]

/-- So it rests there under its id, and its record is gone. -/
theorem State.rests_of_readmit {d : DropRec} {tok : Token} {x : Tile} {f : Effects} (hbelled : (s.tile t).belled d.tok.ctx = false)
    (hpurged : d.purged = false) (hrun : (s.tile t).rrun = none) (hrecalls : (s.tile t).recalls = [])
    (hwaiters : s.waitersBefore t s.cycle = false)
    (h : Tile.admission (Tile.readmission d tok s.cycle) (Config.matchEntries + 1) (s.tile t) = (x, some f)) :
    ((s.readmit t d tok).tile t).Rests d.id tok := by
  obtain ⟨hrests, hkept⟩ := Tile.rests_of_readmission h
  have htile : ((s.setTile t x).progressed d.tok.ctx).tile t = x := State.tile_setTile s t x
  rw [State.readmit_of_admission hbelled hpurged hrun hwaiters h, State.tile_replayOver (by rw [htile, hkept, hrecalls]), htile]
  exact hrests

end

/-! ## REPLAY (R238, R241, R242) -/

section
variable {s : State} {u k : Nat} {d : DropRec} (hfocus : s.focus = .event u k) (hhead : (s.tile u).replayHead = some d)
  (hstall : (s.tile u).rstall = .none) (hrun : (s.tile u).rrun = none) (hlive : (s.ctx d.tok.ctx).st = .live)
include hfocus hhead hstall hrun hlive

/-- The unit evaluates the record that it is at work on. -/
theorem exec_replay : exec .replay s = .next (s.replayRecord u d) := by
  have hturn : s.replayTurn u = s := if_pos (by rw [hhead]; rfl)
  have hreplays : s.replays d.tok.ctx = true := by simp [State.replays, hlive]
  show execReplay s = _
  simp only [execReplay, hfocus, State.replayUnit, hturn, hhead, hstall, hreplays, hrun]
  rfl

variable {s' : State} {v : Token} {fl : Nat}
  (hvalue : s.replayOps u d (recipeWords ((s.blockOf u).recipes.getD d.tok.crib.toNat [])) [] 0 = .value s' (v, fl))
include hvalue

theorem exec_replay_of_match (hfmt : v.fmt = d.tok.fmt) (hscale : v.scale = d.tok.scale) :
    exec .replay s = .next ((s'.addFlags d.tok.ctx fl).readmit u d (d.restored v)) := by
  rw [exec_replay hfocus hhead hstall hrun hlive, State.replayRecord, hvalue]
  exact congrArg _ (if_neg (by simp [hfmt, hscale]))

theorem exec_replay_of_mismatch (h : v.fmt ≠ d.tok.fmt ∨ v.scale ≠ d.tok.scale) :
    exec .replay s = .next ((s'.addFlags d.tok.ctx fl).poison u d 0x0C 0x01) := by
  rw [exec_replay hfocus hhead hstall hrun hlive, State.replayRecord, hvalue]
  exact congrArg _ (if_pos (by simpa using h))

end

theorem replayReadmits : Claims.ReplayReadmits := by
  intro s s' u k d v fl hfocus hhead hstall _ hrun hlive hvalue y tok
  refine ⟨fun hfmt hscale => ?readmits, exec_replay_of_mismatch hfocus hhead hstall hrun hlive hvalue⟩
  case readmits =>
    have hexec := exec_replay_of_match hfocus hhead hstall hrun hlive hvalue hfmt hscale
    refine ⟨hexec, fun hbelled hpurged hrecalls hyrun hwaiters hroom => ⟨_, hexec, ?_⟩⟩
    obtain ⟨x, hx⟩ := hroom
    exact State.rests_of_readmit hbelled hpurged hyrun hrecalls hwaiters hx

/-- Settles O24: pool instructions send what their whole operands give, DROP and RECALL work on the tile's records, and a replayed value
goes back as the sticky that was dropped. -/
theorem poolInstructions : Obligations.PoolInstructions := ⟨poolInstructionsSend, recallAndDrop, replayReadmits⟩

end Sys2Proof.Machine

/-! PROOFS. Numbers of a format are their own roundings (R126, R129), and the exact points of the special functions (R154, R155). -/

namespace Sys2Proof.Machine

/-! ## A magnitude that the format holds is its own rounding (R129) -/

theorem log2_eq_of_bounds {m k : Nat} (hlow : 2 ^ k ≤ m) (hhigh : m < 2 ^ (k + 1)) : Nat.log2 m = k :=
  (Nat.log2_eq_iff (Nat.pos_iff_ne_zero.mp (Nat.lt_of_lt_of_le (Nat.two_pow_pos k) hlow))).mpr ⟨hlow, hhigh⟩

theorem roundShift_of_nonpos {sh : Int} (h : sh ≤ 0) (m : Nat) (sticky : Bool) (rm : Nat) (neg : Bool) :
    roundShift m sh sticky rm neg = (m * 2 ^ (-sh).toNat, sticky) := if_pos h

/-- No rounding mode changes a multiple of the last place. -/
theorem roundShift_mul_two_pow {q : Nat} (hq : 0 < q) (n rm : Nat) (neg : Bool) :
    roundShift (q * 2 ^ n) n false rm neg = (q, false) := by
  rcases n.eq_zero_or_pos with rfl | hn
  · simp [roundShift_of_nonpos]
  · have hlog : n ≤ Nat.log2 (q * 2 ^ n) := (Nat.le_log2 (by positivity)).mpr (Nat.le_mul_of_pos_left _ hq)
    have hnear : ¬ ((n : Int) > (Nat.log2 (q * 2 ^ n) : Int) + 2) := by omega
    have hhalf : (0 : Nat) ≠ 2 ^ (n - 1) := (Nat.two_pow_pos _).ne
    have hpos : ¬ (n : Int) ≤ 0 := by omega
    simp only [roundShift, if_neg hpos, hnear, Int.toNat_natCast, Nat.mul_mod_left, Nat.mul_div_cancel q (Nat.two_pow_pos n)]
    rcases rm with _ | _ | _ | _ | rm <;> simp [hhalf]

/-- A normal number, its significand `q` scaled by a power of two, rounds to itself. -/
theorem roundFin_of_normal {f : FloatFmt} {q n : Nat} {e : Int} (rm mode : Nat) (neg : Bool) (hlow : 2 ^ f.fb ≤ q)
    (hhigh : q < 2 ^ (f.fb + 1)) (hmin : f.emin ≤ e + n + f.fb) (hmax : e + n + f.fb ≤ f.bias) :
    roundFin f rm mode neg (q * 2 ^ n) e false = (f.enc neg (e + n + f.fb + f.bias).toNat (q - 2 ^ f.fb), 0) := by
  have hq : 0 < q := Nat.lt_of_lt_of_le (Nat.two_pow_pos _) hlow
  have hlog : Nat.log2 q = f.fb := log2_eq_of_bounds hlow hhigh
  have hlogm : Nat.log2 (q * 2 ^ n) = f.fb + n := log2_eq_of_bounds (by rw [Nat.pow_add]; gcongr)
    (by rw [Nat.add_right_comm, Nat.pow_add]; gcongr)
  have hm : q * 2 ^ n ≠ 0 := by positivity
  have hsh : ((f.fb + n : Nat) : Int) - f.fb = n := by omega
  have hee : (f.fb : Int) + e + n = e + n + f.fb := by omega
  simp only [roundFin, if_neg hm, hlogm, hsh, roundShift_mul_two_pow hq, hlog, hee, if_neg (not_lt.mpr hmax), if_neg (not_lt.mpr hmin),
    gt_iff_lt]
  simp

/-- A subnormal number rounds to itself where its class's flush is not enabled. -/
theorem roundFin_of_subnormal {f : FloatFmt} {m : Nat} (rm mode : Nat) (neg : Bool) (hm : 0 < m) (hhigh : m < 2 ^ f.fb)
    (hflush : f.flushes mode = false) :
    roundFin f rm mode neg m (f.emin - f.fb) false = (f.enc neg 0 0 + m * 2 ^ f.pad, 0) := by
  have hlog : Nat.log2 m < f.fb := (Nat.log2_lt hm.ne').mpr hhigh
  obtain ⟨d, hd⟩ := Nat.exists_eq_add_of_lt hlog
  have hlogq : Nat.log2 (m * 2 ^ (d + 1)) = f.fb := log2_eq_of_bounds
    (by rw [hd, Nat.add_assoc, Nat.pow_add]; exact Nat.mul_le_mul_right _ (Nat.log2_self_le hm.ne'))
    (by
      rw [hd, show Nat.log2 m + d + 1 + 1 = Nat.log2 m + 1 + (d + 1) by omega, Nat.pow_add 2 (Nat.log2 m + 1)]
      exact Nat.mul_lt_mul_of_pos_right Nat.lt_log2_self (Nat.two_pow_pos _))
  have hsh : ((Nat.log2 m : Nat) : Int) - f.fb ≤ 0 := by omega
  have hshift : (-(((Nat.log2 m : Nat) : Int) - f.fb)).toNat = d + 1 := by omega
  have hmin : (f.fb : Int) + (f.emin - f.fb) + ((Nat.log2 m : Nat) - f.fb) < f.emin := by omega
  have hmax : ¬ (f.fb : Int) + (f.emin - f.fb) + ((Nat.log2 m : Nat) - f.fb) > f.bias := by
    have : f.emin = 1 - f.bias := rfl
    omega
  simp only [roundFin, if_neg hm.ne', roundShift_of_nonpos hsh, hshift, hlogq, if_neg hmax, if_pos hmin, hflush, Int.sub_self,
    roundShift_of_nonpos le_rfl]
  simp

/-! ## An element from its fields (R126) -/

theorem FloatFmt.enc_subnormal (f : FloatFmt) (neg : Bool) (m : Nat) : f.enc neg 0 0 + m * 2 ^ f.pad = f.enc neg 0 m := by
  simp only [FloatFmt.enc]
  ring

theorem FloatFmt.enc_fields (f : FloatFmt) {v : Nat} (h : v < 2 ^ (1 + f.eb + f.fb)) :
    f.enc (bit v (f.eb + f.fb)) (v / 2 ^ f.fb % 2 ^ f.eb) (v % 2 ^ f.fb) = v * 2 ^ f.pad := by
  have htop : v / 2 ^ (f.eb + f.fb) < 2 := Nat.div_lt_of_lt_mul
    (by rwa [← Nat.pow_succ, Nat.succ_eq_add_one, Nat.add_comm, ← Nat.add_assoc])
  have hsign : (if bit v (f.eb + f.fb) then 2 ^ (f.eb + f.fb) else 0) = v / 2 ^ (f.eb + f.fb) * 2 ^ (f.eb + f.fb) := by
    obtain h0 | h1 := Nat.le_one_iff_eq_zero_or_eq_one.mp (Nat.lt_succ_iff.mp htop)
    · simp [bit, h0]
    · simp [bit, h1]
  have hrest : v / 2 ^ f.fb % 2 ^ f.eb * 2 ^ f.fb + v % 2 ^ f.fb = v % 2 ^ (f.eb + f.fb) := by
    rw [Nat.add_comm f.eb, Nat.pow_add, Nat.mod_mul]
    ring
  rw [FloatFmt.enc, hsign, Nat.add_assoc, hrest, Nat.div_add_mod']

/-- The eight floating-point formats (R125). -/
def floatFmts : List FloatFmt := ([0, 1, 2, 3, 4, 5, 6, 7] : List Nat).map floatFmt

theorem two_pow_eb_of_mem {f : FloatFmt} (h : f ∈ floatFmts) : 2 ^ f.eb = 2 * f.bias + 2 := by
  revert f
  decide

theorem flushes_zero_of_mem {f : FloatFmt} (h : f ∈ floatFmts) : f.flushes 0 = false := by
  revert f
  decide

theorem roundVal_floatVal {f : FloatFmt} (hf : f ∈ floatFmts) (rm : Nat) {b : Nat} (hb : b < 2 ^ (1 + f.eb + f.fb + f.pad))
    (hpad : b % 2 ^ f.pad = 0) :
    roundVal f rm 0 (floatVal f b 0 0) =
      (if (floatVal f b 0 0).isNan then f.nan else b, if floatVal f b 0 0 = .snan then flagNV else 0) := by
  have heb := two_pow_eb_of_mem hf
  have henc := f.enc_fields (v := b / 2 ^ f.pad) (Nat.div_lt_of_lt_mul (by rwa [← Nat.pow_add, Nat.add_comm f.pad]))
  rw [Nat.div_mul_cancel (Nat.dvd_of_mod_eq_zero hpad)] at henc
  have hfr : b / 2 ^ f.pad % 2 ^ f.fb < 2 ^ f.fb := Nat.mod_lt _ (Nat.two_pow_pos _)
  have hex : b / 2 ^ f.pad / 2 ^ f.fb % 2 ^ f.eb < 2 ^ f.eb := Nat.mod_lt _ (Nat.two_pow_pos _)
  rw [floatVal]
  generalize bit (b / 2 ^ f.pad) (f.eb + f.fb) = neg at *
  generalize b / 2 ^ f.pad / 2 ^ f.fb % 2 ^ f.eb = ex at *
  generalize b / 2 ^ f.pad % 2 ^ f.fb = fr at *
  by_cases hones : ex = 2 ^ f.eb - 1
  · rw [if_pos hones]
    by_cases hzero : fr = 0
    · simp [hzero, roundVal, Val.isNan, FloatFmt.infinity, ← henc, hones]
    · by_cases hquiet : bit fr (f.fb - 1) <;> simp [hzero, hquiet, roundVal, Val.isNan]
  rw [if_neg hones]
  by_cases hsub : ex = 0
  · rw [if_pos hsub, flushes_zero_of_mem hf]
    rcases fr.eq_zero_or_pos with rfl | hpos
    · simp [roundVal, roundFin, Val.isNan, ← henc, hsub]
    · simp [roundVal, Val.isNan, roundFin_of_subnormal _ _ _ hpos hfr (flushes_zero_of_mem hf), f.enc_subnormal, ← henc, hsub]
  · have hmin : f.emin = 1 - f.bias := rfl
    have hround := roundFin_of_normal (f := f) (q := fr + 2 ^ f.fb) (n := 0) (e := (ex : Int) - f.bias - f.fb) rm 0 neg (by omega)
      (by rw [Nat.pow_succ]; omega) (by omega) (by omega)
    have hexp : ((ex : Int) - f.bias - f.fb + (0 : Nat) + f.fb + f.bias).toNat = ex := by omega
    rw [hexp, Nat.add_sub_cancel, henc] at hround
    simpa [hsub, roundVal, Val.isNan] using hround

theorem roundingKeepsNumbers : Claims.RoundingKeepsNumbers := fun _ rm _ hf _ hb hpad => roundVal_floatVal hf rm hb hpad

/-! ## The exact points of the special functions (R154, R155) -/

/-- An integer in fixed point. -/
theorem toFx_zero_exponent (m : Nat) : toFx m 0 = m * fxOne := by
  simp [toFx, fxOne]

theorem toFx_mod_one (m : Nat) : toFx m 0 % fxOne = 0 := by
  rw [toFx_zero_exponent, Nat.mul_mod_left]

/-- A power of two in the range of F32, in fixed point. -/
theorem roundFin_fxOne {z : Int} (hlow : -126 ≤ z) (hhigh : z ≤ 127) :
    roundFin f32 0 0 false fxOne (z - fxBits) false = ((z + 127).toNat * 2 ^ 23, 0) := by
  have hfb : f32.fb = 23 := rfl
  have hbias : f32.bias = 127 := by decide
  have hmin : f32.emin = -126 := by decide
  obtain ⟨n, hn⟩ : ∃ n, fxBits = 23 + n := ⟨297, rfl⟩
  have hone : fxOne = 2 ^ 23 * 2 ^ n := by rw [fxOne, hn, Nat.pow_add]
  rw [hone, roundFin_of_normal 0 0 false (by rw [hfb]) (by rw [hfb]; decide) (by omega) (by omega)]
  have hexp : z - fxBits + (n : Nat) + f32.fb + f32.bias = z + 127 := by omega
  rw [hexp, hfb, Nat.sub_self]
  simp [FloatFmt.enc, f32, floatFmt]

theorem specExp2_integer {z : Int} (hlow : -126 ≤ z) (hhigh : z ≤ 127) :
    specExp2 0 (.fin (z < 0) z.natAbs 0) = ((z + 127).toNat * 2 ^ 23, 0) := by
  have hpos : (fxOne : Int) ≠ 0 := Int.natCast_ne_zero.mpr (Nat.two_pow_pos _).ne'
  have hfx : (if (decide (z < 0)) = true then -((toFx z.natAbs 0 : Nat) : Int) else (toFx z.natAbs 0 : Nat)) = z * fxOne := by
    rw [toFx_zero_exponent, Nat.cast_mul]
    split_ifs with h
    · rw [Int.ofNat_natAbs_of_nonpos (le_of_lt (by simpa using h))]; ring
    · rw [Int.natAbs_of_nonneg (by simpa using h)]
  simp only [specExp2, hfx, Int.mul_ediv_cancel _ hpos, Int.mul_emod_left]
  have hclamp : max (-1000) (min z 1000) = z := by omega
  simpa [hclamp] using roundFin_fxOne hlow hhigh

/-- A whole number of turns gives what its quadrant gives at the start. -/
theorem specCircle_of_whole {turn v : Nat} {minus : Bool} (mode m : Nat) (hquadrant : quadrant turn 0 = (v, minus)) :
    specCircle turn mode (.fin false m 0) = if v = 0 then (0, 0) else fxRound mode minus v true := by
  have hzero (b : Bool) : f32.enc (b && false) 0 0 = 0 := by simp [FloatFmt.enc]
  have hsign : (if turn = 0 then minus != false else minus) = minus := by simp
  rw [specCircle, toFx_mod_one, Nat.zero_div, Nat.zero_mod, Nat.zero_add, hquadrant]
  simp only [hzero, hsign, decide_true]

theorem specCircle_integer (m : Nat) : specCircle 0 0 (.fin false m 0) = (0, 0) ∧ specCircle 1 0 (.fin false m 0) = (0x3F800000, 0) := by
  have hone : fxOne ≠ 0 := (Nat.two_pow_pos _).ne'
  have hround : fxRound 0 false fxOne true = (0x3F800000, 0) := by
    simpa [fxRound] using roundFin_fxOne (z := 0) (by decide) (by decide)
  exact ⟨specCircle_of_whole 0 m (v := 0) rfl, by rw [specCircle_of_whole 0 m (v := fxOne) rfl, if_neg hone, hround]⟩

theorem specialFunctionPoints : Claims.SpecialFunctionPoints := by
  refine ⟨fun n e => ⟨rfl, ?_⟩, fun z => specExp2_integer, fun m hm e => ⟨?_, ?_⟩, specCircle_integer, fun n => ?_⟩
  · cases n <;> rfl
  · simp [specLog2, hm.ne']; rfl
  · simp [specRsqe, hm.ne']; rfl
  · cases n <;> exact ⟨rfl, rfl, rfl, rfl⟩

/-- Settles O18: a format's numbers are their own roundings, and the special functions are exact at zeros, infinities, whole turns and
the powers of two. -/
theorem elementValues : Obligations.ElementValues := ⟨roundingKeepsNumbers, specialFunctionPoints⟩

end Sys2Proof.Machine

/-! PROOFS. A converter node takes the head of its queue, and what CVT, SCALEMX, QPLANE and QUNPL make of a run with every element
(R136, R139, R140, R163, R167, R169). -/

namespace Sys2Proof.Machine

/-! ## The node's work on the head of its queue (R163, R170) -/

/-- The operand run as the node takes it. -/
def ConvCmd.operand (q : ConvCmd) : Token := { q.l with slot := q.slot }

/-- A result as it goes out: a run where an element is present, else an EMPTY. -/
def Token.emitted (tok : Token) : Token :=
  if tok.mask = 0 then { tok with act := .empty, data := [] } else { tok with act := .normal }

theorem Token.emitted_of_normal {tok : Token} (hact : tok.act = .normal) (hmask : tok.mask ≠ 0) : tok.emitted = tok := by
  rw [Token.emitted, if_neg hmask, ← hact]

/-- What the node does with what a pairing comes to: a run goes out, and a fault makes its record. -/
def State.nodeResult (s : State) (t : Nat) (q : ConvCmd) (z : NodeOut × Nat) : State :=
  match z.1 with
  | .run tok => (s.addFlags q.ctx z.2).emit t q.slot q.ctx q.l.lo (toAll (s.slotTargets t q.slot) tok.emitted)
  | .bad cause sub => s.nodeFault t q.operand q.slot q.outFmt q.l.lo cause sub

theorem State.nodeResult_run (s : State) (t : Nat) (q : ConvCmd) (tok : Token) (flags : Nat) :
    (s.nodeResult t q (.run tok, flags)).progressed q.ctx = Claims.converted s t q flags tok.emitted := rfl

theorem Token.present_eq_range {l : Token} (h : ∀ i < l.len, l.has i = true) : l.present = List.range l.len :=
  List.filter_eq_self.mpr fun i hi => h i (List.mem_range.mp hi)

theorem Token.mask_ne_zero_of_has {l : Token} {i : Nat} (h : l.has i = true) : l.mask ≠ 0 := by
  intro h0
  simp [Token.has, bit, h0] at h

section
variable {s : State} {t : Nat} {q : ConvCmd} (hact : q.l.act = .normal) (hpos : 0 < q.l.len) (hall : ∀ i < q.l.len, q.l.has i = true)
include hact hpos hall

/-- A NORMAL run with every element is worked on as it is. -/
theorem State.convert_of_full : s.convert t q =
    if q.op = 0xB0 then s.nodeResult t q (cvtOut (s.ctx q.ctx).mode.toNat (s.konst t q.w.kidx.toNat) q.w q.operand)
    else if q.op = 0xB1 then s.reblock t q.slot (s.konst t q.w.kidx.toNat % 64) q.operand (some q.id)
    else if q.op = 0xB2 then s.nodeResult t q (qplaneOut q.w q.operand, 0)
    else if q.op = 0xB3 then s.nodeResult t q (qunplOut q.w (s.konst t q.w.kidx.toNat % 64) q.operand, 0)
    else s.nodeResult t q (scalemxOut (s.ctx q.ctx).mode.toNat q.w q.operand) := by
  have hpresent : q.l.present.isEmpty = false := by
    simp [Token.present_eq_range hall, hpos.ne']
  have hkept : (if (decide (q.l.act ≠ .fault) && q.l.present.isEmpty) = true then .empty else q.l.act) = q.l.act := by simp [hpresent]
  have hfault : q.l.act ≠ .fault := by simp [hact]
  simp only [State.convert, hkept, if_neg hfault]
  rfl

end

theorem State.konst_updTile {s : State} {t : Nat} {f : Tile → Tile} (hf : (f (s.tile t)).block = (s.tile t).block) (n : Nat) :
    (s.updTile t f).konst t n = s.konst t n := by
  simp [State.konst, State.blockOf, State.updTile_eq, hf]

/-- The state with the head of a node's queue taken off. -/
def State.dequeued (s : State) (u : Nat) (rest : List ConvCmd) : State := s.updTile u fun x => { x with convQ := rest }

section
variable {s : State} {u j : Nat} {q : ConvCmd} {rest : List ConvCmd} (hfocus : s.focus = .event u j)
  (hqueue : (s.tile u).convQ = q :: rest)
include hfocus hqueue

theorem exec_converterPairing : exec .converterPairing s = .next (((s.dequeued u rest).convert u q).progressed q.ctx) := by
  show execConverterPairing s = _
  simp only [execConverterPairing, hfocus, hqueue]
  rfl

variable (hact : q.l.act = .normal) (hpos : 0 < q.l.len) (hall : ∀ i < q.l.len, q.l.has i = true)
include hact hpos hall

theorem exec_converterPairing_of_full : exec .converterPairing s = .next (
    (if q.op = 0xB0 then
      (s.dequeued u rest).nodeResult u q (cvtOut (s.ctx q.ctx).mode.toNat (s.konst u q.w.kidx.toNat) q.w q.operand)
    else if q.op = 0xB1 then (s.dequeued u rest).reblock u q.slot (s.konst u q.w.kidx.toNat % 64) q.operand (some q.id)
    else if q.op = 0xB2 then (s.dequeued u rest).nodeResult u q (qplaneOut q.w q.operand, 0)
    else if q.op = 0xB3 then (s.dequeued u rest).nodeResult u q (qunplOut q.w (s.konst u q.w.kidx.toNat % 64) q.operand, 0)
    else (s.dequeued u rest).nodeResult u q (scalemxOut (s.ctx q.ctx).mode.toNat q.w q.operand)).progressed q.ctx) := by
  have hkonst : (s.dequeued u rest).konst u q.w.kidx.toNat = s.konst u q.w.kidx.toNat := State.konst_updTile rfl _
  have hctx : (s.dequeued u rest).ctx q.ctx = s.ctx q.ctx := rfl
  rw [exec_converterPairing hfocus hqueue, State.convert_of_full hact hpos hall, hkonst, hctx]

theorem exec_cvt (hop : q.op = 0xB0) : exec .converterPairing s = .next (((s.dequeued u rest).nodeResult u q
    (cvtOut (s.ctx q.ctx).mode.toNat (s.konst u q.w.kidx.toNat) q.w q.operand)).progressed q.ctx) := by
  simp [exec_converterPairing_of_full hfocus hqueue hact hpos hall, hop]

theorem exec_reblk (hop : q.op = 0xB1) : exec .converterPairing s = .next (((s.dequeued u rest).reblock u q.slot
    (s.konst u q.w.kidx.toNat % 64) q.operand (some q.id)).progressed q.ctx) := by
  simp [exec_converterPairing_of_full hfocus hqueue hact hpos hall, hop]

theorem exec_qplane (hop : q.op = 0xB2) : exec .converterPairing s = .next (((s.dequeued u rest).nodeResult u q
    (qplaneOut q.w q.operand, 0)).progressed q.ctx) := by
  simp [exec_converterPairing_of_full hfocus hqueue hact hpos hall, hop]

theorem exec_qunpl (hop : q.op = 0xB3) : exec .converterPairing s = .next (((s.dequeued u rest).nodeResult u q
    (qunplOut q.w (s.konst u q.w.kidx.toNat % 64) q.operand, 0)).progressed q.ctx) := by
  simp [exec_converterPairing_of_full hfocus hqueue hact hpos hall, hop]

theorem exec_scalemx (hop : q.op = 0xB4) : exec .converterPairing s = .next (((s.dequeued u rest).nodeResult u q
    (scalemxOut (s.ctx q.ctx).mode.toNat q.w q.operand)).progressed q.ctx) := by
  simp [exec_converterPairing_of_full hfocus hqueue hact hpos hall, hop]

end

/-! ## CVT and SCALEMX (R136, R167) -/

/-- The formats that CVT converts between: a number, to a number or to planes. -/
def convertible (sf df : Nat) : Prop := (fmtFloat sf || fmtInt sf) = true ∧ (fmtFloat df || fmtInt df || fmtPlanes df ≠ 0) = true

theorem bitPair_of_convertible {sf df : Nat} (h : convertible sf df) : bitPair sf df = false := by
  simp only [convertible, fmtFloat, fmtInt, fmtPlanes, Bool.or_eq_true, Bool.and_eq_true, decide_eq_true_eq] at h
  simp only [bitPair, Bool.or_eq_false_iff, Bool.and_eq_false_iff, decide_eq_false_iff_not, Bool.or_eq_false_iff]
  grind

/-- The 5-bit code of the format that carries an element. -/
theorem carrier_code (f : Fmt) :
    BitVec.ofNat 5 (carrier f.toNat) = if fmtPlanes f.toNat = 0 then f else if fmtPlaneSigned f.toNat then 10 else 13 := by
  rw [carrier]
  split_ifs <;> simp

/-- Flags ORed over elements that each set the same ones, or none. -/
theorem foldl_or_ite {α : Type} (p : α → Bool) (c : Nat) (l : List α) :
    l.foldl (fun n x => n ||| if p x then c else 0) 0 = if l.any p then c else 0 := by
  induction l using List.reverseRecOn with
  | nil => rfl
  | append_singleton l x ih =>
    rw [List.foldl_append, ih, List.any_append]
    cases l.any p <;> cases h : p x <;> simp [h]

section
variable {w : EWord} {l : Token} {mode k : Nat} (hall : ∀ i < l.len, l.has i = true)

theorem cvtOut_of_bitPair (hsmode : bits k 9 8 = 1) (hpair : bitPair l.fmt.toNat w.fmt.toNat = true) :
    cvtOut mode k w l = (.run { l with fmt := w.fmt }, 0) := by
  simp [cvtOut, hsmode, hpair]

include hall

theorem cvtOut_of_convertible (hconv : convertible l.fmt.toNat w.fmt.toNat) {s' : Int}
    (hscale : (bits k 9 8 = 0 ∧ s' = sval 8 k) ∨ (bits k 9 8 = 1 ∧ s' = l.scale.toInt) ∨
      (bits k 9 8 = 2 ∧ s' = scaleFor mode w.fmt.toNat l)) :
    let r := (List.range l.len).map fun i =>
      convertElem l.fmt.toNat l.scale.toInt w.fmt.toNat s' (rmOf w.mod.toNat mode) mode (l.elem i)
    cvtOut mode k w l = (.run { l with fmt := BitVec.ofNat 5 (carrier w.fmt.toNat), scale := BitVec.ofInt 8 s',
                                       data := r.map fun v => BitVec.ofNat 64 v.1 }, r.foldl (fun n v => n ||| v.2) 0) := by
  have hs : (if bits k 9 8 = 0 then sval 8 k else if bits k 9 8 = 1 then l.scale.toInt else scaleFor mode w.fmt.toNat l) = s' := by
    obtain ⟨h, rfl⟩ | ⟨h, rfl⟩ | ⟨h, rfl⟩ := hscale <;> simp [h]
  have hmap : ((List.range l.len).map fun i =>
      if l.has i then convertElem l.fmt.toNat l.scale.toInt w.fmt.toNat s' (rmOf w.mod.toNat mode) mode (l.elem i) else (0, 0)) =
      (List.range l.len).map fun i => convertElem l.fmt.toNat l.scale.toInt w.fmt.toNat s' (rmOf w.mod.toNat mode) mode (l.elem i) :=
    List.map_congr_left fun i hi => if_pos (hall i (List.mem_range.mp hi))
  obtain ⟨hsf, hdf⟩ := hconv
  simp only [cvtOut, bitPair_of_convertible ⟨hsf, hdf⟩, hs, hsf, hdf, hmap]
  simp

theorem signalFlags_of_full :
    signalFlags mode l =
      if (List.range l.len).any fun i => elemVal l.fmt.toNat (l.elem i) l.scale.toInt mode = .snan then flagNV else 0 := by
  rw [signalFlags, Token.present_eq_range hall, ← foldl_or_ite]
  simp only [nvOf, decide_eq_true_eq]

theorem scalemxOut_of_full (hpos : 0 < l.len) (hsf : (fmtFloat l.fmt.toNat || fmtInt l.fmt.toNat) = true) :
    scalemxOut mode w l = (.run { act := .normal, fmt := 8, len := 1, ctx := l.ctx, itag := l.itag, mask := 1,
                                  data := [BitVec.ofNat 64 (low 32 (scaleFor mode w.fmt.toNat l))] }, signalFlags mode l) := by
  have hpresent : l.present.isEmpty = false := by simp [Token.present_eq_range hall, hpos.ne']
  simp [scalemxOut, hsf, hpresent]

end

/-! ## Bits gathered into numbers (R139) -/

theorem foldl_places_lt (b : Nat → Nat) (n : Nat) : (List.range n).foldl (fun a i => a + b i % 2 * 2 ^ i) 0 < 2 ^ n := by
  induction n with
  | zero => simp
  | succ n ih =>
    rw [List.range_succ, List.foldl_append]
    have hbit : b n % 2 ≤ 1 := by omega
    calc _ ≤ _ + 1 * 2 ^ n := Nat.add_le_add_left (Nat.mul_le_mul_right _ hbit) _
      _ < 2 ^ n + 1 * 2 ^ n := Nat.add_lt_add_right ih _
      _ = 2 ^ (n + 1) := by ring

/-- Bit i of the element of a plane is the bit of element i. -/
theorem testBit_foldl_places (b : Nat → Nat) (n i : Nat) :
    ((List.range n).foldl (fun a i => a + b i % 2 * 2 ^ i) 0).testBit i = (decide (i < n) && (b i).testBit 0) := by
  induction n with
  | zero => simp
  | succ n ih =>
    rw [List.range_succ, List.foldl_append, List.foldl_cons, List.foldl_nil, Nat.add_comm, Nat.mul_comm,
      Nat.testBit_two_pow_mul_add _ (foldl_places_lt b n), ih]
    rcases Nat.lt_trichotomy i n with h | rfl | h
    · simp [h, Nat.lt_succ_of_lt h]
    · simp
    · obtain ⟨d, rfl⟩ := Nat.exists_eq_add_of_lt h
      have hd : n + d + 1 - n = d + 1 := by omega
      have hlt : b n % 2 / 2 = 0 := by omega
      have hout : ¬ n + d + 1 < n + 1 := by omega
      simp [hd, Nat.testBit_succ, hlt, hout, Nat.not_lt.mpr h.le]

theorem foldl_double_lt (b : Nat → Nat) (n : Nat) : (List.range n).foldl (fun a p => 2 * a + b p % 2) 0 < 2 ^ n := by
  induction n with
  | zero => simp
  | succ n ih =>
    rw [List.range_succ, List.foldl_append, List.foldl_cons, List.foldl_nil, Nat.pow_succ]
    omega

/-- The planes of a value are its bits, the most significant first. -/
theorem testBit_foldl_double (b : Nat → Nat) (n i : Nat) :
    ((List.range n).foldl (fun a p => 2 * a + b p % 2) 0).testBit i = (decide (i < n) && (b (n - 1 - i)).testBit 0) := by
  induction n generalizing i with
  | zero => simp
  | succ n ih =>
    rw [List.range_succ, List.foldl_append, List.foldl_cons, List.foldl_nil]
    cases i with
    | zero => simp [Nat.testBit_zero]
    | succ i =>
      have hdiv : ∀ x, (2 * x + b n % 2) / 2 = x := by omega
      rw [Nat.testBit_succ, hdiv, ih]
      simp [Nat.sub_sub, Nat.add_comm]

/-- The low bits of a number read as two's complement: its own, then its sign. -/
theorem testBit_low_sval {j w u b : Nat} (hj : 0 < j) (hu : u < 2 ^ j) (hb : b < w) :
    (low w (sval j u)).testBit b = if b < j then u.testBit b else u.testBit (j - 1) := by
  have hsval : sval j u = (BitVec.ofNat j u).toInt := by
    have htwo : 2 ^ j = 2 * 2 ^ (j - 1) := by rw [← Nat.pow_succ', Nat.succ_eq_add_one, Nat.sub_add_cancel hj]
    rw [sval, BitVec.toInt_eq_toNat_cond, BitVec.toNat_ofNat, Nat.mod_eq_of_lt hu]
    refine ite_congr (propext ?_) (fun _ => rfl) fun _ => rfl
    omega
  have hlow : low w (sval j u) = ((BitVec.ofNat j u).signExtend w).toNat := by
    rw [hsval, BitVec.signExtend, BitVec.toNat_ofInt, low]
  rw [hlow, ← BitVec.getLsbD, BitVec.getLsbD_signExtend, BitVec.msb_eq_getLsbD_last]
  simp only [BitVec.getLsbD_ofNat, hb, decide_true, Bool.true_and]
  split_ifs with h
  · simp [h]
  · simp [Nat.sub_lt hj]

/-! ## QPLANE and QUNPL (R140, R169) -/

/-- The bits that QPLANE takes of an element: its value clamped to the planes' range. -/
def qplaneValue (f x : Nat) : Nat := low (fmtPlanes f) (planeClamp f (if fmtPlaneSigned f then sval 8 x else (x : Int)))

/-- The element that QPLANE gives for plane p: bit i is the bit of element i. -/
def qplaneElem (f : Nat) (l : Token) (p : Nat) : Nat :=
  (List.range l.len).foldl (fun n i => n + qplaneValue f (l.elem i) / 2 ^ (fmtPlanes f - 1 - p) % 2 * 2 ^ i) 0

theorem testBit_qplaneElem (f : Nat) (l : Token) (p i : Nat) :
    (qplaneElem f l p).testBit i = (decide (i < l.len) && (qplaneValue f (l.elem i)).testBit (fmtPlanes f - 1 - p)) := by
  rw [qplaneElem, testBit_foldl_places (fun i => qplaneValue f (l.elem i) / 2 ^ (fmtPlanes f - 1 - p)), Nat.testBit_div_two_pow,
    Nat.zero_add]

/-- The value that QUNPL gives of m planes for element i, sign extended to a byte for a signed format. -/
def qunplValue (f m : Nat) (l : Token) (i : Nat) : Nat :=
  let u := (List.range m).foldl (fun a p => 2 * a + l.elem p / 2 ^ i % 2) 0
  if fmtPlaneSigned f then low 8 (sval m u) else u

theorem testBit_qunplValue (f : Nat) {m b : Nat} (l : Token) (i : Nat) (hm : 0 < m) (hb : b < 8) :
    (qunplValue f m l i).testBit b =
      if b < m then (l.elem (m - 1 - b)).testBit i else fmtPlaneSigned f && (l.elem 0).testBit i := by
  have hbit : ∀ c, ((List.range m).foldl (fun a p => 2 * a + l.elem p / 2 ^ i % 2) 0).testBit c =
      (decide (c < m) && (l.elem (m - 1 - c)).testBit i) := fun c => by
    rw [testBit_foldl_double (fun p => l.elem p / 2 ^ i), Nat.testBit_div_two_pow, Nat.zero_add]
  rw [qunplValue]
  cases fmtPlaneSigned f with
  | true =>
    rw [if_pos rfl, testBit_low_sval hm (foldl_double_lt _ m) hb, hbit, hbit]
    split_ifs with h
    · simp [h]
    · simp [Nat.sub_lt hm]
  | false => rw [if_neg Bool.false_ne_true, hbit]; split_ifs with h <;> simp [h]

theorem qunplValue_lt (f : Nat) {m : Nat} (l : Token) (i : Nat) (hm : m ≤ 8) : qunplValue f m l i < 256 := by
  rw [qunplValue]
  split_ifs
  · rw [low]
    have := Int.emod_lt_of_pos (sval m ((List.range m).foldl (fun a p => 2 * a + l.elem p / 2 ^ i % 2) 0)) (b := (2 ^ 8 : Nat)) (by decide)
    omega
  · exact Nat.lt_of_lt_of_le (foldl_double_lt _ m) (Nat.pow_le_pow_right (by decide) hm)

theorem fmtPlanes_le (f : Nat) : fmtPlanes f ≤ 8 := by
  simp only [fmtPlanes, Bool.and_eq_true, decide_eq_true_eq]
  split_ifs <;> omega

section
variable {w : EWord} {l : Token} (hall : ∀ i < l.len, l.has i = true)

theorem qplaneOut_of_wrap (hfmt : l.fmt.toNat = carrier w.fmt.toNat) (hwrap : 2 ^ 32 < l.itag.toNat + (fmtPlanes w.fmt.toNat + 1)) :
    qplaneOut w l = .bad 0x0B 0x05 := (if_neg (not_not.mpr hfmt)).trans (if_pos hwrap)

theorem qunplOut_of_length (n : Nat) (hfmt : l.fmt = 11) (hlen : l.len < 3 ∨ fmtPlanes w.fmt.toNat + 1 < l.len) :
    qunplOut w n l = .bad 0x0B 0x1A := by
  have h : (decide (l.len - 1 < 2) || decide (fmtPlanes w.fmt.toNat < l.len - 1)) = true := by simp; omega
  exact (if_neg (not_not.mpr hfmt)).trans (if_pos h)

section
variable {n m : Nat} (hfmt : l.fmt = 11) (hlen : l.len = m + 1) (hm : 2 ≤ m) (hk : m ≤ fmtPlanes w.fmt.toNat)
  (hscale : l.scale.toInt + (fmtPlanes w.fmt.toNat - m : Nat) ≤ 127)
include hfmt hlen hm hk hscale

theorem qunplOut_of_wrap (hwrap : 2 ^ 32 < l.itag.toNat + n) : qunplOut w n l = .bad 0x0B 0x05 := by
  have hplanes : ¬ (decide (l.len - 1 < 2) || decide (fmtPlanes w.fmt.toNat < l.len - 1)) = true := by simp; omega
  have hsc : ¬ 127 < l.scale.toInt + ((fmtPlanes w.fmt.toNat : Int) - (l.len - 1 : Nat)) := by omega
  exact (if_neg (not_not.mpr hfmt)).trans ((if_neg hplanes).trans ((if_neg hsc).trans (if_pos hwrap)))

include hall

theorem qunplOut_of_planes (hwrap : l.itag.toNat + n ≤ 2 ^ 32) : qunplOut w n l = .run
    { act := .normal, fmt := BitVec.ofNat 5 (carrier w.fmt.toNat), len := n,
      scale := BitVec.ofInt 8 (l.scale.toInt + (fmtPlanes w.fmt.toNat - m : Nat)), ctx := l.ctx, itag := l.itag,
      mask := BitVec.ofNat 32 (l.elem m % 2 ^ n), data := (List.range n).map fun i => BitVec.ofNat 64 (qunplValue w.fmt.toNat m l i) } := by
  have hplanes : ¬ (decide (l.len - 1 < 2) || decide (fmtPlanes w.fmt.toNat < l.len - 1)) = true := by simp; omega
  have hsc : ¬ 127 < l.scale.toInt + ((fmtPlanes w.fmt.toNat : Int) - (l.len - 1 : Nat)) := by omega
  refine (if_neg (not_not.mpr hfmt)).trans ((if_neg hplanes).trans ((if_neg hsc).trans ((if_neg (Nat.not_lt.mpr hwrap)).trans ?_)))
  have helem : ∀ p ≤ m, (if l.has p then l.elem p else 0) = l.elem p := fun p hp => if_pos (hall p (by omega))
  have hm1 : l.len - 1 = m := by omega
  have hcast : (fmtPlanes w.fmt.toNat : Int) - m = (fmtPlanes w.fmt.toNat - m : Nat) := by omega
  have hfold : ∀ i, (List.range m).foldl (fun a p => 2 * a + (if l.has p then l.elem p else 0) / 2 ^ i % 2) 0 =
      (List.range m).foldl (fun a p => 2 * a + l.elem p / 2 ^ i % 2) 0 := fun i =>
    List.foldl_ext _ _ _ fun a p hp => by rw [helem p (List.mem_range.mp hp).le]
  simp only [hm1, helem m le_rfl, hfold, hcast]
  rfl

end

include hall

theorem qplaneOut_of_full (hfmt : l.fmt.toNat = carrier w.fmt.toNat) (hwrap : l.itag.toNat + (fmtPlanes w.fmt.toNat + 1) ≤ 2 ^ 32) :
    qplaneOut w l = .run
      { act := .normal, fmt := 11, len := fmtPlanes w.fmt.toNat + 1, scale := l.scale, ctx := l.ctx, itag := l.itag,
        mask := fullMask (fmtPlanes w.fmt.toNat + 1),
        data := ((List.range (fmtPlanes w.fmt.toNat)).map (qplaneElem w.fmt.toNat l) ++ [l.mask.toNat]).map fun n => BitVec.ofNat 64 n } := by
  refine (if_neg (not_not.mpr hfmt)).trans ((if_neg (Nat.not_lt.mpr hwrap)).trans ?_)
  have hplane : ∀ p, (List.range l.len).foldl (fun n i => n + (if l.has i then qplaneValue w.fmt.toNat (l.elem i) else 0) /
      2 ^ (fmtPlanes w.fmt.toNat - 1 - p) % 2 * 2 ^ i) 0 = qplaneElem w.fmt.toNat l p := fun p =>
    List.foldl_ext _ _ _ fun a i hi => by rw [if_pos (hall i (List.mem_range.mp hi))]
  rw [← List.map_congr_left fun p _ => hplane p]
  rfl

end

end Sys2Proof.Machine

/-! PROOFS. The scale that SCALEMX gives is the least with which the largest magnitude fits (R167). -/

namespace Sys2Proof.Machine

/-! ## The scale of SCALEMX (R167) -/

/-- The number that m × 2^e stands for. -/
def scaledNumber (x : Nat × Int) : ℚ := x.1 * (2 : ℚ) ^ x.2

theorem scaledNumber_nonneg (x : Nat × Int) : 0 ≤ scaledNumber x := by
  rw [scaledNumber]
  positivity

theorem scaledNumber_eq_zero_iff (x : Nat × Int) : scaledNumber x = 0 ↔ x.1 = 0 := by
  have h : (2 : ℚ) ^ x.2 ≠ 0 := by positivity
  simp [scaledNumber, h]

theorem scaledNumber_sub (m : Nat) (e s : Int) : scaledNumber (m, e - s) = scaledNumber (m, e) * (2 : ℚ) ^ (-s) := by
  rw [scaledNumber, scaledNumber, mul_assoc, ← zpow_add₀ two_ne_zero, Int.sub_eq_add_neg]

theorem scaledNumber_eq_shifted {m : Nat} {e e0 : Int} (h : e0 ≤ e) :
    scaledNumber (m, e) = (m * 2 ^ (e - e0).toNat : Nat) * (2 : ℚ) ^ e0 := by
  have hexp : (2 : ℚ) ^ e = (2 : ℚ) ^ (e - e0).toNat * (2 : ℚ) ^ e0 := by
    rw [← zpow_natCast, ← zpow_add₀ two_ne_zero, Int.toNat_of_nonneg (by omega), Int.sub_add_cancel]
  rw [scaledNumber, hexp]
  push_cast
  ring

theorem scaledLe_iff (m1 m2 : Nat) (e1 e2 : Int) : scaledLe m1 e1 m2 e2 = true ↔ scaledNumber (m1, e1) ≤ scaledNumber (m2, e2) := by
  rw [scaledNumber_eq_shifted (min_le_left e1 e2), scaledNumber_eq_shifted (min_le_right e1 e2),
    mul_le_mul_iff_left₀ (by positivity), Nat.cast_le]
  simp [scaledLe]

/-- A number lies between the power of two of its leading bit and the next. -/
theorem scaledNumber_bounds {m : Nat} (hm : m ≠ 0) (e : Int) :
    (2 : ℚ) ^ ((Nat.log2 m : Int) + e) ≤ scaledNumber (m, e) ∧ scaledNumber (m, e) < (2 : ℚ) ^ ((Nat.log2 m : Int) + e + 1) := by
  have hlow : (2 : ℚ) ^ Nat.log2 m ≤ m := by exact_mod_cast Nat.log2_self_le hm
  have hhigh : (m : ℚ) < (2 : ℚ) ^ (Nat.log2 m + 1) := by exact_mod_cast Nat.lt_log2_self
  have hpos : (0 : ℚ) < 2 ^ e := by positivity
  rw [Int.add_right_comm, zpow_add₀ two_ne_zero, zpow_add₀ two_ne_zero (_ + 1)]
  exact ⟨mul_le_mul_of_nonneg_right (by exact_mod_cast hlow) hpos.le, mul_lt_mul_of_pos_right (by exact_mod_cast hhigh) hpos⟩

theorem abs_exact_fin (neg : Bool) (m : Nat) (e : Int) : |Claims.exact (.fin neg m e)| = scaledNumber (m, e) := by
  have h : (0 : ℚ) ≤ m * (2 : ℚ) ^ e := by positivity
  cases neg <;> simp [Claims.exact, scaledNumber, abs_of_nonneg h, neg_mul, abs_neg]

/-- The larger of a magnitude so far and that of a value's finite number. -/
def largerOf (z : Nat × Int) : Val → Nat × Int
  | .fin _ m e => if scaledLe m e z.1 z.2 then z else (m, e)
  | _ => z

theorem scaledNumber_largerOf (z : Nat × Int) (v : Val) : scaledNumber (largerOf z v) = max (scaledNumber z) |Claims.exact v| := by
  cases v with
  | fin neg m e =>
    rw [largerOf, abs_exact_fin]
    split_ifs with h
    · exact (max_eq_left ((scaledLe_iff _ _ _ _).mp h)).symm
    · exact (max_eq_right (not_le.mp (mt (scaledLe_iff _ _ _ _).mpr h)).le).symm
  | inf | qnan | snan => simp [largerOf, Claims.exact, scaledNumber_nonneg]

theorem scaledNumber_foldl_largerOf {α : Type} (v : α → Val) (l : List α) (z : Nat × Int) :
    scaledNumber (l.foldl (fun z i => largerOf z (v i)) z) = (l.map fun i => |Claims.exact (v i)|).foldl max (scaledNumber z) := by
  induction l generalizing z with
  | nil => rfl
  | cons i l ih => rw [List.foldl_cons, ih, scaledNumber_largerOf, List.map_cons, List.foldl_cons]

theorem scaledNumber_largestIn {l : Token} (mode : Nat) (hall : ∀ i < l.len, l.has i = true) :
    scaledNumber (largestIn mode l) =
      ((List.range l.len).map fun i =>
        if l.has i then |Claims.exact (elemVal l.fmt.toNat (l.elem i) l.scale.toInt mode)| else 0).foldl max 0 := by
  have hfold : largestIn mode l =
      (List.range l.len).foldl (fun z i => largerOf z (elemVal l.fmt.toNat (l.elem i) l.scale.toInt mode)) (0, 0) := by
    rw [largestIn, Token.present_eq_range hall]
    refine List.foldl_ext _ _ _ fun z i _ => ?_
    cases elemVal l.fmt.toNat (l.elem i) l.scale.toInt mode <;> rfl
  rw [hfold, scaledNumber_foldl_largerOf, List.map_congr_left fun i hi => if_pos (hall i (List.mem_range.mp hi))]
  simp [scaledNumber]

/-- The largest finite number of a format, as R167 names it. -/
theorem floatVal_largest {f : FloatFmt} (hf : f ∈ floatFmts) : ∃ m e, floatVal f (f.largest false) 0 0 = .fin false m e ∧ m ≠ 0 := by
  fin_cases hf <;> exact ⟨_, _, rfl, by decide⟩

theorem floatFmt_mem {df : Nat} (h : fmtFloat df = true) : floatFmt df ∈ floatFmts := by
  have h : df ≤ 7 := by simpa [fmtFloat] using h
  exact List.mem_map_of_mem (by interval_cases df <;> simp)

theorem two_le_fmtPlanes {df : Nat} (h : fmtPlanes df ≠ 0) : 2 ≤ fmtPlanes df := by
  simp only [fmtPlanes, Bool.and_eq_true, decide_eq_true_eq] at h ⊢
  split_ifs at h ⊢ <;> omega

theorem planeRange_pos {df : Nat} (h : fmtPlanes df ≠ 0) : 0 < (planeRange df).2 := by
  have hk := two_le_fmtPlanes h
  have hhalf := Nat.one_lt_two_pow (n := fmtPlanes df - 1) (by omega)
  have hall := Nat.one_lt_two_pow (n := fmtPlanes df) (by omega)
  rw [planeRange]
  split_ifs
  · exact Int.sub_pos.mpr (Int.ofNat_lt.mpr hhalf)
  · exact Int.sub_pos.mpr (Int.ofNat_lt.mpr hall)

theorem intRange_pos {df : Nat} (h : fmtInt df = true) : 0 < (intRange df).2 := by
  have h : (8 ≤ df ∧ df ≤ 13) ∨ df = 28 ∨ df = 29 := by simpa [fmtInt, or_assoc] using h
  obtain ⟨hlow, hhigh⟩ | rfl | rfl := h
  · interval_cases df <;> decide
  · decide
  · decide

theorem scaledNumber_largestOf {df : Nat} (h : (fmtFloat df || fmtInt df || fmtPlanes df ≠ 0) = true) :
    scaledNumber (largestOf df) = (if fmtFloat df then Claims.exact (floatVal (floatFmt df) ((floatFmt df).largest false) 0 0)
      else if fmtPlanes df ≠ 0 then ((planeRange df).2 : ℚ) else ((intRange df).2 : ℚ)) ∧ (largestOf df).1 ≠ 0 := by
  have hint : ∀ z : Int, 0 < z → scaledNumber (z.toNat, 0) = z ∧ z.toNat ≠ 0 := fun z hz =>
    ⟨by rw [scaledNumber, zpow_zero, mul_one]; exact_mod_cast Int.toNat_of_nonneg hz.le, by omega⟩
  by_cases hfloat : fmtFloat df = true
  · obtain ⟨m, e, hval, hm⟩ := floatVal_largest (floatFmt_mem hfloat)
    simp [largestOf, hfloat, hval, scaledNumber, Claims.exact, hm]
  · by_cases hplanes : fmtPlanes df ≠ 0
    · simpa [largestOf, hfloat, hplanes] using hint _ (planeRange_pos hplanes)
    · simpa [largestOf, hfloat, hplanes] using hint _ (intRange_pos (by simpa [hfloat, hplanes] using h))

/-- The least scale with which a magnitude does not pass a bound, before it is clamped. -/
def leastScale (m : Nat) (e : Int) (b : Nat) (eb : Int) : Int :=
  let guess : Int := (Nat.log2 m : Int) + e - ((Nat.log2 b : Int) + eb)
  if scaledLe m (e - (guess - 1)) b eb then guess - 1 else if scaledLe m (e - guess) b eb then guess else guess + 1

/-- With g the distance of the two leading bits, the scale g - 1 is too small for every magnitude and g + 1 is enough. -/
theorem leastScale_spec {m b : Nat} (e eb : Int) (hm : m ≠ 0) (hb : b ≠ 0) :
    scaledNumber (m, e) * (2 : ℚ) ^ (-leastScale m e b eb) ≤ scaledNumber (b, eb) ∧
      scaledNumber (b, eb) < scaledNumber (m, e) * (2 : ℚ) ^ (-(leastScale m e b eb - 1)) := by
  obtain ⟨-, hmhigh⟩ := scaledNumber_bounds hm (e - ((Nat.log2 m : Int) + e - ((Nat.log2 b : Int) + eb) + 1))
  obtain ⟨hmlow, -⟩ := scaledNumber_bounds hm (e - ((Nat.log2 m : Int) + e - ((Nat.log2 b : Int) + eb) - 1))
  obtain ⟨hblow, hbhigh⟩ := scaledNumber_bounds hb eb
  simp only [leastScale, ← scaledNumber_sub, scaledLe_iff]
  generalize hg : (Nat.log2 m : Int) + e - ((Nat.log2 b : Int) + eb) = g at *
  rw [show (Nat.log2 m : Int) + (e - (g - 1)) = (Nat.log2 b : Int) + eb + 1 by omega] at hmlow
  rw [show (Nat.log2 m : Int) + (e - (g + 1)) + 1 = (Nat.log2 b : Int) + eb by omega] at hmhigh
  have hlower : scaledNumber (b, eb) < scaledNumber (m, e - (g - 1)) := hbhigh.trans_le hmlow
  rw [if_neg (not_le.mpr hlower)]
  split_ifs with h
  · exact ⟨h, hlower⟩
  · exact ⟨(hmhigh.trans_le hblow).le, by simpa using not_le.mp h⟩

theorem scaleFor_eq (mode df : Nat) (l : Token) : scaleFor mode df l =
    if (largestIn mode l).1 = 0 then 0
    else max (-128) (min 127 (leastScale (largestIn mode l).1 (largestIn mode l).2 (largestOf df).1 (largestOf df).2)) := rfl

theorem isScale_scaleFor {l : Token} {df : Nat} (mode : Nat) (hall : ∀ i < l.len, l.has i = true)
    (hdf : (fmtFloat df || fmtInt df || fmtPlanes df ≠ 0) = true) : Claims.IsScale mode df l (scaleFor mode df l) := by
  obtain ⟨hb, hbpos⟩ := scaledNumber_largestOf hdf
  rw [Claims.IsScale, ← scaledNumber_largestIn mode hall, ← hb, scaleFor_eq]
  rw [ne_eq, scaledNumber_eq_zero_iff]
  refine ⟨fun h => if_pos h, fun h => ⟨_, if_neg h, leastScale_spec _ _ h hbpos⟩⟩

end Sys2Proof.Machine

/-! PROOFS. A run placed in the re-block buffers of a converter node, and the output runs that are then whole (R168). -/

namespace Sys2Proof.Machine

/-! ## The re-block buffers (R168) -/

/-- A buffer of the output run at `base` whose first tags hold the elements `vs` of runs with the slot, FMT and SCALE of `a`. -/
structure ReBuf.Holds (b : ReBuf) (a : Token) (base : Nat) (vs : List Nat) : Prop where
  ctx : b.ctx = a.ctx
  slot : b.slot = a.slot
  base : b.base = base
  typed : b.typed = decide (vs ≠ [])
  shape : b.typed = true → b.fmt = a.fmt ∧ b.scale = a.scale
  cancels : b.cancels = 0
  covered : b.covered = fullMask vs.length
  present : b.present = fullMask vs.length
  within : ∀ v ∈ b.data, v.1 < vs.length
  elems : ∀ i < vs.length, (b.data.find? fun v => v.1 = i).map (fun v => v.2) = some (BitVec.ofNat 64 (vs.getD i 0))

theorem ReBuf.holds_fresh (a : Token) (base : Nat) : ({ ctx := a.ctx, slot := a.slot, base := base } : ReBuf).Holds a base [] where
  ctx := rfl
  slot := rfl
  base := rfl
  typed := rfl
  shape h := absurd h Bool.false_ne_true
  cancels := rfl
  covered := rfl
  present := rfl
  within := by simp
  elems := by simp

theorem blocked_nil (x : Tile) (a : Token) (base : Nat) :
    Claims.Blocked x a.ctx a.slot base a.fmt a.scale [] ↔ x.rebufs = [] := by simp [Claims.Blocked]

theorem blocked_iff_holds (x : Tile) (a : Token) (base : Nat) {vs : List Nat} (hvs : vs ≠ []) :
    Claims.Blocked x a.ctx a.slot base a.fmt a.scale vs ↔ ∃ b, x.rebufs = [b] ∧ b.Holds a base vs := by
  rw [Claims.Blocked, if_neg hvs]
  refine exists_congr fun b => and_congr_right fun _ => ⟨?_, ?_⟩
  · rintro ⟨hctx, hslot, hbase, htyped, hfmt, hscale, hcancels, hcovered, hpresent, hwithin, helems⟩
    exact ⟨hctx, hslot, hbase, by simp [htyped, hvs], fun _ => ⟨hfmt, hscale⟩, hcancels, hcovered, hpresent.trans hcovered, hwithin,
      helems⟩
  · intro h
    have htyped : b.typed = true := by simp [h.typed, hvs]
    exact ⟨h.ctx, h.slot, h.base, htyped, (h.shape htyped).1, (h.shape htyped).2, h.cancels, h.covered, h.present.trans h.covered.symm,
      h.within, h.elems⟩

/-! ## Masks of neighbouring tags -/

theorem getLsbD_fullMask {n : Nat} (hn : n ≤ 32) (i : Nat) : (fullMask n).getLsbD i = decide (i < n) := by
  rw [fullMask, BitVec.getLsbD_ofNat, Nat.testBit_two_pow_sub_one]
  by_cases h : i < n
  · simp [h, Nat.lt_of_lt_of_le h hn]
  · simp [h]

theorem fullMask_inj {n m : Nat} (hn : n ≤ 32) (hm : m ≤ 32) : fullMask n = fullMask m ↔ n = m := by
  refine ⟨fun h => ?_, fun h => h ▸ rfl⟩
  have hbit (i : Nat) : (i < n) ↔ i < m := by
    simpa [getLsbD_fullMask hn, getLsbD_fullMask hm] using congrArg (fun b => b.getLsbD i) h
  have := hbit n
  have := hbit m
  omega

/-- The tags after the first x, c of them, together with the first x. -/
theorem fullMask_or_run (x c : Nat) (h : x + c ≤ 32) :
    fullMask x ||| BitVec.ofNat 32 (((List.range c).map (x + ·)).foldl (fun m i => m + 2 ^ i) 0) = fullMask (x + c) := by
  have hsorted : ((List.range c).map (x + ·)).SortedLT := by
    rw [← List.range'_eq_map_range]
    exact List.sortedLT_range' x c one_ne_zero
  ext i hi
  rw [← BitVec.getLsbD_eq_getElem, ← BitVec.getLsbD_eq_getElem, BitVec.getLsbD_or, getLsbD_fullMask (by omega), getLsbD_fullMask h,
    BitVec.getLsbD_ofNat, testBit_sum_two_pow hsorted, Bool.eq_iff_iff]
  simp only [hi, decide_true, Bool.true_and, List.mem_map, List.mem_range, Bool.or_eq_true, decide_eq_true_eq]
  constructor
  · rintro (h | ⟨k, hk, rfl⟩) <;> omega
  · intro h
    by_cases hx : i < x
    · exact .inl hx
    · exact .inr ⟨i - x, by omega, by omega⟩

theorem drop_range (m k : Nat) : (List.range m).drop k = (List.range (m - k)).map (k + ·) := by
  rw [List.range_eq_range', List.drop_range', List.range'_eq_map_range]
  simp

theorem filter_range_interval {m p c : Nat} (h : p + c ≤ m) :
    (List.range m).filter (fun i => decide (p ≤ i) && decide (i < p + c)) = (List.range c).map (p + ·) := by
  obtain ⟨r, rfl⟩ := Nat.exists_eq_add_of_le h
  have hbefore : (List.range p).filter (fun i => decide (p ≤ i) && decide (i < p + c)) = [] := by
    simp only [List.filter_eq_nil_iff, List.mem_range, Bool.and_eq_true, decide_eq_true_eq]
    omega
  have hwithin : ((List.range c).map (p + ·)).filter (fun i => decide (p ≤ i) && decide (i < p + c)) = (List.range c).map (p + ·) := by
    simp only [List.filter_eq_self, List.mem_map, List.mem_range, Bool.and_eq_true, decide_eq_true_eq]
    omega
  have hafter : ((List.range r).map (p + c + ·)).filter (fun i => decide (p ≤ i) && decide (i < p + c)) = [] := by
    simp only [List.filter_eq_nil_iff, List.mem_map, List.mem_range, Bool.and_eq_true, decide_eq_true_eq]
    omega
  rw [List.range_add, List.range_add, List.filter_append, List.filter_append, hbefore, hwithin, hafter, List.nil_append, List.append_nil]

theorem tagsOf_map_sub {a b base x c : Nat} (ha : a = base + x) (hb : b = base + x + c) :
    (tagsOf a b).map (· - base) = (List.range c).map (x + ·) := by
  subst ha hb
  have hsub : (fun i => base + x + i - base) = (x + ·) := funext fun i => by omega
  simp [tagsOf, Function.comp_def, hsub]

/-- The tags of an input within an output run are c after the first x. -/
theorem coverMask_eq {n base lo hi x c : Nat} (hlow : max lo base = base + x) (hhigh : min hi (base + n) = base + x + c) :
    coverMask n base lo hi = ((List.range c).map (x + ·)).foldl (fun m i => m + 2 ^ i) 0 := by
  rw [coverMask, ← tagsOf_map_sub hlow hhigh, List.foldl_map]

/-! ## An input placed in a buffer -/

/-- Elements added at the places after those held are found there, and the ones held as before. -/
theorem find?_append_places {d : List (Nat × Word)} {vs : List Nat} (w : Nat → Nat) {c i : Nat} (hwithin : ∀ v ∈ d, v.1 < vs.length)
    (helems : ∀ i < vs.length, (d.find? fun v => v.1 = i).map (fun v => v.2) = some (BitVec.ofNat 64 (vs.getD i 0)))
    (hi : i < vs.length + c) :
    ((d ++ (List.range c).map fun k => (vs.length + k, BitVec.ofNat 64 (w k))).find? fun v => v.1 = i).map (fun v => v.2) =
      some (BitVec.ofNat 64 ((vs ++ (List.range c).map w).getD i 0)) := by
  rw [List.find?_append]
  by_cases hold : i < vs.length
  · obtain ⟨v, hv, hword⟩ := Option.map_eq_some_iff.mp (helems i hold)
    rw [hv, Option.some_or, Option.map_some, hword, List.getD_append _ _ _ _ hold]
  · obtain ⟨k, rfl⟩ := Nat.exists_eq_add_of_le (Nat.not_lt.mp hold)
    have hnone : d.find? (fun v => decide (v.1 = vs.length + k)) = none := by
      refine List.find?_eq_none.mpr fun v hv => ?_
      have := hwithin v hv
      simp only [decide_eq_true_eq]
      omega
    have hk : k < c := by omega
    have hfind : (List.range c).find? (fun j => decide (vs.length + j = vs.length + k)) = some k := by
      refine List.find?_range_eq_some.mpr ⟨by simp, List.mem_range.mpr hk, ?_⟩
      simp
      omega
    rw [hnone, Option.none_or, List.find?_map, List.getD_append_right _ _ _ _ (Nat.le_add_right _ _), Nat.add_sub_cancel_left]
    simp only [Function.comp_def, hfind]
    simp [hk]
section
variable {b : ReBuf} {a : Token} {n base : Nat} {vs : List Nat} (h : b.Holds a base vs) (hall : ∀ i < a.len, a.has i = true) {p c : Nat}
  (hlow : max a.lo base = base + vs.length) (hhigh : min a.hi (base + n) = base + vs.length + c) (hp : a.lo + p = base + vs.length)
include h hall hlow hhigh hp

/-- The elements of a run that an output run takes: c from the p-th. -/
theorem present_filter_within :
    a.present.filter (fun i => decide (b.base ≤ a.lo + i) && decide (a.lo + i < b.base + n)) = (List.range c).map (p + ·) := by
  have hlen : p + c ≤ a.len := by
    have : a.hi = a.lo + a.len := rfl
    omega
  rw [Token.present_eq_range hall, ← filter_range_interval hlen, h.base]
  refine List.filter_congr fun i hi => ?_
  have : a.hi = a.lo + a.len := rfl
  have hi := List.mem_range.mp hi
  rw [Bool.eq_iff_iff]
  simp only [Bool.and_eq_true, decide_eq_true_eq]
  omega

theorem ReBuf.holds_cover (hact : a.act = .normal) (hc : 0 < c) (hn : vs.length + c ≤ 32) (id : Option Nat) :
    (b.cover n a id).Holds a base (vs ++ (List.range c).map fun i => a.elem (p + i)) := by
  have hlive := present_filter_within h hall hlow hhigh hp
  have hne : vs ++ (List.range c).map (fun i => a.elem (p + i)) ≠ [] := by simp [hc.ne']
  have hplace (i : Nat) : a.lo + (p + i) - b.base = vs.length + i := by rw [h.base]; omega
  have hsum : ((List.range c).map (p + ·)).foldl (fun k i => k + 2 ^ (a.lo + i - b.base)) 0 =
      ((List.range c).map (vs.length + ·)).foldl (fun m i => m + 2 ^ i) 0 := by
    simp only [List.foldl_map, hplace]
  have hdata : ((List.range c).map (p + ·)).map (fun i => (a.lo + i - b.base, BitVec.ofNat 64 (a.elem i))) =
      (List.range c).map fun i => (vs.length + i, BitVec.ofNat 64 (a.elem (p + i))) := by
    simp only [List.map_map, Function.comp_def, hplace]
  have hcancel : a.act ≠ .cancel := by simp [hact]
  have hfmt : (if b.typed then b.fmt else a.fmt) = a.fmt := by
    split_ifs with ht
    · exact (h.shape ht).1
    · rfl
  have hbase : coverMask n b.base a.lo a.hi = ((List.range c).map (vs.length + ·)).foldl (fun m i => m + 2 ^ i) 0 := by
    rw [h.base, coverMask_eq hlow hhigh]
  have hcover : b.cover n a id = { b with
      covered := fullMask (vs.length + c), present := fullMask (vs.length + c), fmt := a.fmt, scale := a.scale, typed := true,
      inputs := b.inputs ++ id.toList,
      data := b.data ++ (List.range c).map fun i => (vs.length + i, BitVec.ofNat 64 (a.elem (p + i))) } := by
    simp only [ReBuf.cover, if_neg hcancel, hlive, hsum, hdata, hfmt, hbase, h.covered, h.present, fullMask_or_run _ _ hn]
  rw [hcover]
  exact {
    ctx := h.ctx
    slot := h.slot
    base := h.base
    typed := by simp [hc.ne']
    shape := fun _ => ⟨rfl, rfl⟩
    cancels := h.cancels
    covered := by simp
    present := by simp
    within := by
      intro v hv
      obtain hv | hv := List.mem_append.mp hv
      · have := h.within v hv
        simp; omega
      · obtain ⟨i, hi, rfl⟩ := List.mem_map.mp hv
        simpa using hi
    elems := fun i hi => find?_append_places _ h.within h.elems (by simpa using hi) }

end

/-! ## An input placed in a tile's buffers -/

theorem blocked_cases {x : Tile} {a : Token} {base : Nat} {vs : List Nat} (h : Claims.Blocked x a.ctx a.slot base a.fmt a.scale vs) :
    (vs = [] ∧ x.rebufs = []) ∨ ∃ b, x.rebufs = [b] ∧ b.Holds a base vs := by
  by_cases hvs : vs = []
  · subst hvs
    exact .inl ⟨rfl, (blocked_nil x a base).mp h⟩
  · exact .inr ((blocked_iff_holds x a base hvs).mp h)

/-- An output run of a tile's one buffer is that of the elements it holds. -/
theorem Tile.rebuf_eq_some_of_blocked {x : Tile} {a : Token} {base k : Nat} {vs : List Nat} {b : ReBuf}
    (h : Claims.Blocked x a.ctx a.slot base a.fmt a.scale vs) (hb : x.rebuf a.ctx a.slot k = some b) : b.Holds a base vs ∧ k = base := by
  obtain ⟨-, hx⟩ | ⟨b', hx, hholds⟩ := blocked_cases h
  · simp [Tile.rebuf, hx] at hb
  · have hmem := List.mem_of_find?_eq_some hb
    have hkey := List.find?_some hb
    rw [hx, List.mem_singleton] at hmem
    subst hmem
    simp only [hholds.base, Bool.and_eq_true, decide_eq_true_eq] at hkey
    exact ⟨hholds, hkey.2.symm⟩

/-- An input placed in its buffer of one output run, a new one where there is none. -/
def Tile.coverAt (x : Tile) (n : Nat) (a : Token) (id : Option Nat) (base : Nat) : Tile :=
  let b := (x.rebuf a.ctx a.slot base).getD { ctx := a.ctx, slot := a.slot, base := base }
  { x with rebufs := (x.rebufs.filter fun z => !(z.ctx = a.ctx && z.slot = a.slot && z.base = base)) ++ [b.cover n a id] }

theorem Tile.coverAll_eq (x : Tile) (n : Nat) (a : Token) (id : Option Nat) :
    x.coverAll n a id = (outBases n a.lo a.hi).foldl (fun y base => y.coverAt n a id base) x := rfl

/-- An input at its own output run: the tile's one buffer takes it. -/
theorem Tile.coverAt_blocked {x : Tile} {a : Token} {base : Nat} {vs : List Nat} (n : Nat) (id : Option Nat)
    (h : Claims.Blocked x a.ctx a.slot base a.fmt a.scale vs) :
    ∃ b : ReBuf, b.Holds a base vs ∧ x.coverAt n a id base = { x with rebufs := [b.cover n a id] } := by
  obtain ⟨rfl, hx⟩ | ⟨b, hx, hholds⟩ := blocked_cases h
  · exact ⟨_, ReBuf.holds_fresh a base, by simp [Tile.coverAt, Tile.rebuf, hx]⟩
  · exact ⟨b, hholds, by simp [Tile.coverAt, Tile.rebuf, hx, hholds.ctx, hholds.slot, hholds.base]⟩

/-- An input at another output run: a new buffer takes it. -/
theorem Tile.coverAt_other {x : Tile} {a : Token} {b : ReBuf} {base k : Nat} {vs : List Nat} (n : Nat) (id : Option Nat)
    (hx : x.rebufs = [b]) (h : b.Holds a base vs) (hk : base ≠ k) :
    x.coverAt n a id k = { x with rebufs := [b, ({ ctx := a.ctx, slot := a.slot, base := k } : ReBuf).cover n a id] } := by
  simp [Tile.coverAt, Tile.rebuf, hx, h.base, hk]

section
variable {a : Token} {n base x : Nat} (hbase : base % n = 0) (hx : x < n) (hlo : a.lo = base + x) (hlen : a.len ≤ n)
include hbase hx hlo hlen

/-- The output runs of an input's tags, tag by tag. -/
theorem tagsOf_map_outBase : (tagsOf a.lo a.hi).map (fun t => t / n * n) =
    List.replicate (min a.len (n - x)) base ++ List.replicate (a.len - (n - x)) (base + n) := by
  obtain ⟨q, rfl⟩ := Nat.dvd_of_mod_eq_zero hbase
  have hsub : a.hi - a.lo = min a.len (n - x) + (a.len - (n - x)) := by
    have : a.hi = a.lo + a.len := rfl
    omega
  have hn : 0 < n := Nat.zero_lt_of_lt hx
  have hrun : ∀ r, (n * q + r) / n * n = n * q + r / n * n := fun r => by rw [Nat.mul_add_div hn]; ring
  rw [tagsOf, hsub, List.range_add, List.map_append, List.map_append]
  congr 1
  · refine List.eq_replicate_iff.mpr ⟨by simp, ?_⟩
    simp only [List.mem_map, List.mem_range]
    rintro _ ⟨_, ⟨i, hi, rfl⟩, rfl⟩
    have hdiv : (x + i) / n = 0 := Nat.div_eq_of_lt (by omega)
    rw [hlo, Nat.add_assoc, hrun, hdiv, Nat.zero_mul, Nat.add_zero]
  · refine List.eq_replicate_iff.mpr ⟨by simp, ?_⟩
    simp only [List.mem_map, List.mem_range]
    rintro _ ⟨_, ⟨_, ⟨i, hi, rfl⟩, rfl⟩, rfl⟩
    have hdiv : (x + (min a.len (n - x) + i)) / n = 1 := by
      rw [Nat.div_eq_iff hn]
      omega
    rw [hlo, Nat.add_assoc, hrun, hdiv, Nat.one_mul]

theorem outBases_within (hpos : 0 < a.len) (hhigh : x + a.len ≤ n) : outBases n a.lo a.hi = [base] := by
  have hrest : a.len - (n - x) = 0 := by omega
  rw [outBases, tagsOf_map_outBase hbase hx hlo hlen, hrest, List.replicate_zero, List.append_nil, List.replicate_dedup (by omega)]

theorem outBases_across (hhigh : n < x + a.len) : outBases n a.lo a.hi = [base, base + n] := by
  have hdisjoint : List.Disjoint (List.replicate (min a.len (n - x)) base) [base + n] := by
    intro k hk hk'
    have := List.eq_of_mem_replicate hk
    have := List.mem_singleton.mp hk'
    omega
  rw [outBases, tagsOf_map_outBase hbase hx hlo hlen, List.dedup_append, List.replicate_dedup (by omega), hdisjoint.union_eq,
    List.replicate_dedup (by omega)]
  rfl

end

section
variable {x : Tile} {a : Token} {n base : Nat} {pre : List Nat} (hact : a.act = .normal) (hall : ∀ i < a.len, a.has i = true)
  (hpos : 0 < a.len) (hn : n ≤ 32) (hbase : base % n = 0) (hpre : pre.length < n) (hlo : a.lo = base + pre.length) (hlen : a.len ≤ n)
  (hblocked : Claims.Blocked x a.ctx a.slot base a.fmt a.scale pre)
include hact hall hpos hn hbase hpre hlo hlen hblocked

/-- The first buffer takes what its output run lacks, and a second one the rest. -/
theorem Tile.coverAll_blocked (id : Option Nat) : ∃ (b : ReBuf) (rest : List ReBuf),
    x.coverAll n a id = { x with rebufs := b :: rest } ∧
    b.Holds a base ((pre ++ (List.range a.len).map a.elem).take n) ∧
    Claims.Blocked { x with rebufs := rest } a.ctx a.slot (base + n) a.fmt a.scale ((pre ++ (List.range a.len).map a.elem).drop n) := by
  obtain ⟨b, hb, hcover⟩ := Tile.coverAt_blocked n id hblocked
  have hhi : a.hi = a.lo + a.len := rfl
  have htake : (pre ++ (List.range a.len).map a.elem).take n =
      pre ++ (List.range (min (n - pre.length) a.len)).map fun i => a.elem (0 + i) := by
    rw [List.take_append, List.take_of_length_le hpre.le, ← List.map_take, List.take_range]
    simp
  have hfirst := ReBuf.holds_cover hb hall (n := n) (p := 0) (c := min (n - pre.length) a.len) (by omega) (by omega) (by omega) hact
    (by omega) (by omega) id
  rw [← htake] at hfirst
  by_cases hhigh : pre.length + a.len ≤ n
  · have hdrop : (pre ++ (List.range a.len).map a.elem).drop n = [] := List.drop_of_length_le (by simpa using hhigh)
    refine ⟨_, [], ?_, hfirst, ?_⟩
    · rw [Tile.coverAll_eq, outBases_within hbase hpre hlo hlen hpos hhigh, List.foldl_cons, List.foldl_nil, hcover]
    · rw [hdrop, blocked_nil]
  · have hdrop : (pre ++ (List.range a.len).map a.elem).drop n =
        [] ++ (List.range (a.len - (n - pre.length))).map fun i => a.elem (n - pre.length + i) := by
      rw [List.drop_append, List.drop_of_length_le hpre.le, ← List.map_drop, drop_range, List.map_map]
      rfl
    have hsecond := ReBuf.holds_cover (ReBuf.holds_fresh a (base + n)) hall (n := n) (p := n - pre.length) (c := a.len - (n - pre.length))
      (by simp; omega) (by simp; omega) (by simp; omega) hact (by omega) (by simp; omega) id
    rw [← hdrop] at hsecond
    refine ⟨_, [_], ?_, hfirst, (blocked_iff_holds _ a _ ?_).mpr ⟨_, rfl, hsecond⟩⟩
    · rw [Tile.coverAll_eq, outBases_across hbase hpre hlo hlen (by omega), List.foldl_cons, List.foldl_cons, List.foldl_nil, hcover,
        Tile.coverAt_other n id rfl hfirst (by omega)]
    · rw [hdrop]
      simp
      omega

end

/-! ## Output runs that are whole -/

/-- Whether a buffer holds every tag of its output run, as `Tile.wholeRuns` asks it. -/
def ReBuf.isWhole (b : ReBuf) (c slot n : Nat) (bases : List Nat) : Bool :=
  b.ctx = c && b.slot = slot && bases.contains b.base && b.covered = fullMask n

theorem Tile.wholeRuns_eq (x : Tile) (c slot n : Nat) (bases : List Nat) : x.wholeRuns c slot n bases =
    ((x.rebufs.filter (ReBuf.isWhole · c slot n bases)).insertionSort (fun a b => a.base ≤ b.base) |>.map fun b => b.token n,
     { x with rebufs := x.rebufs.filter fun b => !b.isWhole c slot n bases }) := rfl

theorem Tile.wholeRuns_of_none (x : Tile) {c slot n : Nat} {bases : List Nat} (h : ∀ b ∈ x.rebufs, b.isWhole c slot n bases = false) :
    x.wholeRuns c slot n bases = ([], x) := by
  have hgone : x.rebufs.filter (ReBuf.isWhole · c slot n bases) = [] := by simpa using h
  have hkept : x.rebufs.filter (fun b => !b.isWhole c slot n bases) = x.rebufs := by simpa using h
  rw [Tile.wholeRuns_eq, hgone, hkept]
  rfl

theorem Tile.wholeRuns_cons (x : Tile) {b : ReBuf} {rest : List ReBuf} {c slot n : Nat} {bases : List Nat}
    (hb : b.isWhole c slot n bases = true) (h : ∀ b ∈ rest, b.isWhole c slot n bases = false) :
    ({ x with rebufs := b :: rest } : Tile).wholeRuns c slot n bases = ([b.token n], { x with rebufs := rest }) := by
  have hgone : rest.filter (ReBuf.isWhole · c slot n bases) = [] := by simpa using h
  have hkept : rest.filter (fun b => !b.isWhole c slot n bases) = rest := by simpa using h
  simp only [Tile.wholeRuns_eq, List.filter_cons, hb, hgone, hkept, if_true]
  rfl

section
variable {b : ReBuf} {a : Token} {base n : Nat} {vs : List Nat} (h : b.Holds a base vs)
include h

theorem ReBuf.Holds.isWhole_of_part (hn : n ≤ 32) (bases : List Nat) (hpart : vs.length < n) : b.isWhole a.ctx a.slot n bases = false := by
  have hcovered : ¬ b.covered = fullMask n := by
    rw [h.covered, fullMask_inj (by omega) hn]
    omega
  simp [ReBuf.isWhole, hcovered]

theorem ReBuf.Holds.isWhole_of_full {bases : List Nat} (hbase : base ∈ bases) (hfull : vs.length = n) :
    b.isWhole a.ctx a.slot n bases = true := by
  simp [ReBuf.isWhole, h.ctx, h.slot, h.base, h.covered, hbase, hfull]

/-- A whole output run is the run of its elements. -/
theorem ReBuf.Holds.token_of_full (hn : n ≤ 32) (hpos : 0 < n) (hfull : vs.length = n) : b.token n =
    { act := .normal, fmt := a.fmt, len := n, scale := a.scale, ctx := a.ctx, itag := BitVec.ofNat 32 base, mask := fullMask n,
      data := vs.map (BitVec.ofNat 64) } := by
  have hzero : (0 : BitVec 32) ≠ fullMask n := by
    rw [show (0 : BitVec 32) = fullMask 0 from rfl, Ne, fullMask_inj (by omega) hn]
    omega
  have htyped : b.typed = true := by
    rw [h.typed, decide_eq_true_eq]
    rintro rfl
    simp at hfull
    omega
  obtain ⟨hfmt, hscale⟩ := h.shape htyped
  have hpresent : b.present = fullMask n := by rw [h.present, hfull]
  have hdata : (List.range n).map (fun i => ((b.data.find? fun v => v.1 = i).map fun v => v.2).getD 0) = vs.map (BitVec.ofNat 64) := by
    refine List.ext_getElem (by simp [hfull]) fun i hi hi' => ?_
    have hi : i < vs.length := by simpa using hi'
    simp [h.elems i hi, hi]
  simp only [ReBuf.token, h.cancels, if_neg hzero, hpresent, if_neg hzero.symm, hfmt, hscale, h.ctx, h.base, hdata]

end

/-! ## A run that goes on from what its buffer holds (R168) -/

section
variable {x : Tile} {a : Token} {n base : Nat} {pre : List Nat} (hn : n ≤ 32) (hpre : pre.length < n)
  (hlo : a.lo = base + pre.length) (hblocked : Claims.Blocked x a.ctx a.slot base a.fmt a.scale pre)
include hblocked

include hn hpre hlo in
/-- No tag of it is covered yet. -/
theorem Tile.coveredTag_of_blocked : x.coveredTag n a = none := by
  refine List.find?_eq_none.mpr fun t ht hany => ?_
  obtain ⟨b, hb, hbit⟩ := (Option.any_eq_true _ _).mp hany
  obtain ⟨hholds, hkey⟩ := Tile.rebuf_eq_some_of_blocked hblocked hb
  obtain ⟨i, -, rfl⟩ := List.mem_map.mp ht
  rw [bit_eq_testBit, ← BitVec.getLsbD, hholds.covered, getLsbD_fullMask (by omega), hkey, decide_eq_true_eq] at hbit
  omega

/-- It has the FMT and the SCALE of the buffer. -/
theorem Tile.scaleClash_of_blocked : x.scaleClash n a = false := by
  have hagrees : ∀ k, ((x.rebuf a.ctx a.slot k).any fun b => b.typed && (b.fmt ≠ a.fmt || b.scale ≠ a.scale)) = false := by
    intro k
    refine Bool.eq_false_iff.mpr fun hany => ?_
    obtain ⟨b, hb, hclash⟩ := (Option.any_eq_true _ _).mp hany
    obtain ⟨hholds, -⟩ := Tile.rebuf_eq_some_of_blocked hblocked hb
    obtain ⟨htyped, hdiffers⟩ := Bool.and_eq_true_iff.mp hclash
    simp [hholds.shape htyped] at hdiffers
  simp only [Tile.scaleClash, hagrees]
  simp

end

section
variable {s : State} {t : Nat} {a : Token} {n base : Nat} {pre : List Nat} (hact : a.act = .normal) (hall : ∀ i < a.len, a.has i = true)
  (hpos : 0 < a.len) (hn : n ≤ 32) (hbase : base % n = 0) (hpre : pre.length < n) (hlo : a.lo = base + pre.length) (hlen : a.len ≤ n)
  (hblocked : Claims.Blocked (s.tile t) a.ctx a.slot base a.fmt a.scale pre)
include hn hpre hlo hblocked

theorem State.reblock_of_blocked (id : Option Nat) : s.reblock t a.slot n a id =
    let r := ((s.tile t).coverAll n a id).wholeRuns a.ctx a.slot n (outBases n a.lo a.hi)
    r.1.foldl (fun (z : State) tok => z.emit t a.slot a.ctx tok.lo (toAll (z.slotTargets t a.slot) tok)) (s.setTile t r.2) := by
  have hclash : ¬ (s.tile t).scaleClash n a = true := by simp [Tile.scaleClash_of_blocked hblocked]
  show (match (s.tile t).coveredTag n a with | some tag => _ | none => _) = _
  rw [Tile.coveredTag_of_blocked hn hpre hlo hblocked]
  exact if_neg hclash

include hact hall hpos hbase hlen

theorem State.reblock_part (id : Option Nat) (hpart : pre.length + a.len < n) : ∃ y : Tile,
    { y with rebufs := [] } = { s.tile t with rebufs := [] } ∧
    Claims.Blocked y a.ctx a.slot base a.fmt a.scale (pre ++ (List.range a.len).map a.elem) ∧
    s.reblock t a.slot n a id = s.setTile t y := by
  obtain ⟨b, rest, hcover, hb, hrest⟩ := Tile.coverAll_blocked hact hall hpos hn hbase hpre hlo hlen hblocked id
  rw [List.take_of_length_le (by simpa using hpart.le)] at hb
  rw [List.drop_of_length_le (by simpa using hpart.le), blocked_nil] at hrest
  subst hrest
  refine ⟨{ s.tile t with rebufs := [b] }, rfl, (blocked_iff_holds _ a base ?_).mpr ⟨b, rfl, hb⟩, ?_⟩
  · simp [hpos.ne']
  · have hnone := hb.isWhole_of_part hn (outBases n a.lo a.hi) (by simpa using hpart)
    rw [State.reblock_of_blocked hn hpre hlo hblocked, hcover, Tile.wholeRuns_of_none _ (by simpa using hnone)]
    rfl

theorem State.reblock_whole (id : Option Nat) (hwhole : n ≤ pre.length + a.len) : ∃ y : Tile,
    { y with rebufs := [] } = { s.tile t with rebufs := [] } ∧
    Claims.Blocked y a.ctx a.slot (base + n) a.fmt a.scale ((pre ++ (List.range a.len).map a.elem).drop n) ∧
    s.reblock t a.slot n a id = (s.setTile t y).emit t a.slot a.ctx base (toAll ((s.setTile t y).slotTargets t a.slot)
      { act := .normal, fmt := a.fmt, len := n, scale := a.scale, ctx := a.ctx, itag := BitVec.ofNat 32 base, mask := fullMask n,
        data := ((pre ++ (List.range a.len).map a.elem).take n).map (BitVec.ofNat 64) }) := by
  obtain ⟨b, rest, hcover, hb, hrest⟩ := Tile.coverAll_blocked hact hall hpos hn hbase hpre hlo hlen hblocked id
  have hfull : ((pre ++ (List.range a.len).map a.elem).take n).length = n := by simpa using hwhole
  have hmem : base ∈ outBases n a.lo a.hi := by
    by_cases h : pre.length + a.len ≤ n
    · simp [outBases_within hbase hpre hlo hlen hpos h]
    · simp [outBases_across hbase hpre hlo hlen (by omega)]
  have hparts : ∀ b' ∈ rest, b'.isWhole a.ctx a.slot n (outBases n a.lo a.hi) = false := by
    obtain ⟨-, hnil⟩ | ⟨b', hone, hb'⟩ := blocked_cases hrest
    · simp [show rest = [] from hnil]
    · have hone : rest = [b'] := hone
      simpa [hone] using hb'.isWhole_of_part hn _ (by simp; omega)
  have htag : (BitVec.ofNat 32 base).toNat = base := by
    have : a.lo < 2 ^ 32 := a.itag.isLt
    simp
    omega
  refine ⟨{ s.tile t with rebufs := rest }, rfl, hrest, ?_⟩
  rw [State.reblock_of_blocked hn hpre hlo hblocked, hcover, Tile.wholeRuns_cons _ (hb.isWhole_of_full hmem hfull) hparts]
  simp only [List.foldl_cons, List.foldl_nil, hb.token_of_full hn (by omega) hfull, Token.lo, htag]

end

end Sys2Proof.Machine

/-! PROOFS. CONVERTER_PAIRING of a run with every element (R163 to R170). -/

namespace Sys2Proof.Machine

/-! ## The clauses of CONVERTER_PAIRING -/

theorem carrier_of_planes {f : Nat} (h : fmtPlanes f ≠ 0) : carrier f = if fmtPlaneSigned f then 10 else 13 := if_neg h

theorem carrier_code_of_planes {f : Nat} (h : fmtPlanes f ≠ 0) :
    BitVec.ofNat 5 (carrier f) = if fmtPlaneSigned f then (10 : Fmt) else 13 := by
  rw [carrier_of_planes h]
  split_ifs <;> rfl

theorem toNat_eq_carrier {f : Nat} {x : Fmt} (h : fmtPlanes f ≠ 0) (hx : x = if fmtPlaneSigned f then 10 else 13) :
    x.toNat = carrier f := by
  rw [carrier_of_planes h, hx]
  split_ifs <;> rfl

theorem qplaneValue_eq (f x : Nat) : qplaneValue f x =
    (max (planeRange f).1 (min (planeRange f).2 (if fmtPlaneSigned f then sval 8 x else (x : Int))) % 2 ^ fmtPlanes f).toNat := by
  rw [qplaneValue, low, planeClamp]
  push_cast
  rfl

section
variable {s : State} {u j : Nat} {q : ConvCmd} {rest : List ConvCmd} (hfocus : s.focus = .event u j)
  (hqueue : (s.tile u).convQ = q :: rest) (hact : q.l.act = .normal) (hpos : 0 < q.l.len) (hall : ∀ i < q.l.len, q.l.has i = true)
include hfocus hqueue hact hpos hall

theorem exec_cvt_of_convertible (hop : q.op = 0xB0) (hconv : convertible q.l.fmt.toNat q.w.fmt.toNat) {s' : Int}
    (hscale : (bits (s.konst u q.w.kidx.toNat) 9 8 = 0 ∧ s' = sval 8 (s.konst u q.w.kidx.toNat)) ∨
      (bits (s.konst u q.w.kidx.toNat) 9 8 = 1 ∧ s' = q.l.scale.toInt) ∨
      (bits (s.konst u q.w.kidx.toNat) 9 8 = 2 ∧ s' = scaleFor (s.ctx q.ctx).mode.toNat q.w.fmt.toNat q.l)) {r : List (Nat × Nat)}
    (hr : r = (List.range q.l.len).map fun i => convertElem q.l.fmt.toNat q.l.scale.toInt q.w.fmt.toNat s'
      (rmOf q.w.mod.toNat (s.ctx q.ctx).mode.toNat) (s.ctx q.ctx).mode.toNat (q.l.elem i)) :
    exec .converterPairing s = .next (Claims.converted (s.dequeued u rest) u q (r.foldl (fun n v => n ||| v.2) 0)
      { q.l with slot := q.slot,
                 fmt := if fmtPlanes q.w.fmt.toNat = 0 then q.w.fmt else if fmtPlaneSigned q.w.fmt.toNat then 10 else 13,
                 scale := BitVec.ofInt 8 s', data := r.map fun v => BitVec.ofNat 64 v.1 }) := by
  have hmask := Token.mask_ne_zero_of_has (hall 0 hpos)
  rw [exec_cvt hfocus hqueue hact hpos hall hop, cvtOut_of_convertible (l := q.operand) hall hconv hscale, State.nodeResult_run,
    Token.emitted_of_normal, carrier_code, hr]
  · rfl
  · exact hact
  · exact hmask

theorem exec_cvt_of_bitPair (hop : q.op = 0xB0) (hsmode : bits (s.konst u q.w.kidx.toNat) 9 8 = 1)
    (hpair : bitPair q.l.fmt.toNat q.w.fmt.toNat = true) :
    exec .converterPairing s = .next (Claims.converted (s.dequeued u rest) u q 0 { q.l with slot := q.slot, fmt := q.w.fmt }) := by
  have hmask := Token.mask_ne_zero_of_has (hall 0 hpos)
  rw [exec_cvt hfocus hqueue hact hpos hall hop, cvtOut_of_bitPair (l := q.operand) hsmode hpair, State.nodeResult_run,
    Token.emitted_of_normal]
  · rfl
  · exact hact
  · exact hmask

theorem exec_scalemx_of_number (hop : q.op = 0xB4) (hsf : (fmtFloat q.l.fmt.toNat || fmtInt q.l.fmt.toNat) = true) :
    exec .converterPairing s = .next (Claims.converted (s.dequeued u rest) u q
      (if (List.range q.l.len).any fun i => elemVal q.l.fmt.toNat (q.l.elem i) q.l.scale.toInt (s.ctx q.ctx).mode.toNat = .snan
        then flagNV else 0)
      { act := .normal, fmt := 8, len := 1, ctx := q.l.ctx, itag := q.l.itag, mask := 1,
        data := [BitVec.ofNat 64 (scaleFor (s.ctx q.ctx).mode.toNat q.w.fmt.toNat q.l % 2 ^ 32).toNat] }) := by
  rw [exec_scalemx hfocus hqueue hact hpos hall hop, scalemxOut_of_full (l := q.operand) hall hpos hsf, State.nodeResult_run,
    Token.emitted_of_normal rfl (by simp), signalFlags_of_full (l := q.operand) hall]
  rfl

theorem exec_qplane_of_room (hop : q.op = 0xB2) (hk : fmtPlanes q.w.fmt.toNat ≠ 0)
    (hroom : q.l.itag.toNat + (fmtPlanes q.w.fmt.toNat + 1) ≤ 2 ^ 32)
    (hfmt : q.l.fmt = if fmtPlaneSigned q.w.fmt.toNat then 10 else 13) :
    exec .converterPairing s = .next (Claims.converted (s.dequeued u rest) u q 0
      { act := .normal, fmt := 11, len := fmtPlanes q.w.fmt.toNat + 1, scale := q.l.scale, ctx := q.l.ctx, itag := q.l.itag,
        mask := fullMask (fmtPlanes q.w.fmt.toNat + 1),
        data := ((List.range (fmtPlanes q.w.fmt.toNat)).map (qplaneElem q.w.fmt.toNat q.l) ++ [q.l.mask.toNat]).map
          fun n => BitVec.ofNat 64 n }) := by
  have hplanes := fmtPlanes_le q.w.fmt.toNat
  have hmask : fullMask (fmtPlanes q.w.fmt.toNat + 1) ≠ fullMask 0 := mt (fullMask_inj (by omega) (by omega)).mp (Nat.succ_ne_zero _)
  rw [exec_qplane hfocus hqueue hact hpos hall hop, qplaneOut_of_full (l := q.operand) hall (toNat_eq_carrier hk hfmt) hroom,
    State.nodeResult_run, Token.emitted_of_normal rfl hmask]
  rfl

theorem exec_qplane_of_wrap (hop : q.op = 0xB2) (hk : fmtPlanes q.w.fmt.toNat ≠ 0)
    (hwrap : 2 ^ 32 < q.l.itag.toNat + (fmtPlanes q.w.fmt.toNat + 1))
    (hfmt : q.l.fmt = if fmtPlaneSigned q.w.fmt.toNat then 10 else 13) :
    exec .converterPairing s = .next (((s.dequeued u rest).nodeFault u { q.l with slot := q.slot } q.slot 11 q.l.itag.toNat 0x0B
      0x05).progressed q.ctx) := by
  have hout : q.outFmt = 11 := by simp [ConvCmd.outFmt, hop]
  rw [exec_qplane hfocus hqueue hact hpos hall hop, qplaneOut_of_wrap (l := q.operand) (toNat_eq_carrier hk hfmt) hwrap, ← hout]
  rfl

/-- A fault of QUNPL gives a FAULT token in the format that its run would have. -/
theorem exec_qunpl_of_bad (hop : q.op = 0xB3) (hk : fmtPlanes q.w.fmt.toNat ≠ 0) {cause sub : Nat}
    (hbad : qunplOut q.w (s.konst u q.w.kidx.toNat % 64) q.operand = .bad cause sub) :
    exec .converterPairing s = .next (((s.dequeued u rest).nodeFault u { q.l with slot := q.slot } q.slot
      (if fmtPlaneSigned q.w.fmt.toNat then 10 else 13) q.l.itag.toNat cause sub).progressed q.ctx) := by
  have hout : q.outFmt = if fmtPlaneSigned q.w.fmt.toNat then 10 else 13 := by
    simp only [ConvCmd.outFmt, hop, carrier_code_of_planes hk]
    rfl
  rw [exec_qunpl hfocus hqueue hact hpos hall hop, hbad, ← hout]
  rfl

/-- QUNPL of every plane changes no scale, so that only its tags can be out of range. -/
theorem exec_qunpl_of_wrap (hop : q.op = 0xB3) (hk : fmtPlanes q.w.fmt.toNat ≠ 0) (hfmt : q.l.fmt = 11)
    (hlen : q.l.len = fmtPlanes q.w.fmt.toNat + 1) (hwrap : 2 ^ 32 < q.l.itag.toNat + s.konst u q.w.kidx.toNat % 64) :
    exec .converterPairing s = .next (((s.dequeued u rest).nodeFault u { q.l with slot := q.slot } q.slot
      (if fmtPlaneSigned q.w.fmt.toNat then 10 else 13) q.l.itag.toNat 0x0B 0x05).progressed q.ctx) := by
  have hscale : q.l.scale.toInt < 2 ^ 7 := BitVec.toInt_lt
  refine exec_qunpl_of_bad hfocus hqueue hact hpos hall hop hk
    (qunplOut_of_wrap (l := q.operand) hfmt hlen (two_le_fmtPlanes hk) le_rfl ?_ hwrap)
  rw [Nat.sub_self]
  simpa [ConvCmd.operand] using Int.le_of_lt_add_one hscale

section
variable {m n : Nat} (hop : q.op = 0xB3) (hn : s.konst u q.w.kidx.toNat % 64 = n) (hfmt : q.l.fmt = 11) (hlen : q.l.len = m + 1)
  (hm : 2 ≤ m) (hk : m ≤ fmtPlanes q.w.fmt.toNat) (hroom : q.l.itag.toNat + n ≤ 2 ^ 32)
  (hscale : q.l.scale.toInt + (fmtPlanes q.w.fmt.toNat - m : Nat) ≤ 127)
include hop hn hfmt hlen hm hk hroom hscale

theorem exec_qunpl_of_planes : exec .converterPairing s = .next (Claims.converted (s.dequeued u rest) u q 0 (Token.emitted
    { act := .normal, fmt := if fmtPlaneSigned q.w.fmt.toNat then 10 else 13, len := n,
      scale := BitVec.ofInt 8 (q.l.scale.toInt + (fmtPlanes q.w.fmt.toNat - m : Nat)), ctx := q.l.ctx, itag := q.l.itag,
      mask := BitVec.ofNat 32 (q.l.elem m % 2 ^ n),
      data := ((List.range n).map (qunplValue q.w.fmt.toNat m q.l)).map fun x => BitVec.ofNat 64 x })) := by
  rw [exec_qunpl hfocus hqueue hact hpos hall hop, hn,
    qunplOut_of_planes (l := q.operand) hall hfmt hlen hm hk hscale hroom, State.nodeResult_run, carrier_code_of_planes (by omega),
    List.map_map]
  rfl

theorem exec_qunpl_of_absent (hzero : q.l.elem m % 2 ^ n = 0) :
    exec .converterPairing s = .next (Claims.converted (s.dequeued u rest) u q 0
      { act := .empty, fmt := if fmtPlaneSigned q.w.fmt.toNat then 10 else 13, len := n,
        scale := BitVec.ofInt 8 (q.l.scale.toInt + (fmtPlanes q.w.fmt.toNat - m : Nat)), ctx := q.l.ctx, itag := q.l.itag }) := by
  rw [exec_qunpl_of_planes hfocus hqueue hact hpos hall hop hn hfmt hlen hm hk hroom hscale, hzero]
  rfl

theorem exec_qunpl_of_present (hmax : n ≤ 32) (hsome : q.l.elem m % 2 ^ n ≠ 0) :
    exec .converterPairing s = .next (Claims.converted (s.dequeued u rest) u q 0
      { act := .normal, fmt := if fmtPlaneSigned q.w.fmt.toNat then 10 else 13, len := n,
        scale := BitVec.ofInt 8 (q.l.scale.toInt + (fmtPlanes q.w.fmt.toNat - m : Nat)), ctx := q.l.ctx, itag := q.l.itag,
        mask := BitVec.ofNat 32 (q.l.elem m % 2 ^ n),
        data := ((List.range n).map (qunplValue q.w.fmt.toNat m q.l)).map fun x => BitVec.ofNat 64 x }) := by
  have hlt : q.l.elem m % 2 ^ n < 2 ^ 32 :=
    Nat.lt_of_lt_of_le (Nat.mod_lt _ (Nat.two_pow_pos _)) (Nat.pow_le_pow_right (by decide) hmax)
  have hmask : BitVec.ofNat 32 (q.l.elem m % 2 ^ n) ≠ 0 := fun h =>
    hsome ((Nat.mod_eq_of_lt hlt).symm.trans (by simpa using congrArg BitVec.toNat h))
  rw [exec_qunpl_of_planes hfocus hqueue hact hpos hall hop hn hfmt hlen hm hk hroom hscale, Token.emitted_of_normal rfl hmask]

end

end

theorem State.blocked_dequeued (s : State) (u : Nat) (rest : List ConvCmd) (c slot base : Nat) (fmt : Fmt) (scale : BitVec 8)
    (vs : List Nat) :
    Claims.Blocked ((s.dequeued u rest).tile u) c slot base fmt scale vs ↔ Claims.Blocked (s.tile u) c slot base fmt scale vs := by
  simp [Claims.Blocked, State.dequeued, State.updTile_eq]

section
variable {s : State} {u j : Nat} {q : ConvCmd} {rest : List ConvCmd} (hfocus : s.focus = .event u j)
  (hqueue : (s.tile u).convQ = q :: rest) (hact : q.l.act = .normal) (hpos : 0 < q.l.len) (hall : ∀ i < q.l.len, q.l.has i = true)
  {n base : Nat} {pre : List Nat} (hop : q.op = 0xB1) (hk : s.konst u q.w.kidx.toNat % 64 = n) (hn : n ≤ 32) (hbase : base % n = 0)
  (hpre : pre.length < n) (hlo : q.l.itag.toNat = base + pre.length) (hlen : q.l.len ≤ n) (hctx : q.l.ctx = q.ctx)
  (hblocked : Claims.Blocked (s.tile u) q.ctx q.slot base q.l.fmt q.l.scale pre)
include hfocus hqueue hact hpos hall hop hk hn hbase hpre hlo hlen hctx hblocked

theorem exec_reblk_of_blocked :
    let z := s.dequeued u rest
    let vs := pre ++ (List.range q.l.len).map q.l.elem
    ∃ y : Tile, { y with rebufs := [] } = { z.tile u with rebufs := [] } ∧
      (vs.length < n → Claims.Blocked y q.ctx q.slot base q.l.fmt q.l.scale vs ∧
        exec .converterPairing s = .next ((z.setTile u y).progressed q.ctx)) ∧
      (n ≤ vs.length → Claims.Blocked y q.ctx q.slot (base + n) q.l.fmt q.l.scale (vs.drop n) ∧
        exec .converterPairing s = .next (((z.setTile u y).emit u q.slot q.ctx base (toAll ((z.setTile u y).slotTargets u q.slot)
          { act := .normal, fmt := q.l.fmt, len := n, scale := q.l.scale, ctx := q.l.ctx, itag := BitVec.ofNat 32 base,
            mask := fullMask n, data := (vs.take n).map (BitVec.ofNat 64) })).progressed q.ctx)) := by
  intro z vs
  have hvs : vs.length = pre.length + q.l.len := by simp [vs]
  have hz : Claims.Blocked (z.tile u) q.operand.ctx q.operand.slot base q.operand.fmt q.operand.scale pre :=
    (State.blocked_dequeued ..).mpr (hctx ▸ hblocked)
  rw [exec_reblk hfocus hqueue hact hpos hall hop, hk, ← hctx]
  rcases Nat.lt_or_ge vs.length n with hlt | hge
  · obtain ⟨y, hy, hyblocked, hreblock⟩ :=
      State.reblock_part (a := q.operand) hact hall hpos hn hbase hpre hlo hlen hz (some q.id) (hvs ▸ hlt)
    exact ⟨y, hy, fun _ => ⟨hyblocked, congrArg _ (congrArg (State.progressed · q.l.ctx) hreblock)⟩,
      fun h => absurd hlt (Nat.not_lt.mpr h)⟩
  · obtain ⟨y, hy, hyblocked, hreblock⟩ :=
      State.reblock_whole (a := q.operand) hact hall hpos hn hbase hpre hlo hlen hz (some q.id) (hvs ▸ hge)
    exact ⟨y, hy, fun h => absurd h (Nat.not_lt.mpr hge),
      fun _ => ⟨hyblocked, congrArg _ (congrArg (State.progressed · q.l.ctx) hreblock)⟩⟩

end

theorem bitPair_of_mem {sf df : Nat} (h : (sf, df) ∈ [(29, 30), (28, 30), (30, 29), (30, 28), (11, 31), (8, 31), (31, 11), (31, 8)]) :
    bitPair sf df = true :=
  (by decide : ∀ p ∈ [(29, 30), (28, 30), (30, 29), (30, 28), (11, 31), (8, 31), (31, 11), (31, 8)], bitPair p.1 p.2 = true) _ h

/-- Settles O33: the node's work on a run with every element, clause by clause. -/
theorem converterResults : Obligations.ConverterResults := by
  intro s u j q rest hfocus hqueue hact hpos hlen hall l z sf df mode kst full fault bits8 hconvertible
  refine ⟨?cvt, ?bitPair, ?scale, ?scalemx, ?qplane, ?qunpl, ?planes, ?qplaneWrap, ?qunplWrap, ?reblk⟩
  case cvt => exact fun s' hop hconv hscale => exec_cvt_of_convertible hfocus hqueue hact hpos hall hop hconv hscale rfl
  case bitPair => exact fun hop hsmode hpair => exec_cvt_of_bitPair hfocus hqueue hact hpos hall hop hsmode (bitPair_of_mem hpair)
  case scale => exact fun hconv => isScale_scaleFor mode hall hconv.2
  case scalemx => exact fun hop hconv => exec_scalemx_of_number hfocus hqueue hact hpos hall hop hconv.1
  case qplane =>
    intro hop hk hroom hfmt v clamped
    refine ⟨(List.range (fmtPlanes df)).map (qplaneElem df l), by simp,
      exec_qplane_of_room hfocus hqueue hact hpos hall hop hk hroom hfmt, fun k hkp i _ => ?_⟩
    have helem : ((List.range (fmtPlanes df)).map (qplaneElem df l)).getD k 0 = qplaneElem df l k := by simp [hkp]
    exact helem ▸ (testBit_qplaneElem df l k i).trans (by rw [qplaneValue_eq])
  case qunpl =>
    intro m hop hfmt hlen hm hk hn hn32 hroom hscale out
    refine ⟨exec_qunpl_of_absent hfocus hqueue hact hpos hall hop rfl hfmt hlen hm hk hroom hscale, fun hsome =>
      ⟨(List.range (kst % 64)).map (qunplValue df m l), by simp,
        exec_qunpl_of_present hfocus hqueue hact hpos hall hop rfl hfmt hlen hm hk hroom hscale hn32 hsome, fun i hi => ?_⟩⟩
    have hget : ((List.range (kst % 64)).map (qunplValue df m l)).getD i 0 = qunplValue df m l i := by simp [hi]
    exact hget ▸ ⟨qunplValue_lt df l i (hk.trans (fmtPlanes_le df)), fun b hb => testBit_qunplValue df l i (by omega) hb⟩
  case planes =>
    exact fun hop hk hfmt hbad => exec_qunpl_of_bad hfocus hqueue hact hpos hall hop hk (qunplOut_of_length (l := q.operand) _ hfmt hbad)
  case qplaneWrap => exact fun hop hk hwrap hfmt => exec_qplane_of_wrap hfocus hqueue hact hpos hall hop hk hwrap hfmt
  case qunplWrap => exact fun hop hk hfmt hlen hwrap => exec_qunpl_of_wrap hfocus hqueue hact hpos hall hop hk hfmt hlen hwrap
  case reblk =>
    intro n base pre hop hk _ hn hbase hpre hlo hlen _ hctx hblocked
    exact exec_reblk_of_blocked hfocus hqueue hact hpos hall hop hk hn hbase hpre hlo hlen hctx hblocked

end Sys2Proof.Machine

/-! PROOFS. The result of an element-wise firing on operands that hold every element (R145 to R148, R157): what a row of the
executor computes at each tag is what a row of the claims says. -/

namespace Sys2Proof.Machine

/-! ## A firing on whole operands -/

/-- Without absences, the elements that a firing computes on are those of its operands. -/
theorem State.withLanes_eq_lanes {s : State} {t : Nat} {p : Pairing} {w : DWord} {two : Bool} {out : Fmt} {held : Nat}
    {ok : Token → Token → Option (Nat × Nat)} (hl : Claims.Full p.left p)
    (hr : two = true → w.kr = 0 → Claims.Full p.right p) (hok : ok p.left p.right = none)
    (body : State → List (Nat × BitVec 18) → Lanes → State) (each : Bool) :
    s.withLanes t p w two out held ok body each =
      body (s.hold t held) (s.targets t w.nt w.t1 w.t0) (Claims.lanes s t p w two) :=
  State.withLanes_full s t p w two out held ok body each hl.1 hl.2 hr hok

/-- Element by element, on elements that are all there: the values, and the flags from the last tag to the first. -/
theorem mapLanes_present {α : Type} (g : Nat → Nat → Nat × Nat) (x y : α → Nat) (l : List α) :
    mapLanes (fun a b => (some (g a b).1, (g a b).2)) (l.map fun j => some (x j)) (l.map fun j => some (y j)) =
      ((l.map fun j => (g (x j) (y j)).1).map some, (l.map fun j => g (x j) (y j)).foldr (fun v n => v.2 ||| n) 0) := by
  induction l with
  | nil => rfl
  | cons j l ih => simp [mapLanes, ih]

/-- What a row of the claims says of two elements of a firing. -/
def elementAt (e : Claims.Element) (z : Lanes) (a b : Nat) : Nat × Nat :=
  e.value z.mode z.sl (if e.w.kr = 1 then 0 else z.sr) z.k a b

/-- The operation `o` has the result format and the class of `e`, and computes its elements in every firing of the given kind. -/
structure ValuedBy (e : Claims.Element) (o : LaneOp) (kind : Lanes → Prop) : Prop where
  two : o.two = e.two
  out : o.out = e.out
  cls : o.cls = e.cls
  value : ∀ z, kind z → z.ks = 0 → ∀ a b, o.f z a b = (some (elementAt e z a b).1, (elementAt e z a b).2)

/-- An element-wise firing on whole operands that pass its checks holds the tile, ORs its flags and sends its run. -/
theorem State.lanewise_eq_emits {s : State} {t : Nat} {p : Pairing} {e : Claims.Element} {o : LaneOp} {sc : Int}
    {kind : Lanes → Prop} (ho : ValuedBy e o kind) (hkind : kind (Claims.lanes s t p e.w e.two)) (hpos : 0 < p.len) (hl : Claims.Full p.left p)
    (hr : e.two = true → e.w.kr = 0 → Claims.Full p.right p) (hok : o.ok p.left p.right = none)
    (hscale : o.rule.apply p.left.scale.toInt (if e.two = true ∧ e.w.kr = 0 then some p.right.scale.toInt else none) = some sc) :
    let z := Claims.lanes s t p e.w e.two
    let r := (List.range p.len).map fun j =>
      elementAt e z (p.left.elem j) (if e.two then Claims.rightElem s t p e.w j else 0)
    s.lanewise t p e.w o = Claims.emits s t p e.w (e.cls.cycles e.w.fmt.toNat p.len) (r.foldr (fun x n => x.2 ||| n) 0)
      (Claims.fullRun p e.out sc (r.map fun x => x.1)) := by
  intro z r
  have hrule : o.rule.apply z.sl (if (e.two && decide (e.w.kr = 0)) = true then some z.sr else none) = some sc := by
    simp only [Bool.and_eq_true, decide_eq_true_eq]
    exact hscale
  have hf : o.f z = fun a b => (some (elementAt e z a b).1, (elementAt e z a b).2) :=
    funext fun a => funext fun b => ho.value z hkind rfl a b
  have hvals : mapLanes (o.f z) z.x z.y = ((r.map fun x => x.1).map some, r.foldr (fun x n => x.2 ||| n) 0) := by
    rw [hf]
    refine (mapLanes_present _ _ _ _).trans ?_
    simp [r]
  have hne : r.map (fun x => x.1) ≠ [] := by simpa [r] using hpos.ne'
  rw [State.lanewise, ho.two, ho.out, ho.cls, State.withLanes_eq_lanes hl hr hok]
  simp only [z, r, hrule, hvals]
  exact State.emitRes_eq_fullRun rfl hne _

/-- A row that fires by an operation with its elements computes them. -/
theorem computes_of_firesBy {i : Instr} {e : Claims.Element} {o : LaneOp} (hf : FiresBy i e o)
    (ho : ValuedBy e o fun _ => e.fmts e.w.fmt.toNat = true) (hk : i = .agen e.w → e.w.kr = 0) : Claims.Computes i e := by
  intro s t p sc hfocus hpos _ hfmts hl hleft hr hscale r
  have hok := hf.ok p.left p.right hleft (fun htwo hkr => (hr htwo hkr).2) hk
  rw [hf.runs, firing_next _ hfocus]
  exact congrArg _ (State.lanewise_eq_emits ho hfmts hpos hl
    (fun htwo hkr => (hr htwo hkr).1) hok ((hf.scale _ _).trans hscale))

end Sys2Proof.Machine

/-! PROOFS. Integer elements (R149, R150, R157): results modulo the width, from the integers that elements stand for. -/

namespace Sys2Proof.Machine

/-! ## Integers of a format -/

theorem fmtInt_mem {f : Nat} (h : fmtInt f = true) : f ∈ [8, 9, 10, 11, 12, 13, 28, 29] := by
  have h : (8 ≤ f ∧ f ≤ 13) ∨ f = 28 ∨ f = 29 := by simpa [fmtInt, or_assoc] using h
  simp only [List.mem_cons, List.not_mem_nil, or_false]
  omega

theorem eight_le_fmtBits {f : Nat} (h : fmtInt f = true) : 8 ≤ fmtBits f :=
  (by decide : ∀ f ∈ [8, 9, 10, 11, 12, 13, 28, 29], 8 ≤ fmtBits f) f (fmtInt_mem h)

theorem low_eq_wrap (f : Nat) (z : Int) : low (fmtBits f) z = Claims.wrap f z := by
  simp [low, Claims.wrap]

theorem ival_eq_int (f x : Nat) : ival f x = Claims.int f (x % 2 ^ fmtBits f) := by
  unfold ival sval Claims.int
  split_ifs with hs hlt <;> simp_all

section
variable {f x y : Nat}

/-- An element's integer is the element, up to multiples of the width. -/
theorem int_modEq (f x : Nat) : Claims.int f x ≡ x [ZMOD 2 ^ fmtBits f] := by
  unfold Claims.int
  split
  · exact Int.sub_modulus_modEq_iff.mpr rfl
  · rfl

theorem wrap_congr {a b : Int} (h : a ≡ b [ZMOD 2 ^ fmtBits f]) : Claims.wrap f a = Claims.wrap f b := congrArg Int.toNat h

theorem wrap_natCast (f n : Nat) : Claims.wrap f n = n % 2 ^ fmtBits f := by
  have h : (n : Int) % 2 ^ fmtBits f = (n % 2 ^ fmtBits f : Nat) := by push_cast; rfl
  rw [Claims.wrap, h, Int.toNat_natCast]

/-- An integer that is a number up to multiples of the width has that number's low bits. -/
theorem wrap_of_modEq {z : Int} {n : Nat} (h : z ≡ n [ZMOD 2 ^ fmtBits f]) : Claims.wrap f z = n % 2 ^ fmtBits f :=
  (wrap_congr h).trans (wrap_natCast f n)

theorem wrap_int (hx : x < 2 ^ fmtBits f) : Claims.wrap f (Claims.int f x) = x :=
  (wrap_of_modEq (int_modEq f x)).trans (Nat.mod_eq_of_lt hx)

/-- The difference of an integer and an element, taken within the width. -/
theorem sub_modEq {a : Int} {m : Nat} (ha : a ≡ m [ZMOD 2 ^ fmtBits f]) (hy : y < 2 ^ fmtBits f) :
    a - Claims.int f y ≡ (m + 2 ^ fmtBits f - y : Nat) [ZMOD 2 ^ fmtBits f] := by
  have hcast : ((m + 2 ^ fmtBits f - y : Nat) : Int) = m - y + 2 ^ fmtBits f := by
    rw [Nat.cast_sub (by omega)]
    push_cast
    ring
  rw [hcast]
  exact (ha.sub (int_modEq f y)).trans (Int.add_modulus_modEq_iff.mpr rfl).symm

/-! ## Arithmetic (R149, R150) -/

theorem wrap_int_add (f x y : Nat) : Claims.wrap f (Claims.int f x + Claims.int f y) = (x + y) % 2 ^ fmtBits f :=
  wrap_of_modEq (by simpa using (int_modEq f x).add (int_modEq f y))

theorem wrap_int_mul (f x y : Nat) : Claims.wrap f (Claims.int f x * Claims.int f y) = x * y % 2 ^ fmtBits f :=
  wrap_of_modEq (by simpa using (int_modEq f x).mul (int_modEq f y))

theorem wrap_int_sub (x : Nat) (hy : y < 2 ^ fmtBits f) :
    Claims.wrap f (Claims.int f x - Claims.int f y) = (x + 2 ^ fmtBits f - y) % 2 ^ fmtBits f :=
  wrap_of_modEq (sub_modEq (int_modEq f x) hy)

theorem wrap_zero_sub_int (hx : x < 2 ^ fmtBits f) : Claims.wrap f (0 - Claims.int f x) = (2 ^ fmtBits f - x) % 2 ^ fmtBits f := by
  simpa using wrap_of_modEq (sub_modEq (Int.ModEq.refl ((0 : Nat) : Int)) hx)

theorem int_zero (f : Nat) : Claims.int f 0 = 0 := if_neg fun h => absurd h.2 (Nat.not_le.mpr (Nat.two_pow_pos _))

theorem int_inj (hx : x < 2 ^ fmtBits f) (hy : y < 2 ^ fmtBits f) : Claims.int f x = Claims.int f y ↔ x = y :=
  ⟨fun h => (wrap_int hx).symm.trans ((congrArg _ h).trans (wrap_int hy)), congrArg _⟩

theorem int_eq_zero (hx : x < 2 ^ fmtBits f) : Claims.int f x = 0 ↔ x = 0 := by
  rw [← int_zero f, int_inj hx (Nat.two_pow_pos _)]

theorem wrap_neg_one (f : Nat) : Claims.wrap f (-1) = 2 ^ fmtBits f - 1 := by
  have hpos := Nat.two_pow_pos (fmtBits f)
  have hmod : (-1 : Int) ≡ (2 ^ fmtBits f - 1 : Nat) [ZMOD 2 ^ fmtBits f] := by
    rw [Nat.cast_sub hpos]
    push_cast
    exact Int.modEq_iff_dvd.mpr (by simp)
  exact (wrap_of_modEq hmod).trans (Nat.mod_eq_of_lt (by omega))

theorem wrap_intDiv (x : Nat) (hy : y < 2 ^ fmtBits f) : Claims.wrap f (intDiv (Claims.int f x) (Claims.int f y)) =
    if y = 0 then 2 ^ fmtBits f - 1 else Claims.wrap f ((Claims.int f x).tdiv (Claims.int f y)) := by
  rw [intDiv, apply_ite (Claims.wrap f), wrap_neg_one, if_congr (int_eq_zero hy) rfl rfl]

theorem wrap_intRem (hx : x < 2 ^ fmtBits f) (hy : y < 2 ^ fmtBits f) : Claims.wrap f (intRem (Claims.int f x) (Claims.int f y)) =
    if y = 0 then x else Claims.wrap f ((Claims.int f x).tmod (Claims.int f y)) := by
  rw [intRem, apply_ite (Claims.wrap f), wrap_int hx, if_congr (int_eq_zero hy) rfl rfl, Int.tmod_def]

theorem wrap_min (hx : x < 2 ^ fmtBits f) (hy : y < 2 ^ fmtBits f) :
    Claims.wrap f (min (Claims.int f x) (Claims.int f y)) = if Claims.int f x ≤ Claims.int f y then x else y := by
  rw [min_def, apply_ite (Claims.wrap f), wrap_int hx, wrap_int hy]

theorem wrap_max (hx : x < 2 ^ fmtBits f) (hy : y < 2 ^ fmtBits f) :
    Claims.wrap f (max (Claims.int f x) (Claims.int f y)) = if Claims.int f x ≤ Claims.int f y then y else x := by
  rw [max_def, apply_ite (Claims.wrap f), wrap_int hx, wrap_int hy]

theorem wrap_natAbs (hx : x < 2 ^ fmtBits f) : Claims.wrap f ((Claims.int f x).natAbs : Int) =
    if Claims.int f x < 0 then 2 ^ fmtBits f - x else x := by
  split
  · next hneg =>
    have hzero : x ≠ 0 := fun h => by simp [h, int_zero] at hneg
    rw [Int.ofNat_natAbs_of_nonpos hneg.le, ← zero_sub, wrap_zero_sub_int hx]
    exact Nat.mod_eq_of_lt (by omega)
  · next hneg => rw [Int.natAbs_of_nonneg (not_lt.mp hneg), wrap_int hx]

theorem clampTo_eq (r : Int × Int) (z : Int) : clampTo r z = max r.1 (min r.2 z) := congrArg _ (min_comm ..)

theorem intCond_iff (m : BitVec 3) (a b : Int) : intCond m.toNat a b = true ↔
    (m = 0 ∧ a = b) ∨ (m = 1 ∧ a ≠ b) ∨ (m = 2 ∧ a < b) ∨ (m = 3 ∧ a ≤ b) ∨ (m = 4 ∧ b < a) ∨ (m = 5 ∧ b ≤ a) := by
  have hm : ∀ m : BitVec 3, m = 0 ∨ m = 1 ∨ m = 2 ∨ m = 3 ∨ m = 4 ∨ m = 5 ∨ m = 6 ∨ m = 7 := by decide
  rcases hm m with rfl | rfl | rfl | rfl | rfl | rfl | rfl | rfl <;> simp [intCond]

/-- CMP gives 1 or 0, which every integer format holds. -/
theorem wrap_one_zero (hf : fmtInt f = true) (c : Prop) [Decidable c] : Claims.wrap f (if c then 1 else 0) = if c then 1 else 0 := by
  have h1 : 1 < 2 ^ fmtBits f := Nat.one_lt_two_pow (by have := eight_le_fmtBits hf; omega)
  rw [apply_ite (Claims.wrap f)]
  exact if_congr Iff.rfl ((wrap_natCast f 1).trans (Nat.mod_eq_of_lt h1)) (wrap_natCast f 0)

end

/-! ## The arithmetic instructions -/

section
variable {i : Instr} {w : DWord} {rule : ScaleRule} {scale : Int → Option Int → Option Int} {cls : Hold}

/-- A binary row of the executor computes its row of the claims where the exact results agree at the width. -/
theorem computes_intTwo {f : Int → Int → Int} {g : Nat → Nat → Nat → Nat}
    (hruns : ∀ s, exec i s = firing s fun t p => s.lanewise t p w (intOp w rule f cls)) (hscale : ∀ l r, rule.apply l r = scale l r)
    (hval : fmtInt w.fmt.toNat = true → ∀ k x y, x < 2 ^ fmtBits w.fmt.toNat → y < 2 ^ fmtBits w.fmt.toNat →
      Claims.wrap w.fmt.toNat (f (Claims.int w.fmt.toNat x) (Claims.int w.fmt.toNat y)) = g k x y)
    (hk : i = .agen w → w.kr = 0) : Claims.Computes i (Claims.intTwo w scale g cls) :=
  computes_of_firesBy (.of_sameFmt hruns rfl hscale (fun _ => rfl) rfl (fun _ => rfl) rfl)
    { two := rfl, out := rfl, cls := rfl
      value := fun z hint _ a b => by
        simp only [intOp, elementAt, Claims.intTwo, low_eq_wrap, ival_eq_int]
        rw [hval hint z.k _ _ (Nat.mod_lt _ (Nat.two_pow_pos _)) (Nat.mod_lt _ (Nat.two_pow_pos _))] } hk

theorem computes_intOne {f : Int → Int} {g : Nat → Nat → Nat}
    (hruns : ∀ s, exec i s = firing s fun t p => s.lanewise t p w (intOp1 w rule f)) (hscale : ∀ l r, rule.apply l r = scale l r)
    (hval : ∀ k x, x < 2 ^ fmtBits w.fmt.toNat → Claims.wrap w.fmt.toNat (f (Claims.int w.fmt.toNat x)) = g k x)
    (hk : i = .agen w → w.kr = 0) : Claims.Computes i (Claims.intOne w scale g) :=
  computes_of_firesBy (.of_left hruns rfl hscale (fun _ => rfl) rfl)
    { two := rfl, out := rfl, cls := rfl
      value := fun z _ _ a b => by
        simp only [intOp1, elementAt, Claims.intOne, low_eq_wrap, ival_eq_int]
        rw [hval z.k _ (Nat.mod_lt _ (Nat.two_pow_pos _))] } hk

end

/-- MADK adds the constant to the exact product, so that its own width decides. -/
theorem computes_madk (w : DWord) : Claims.Computes (.madk w)
    (Claims.intTwo w (Claims.scSum 0) (fun k x y => (x * y + k) % 2 ^ fmtBits w.fmt.toNat) .multiply) :=
  computes_of_firesBy (.of_sameFmt (o := laneMadk w) (fun _ => rfl) rfl (ScaleRule.apply_sum 0) (fun _ => rfl) rfl (fun _ => rfl) rfl)
    { two := rfl, out := rfl, cls := rfl
      value := fun z _ _ a b => by
        have hk : Claims.int w.fmt.toNat (z.k % 2 ^ fmtBits w.fmt.toNat) ≡ z.k [ZMOD 2 ^ fmtBits w.fmt.toNat] :=
          (int_modEq _ _).trans (by push_cast; exact Int.mod_modEq _ _)
        have hval := ((int_modEq w.fmt.toNat (a % 2 ^ fmtBits w.fmt.toNat)).mul
          (int_modEq w.fmt.toNat (b % 2 ^ fmtBits w.fmt.toNat))).add hk
        simp only [laneMadk, elementAt, Claims.intTwo, low_eq_wrap, ival_eq_int]
        rw [wrap_of_modEq (by exact_mod_cast hval)] } nofun

theorem computes_agen (w : DWord) {e : Claims.Element} (h : Claims.arithmetic (.agen w) = some e) (hk : w.kr = 0) :
    Claims.Computes (.agen w) e :=
  computes_of_firesBy (.agen w h) (by
    cases h
    exact { two := rfl, out := rfl, cls := rfl
            value := fun z _ _ a b => by
              simp only [laneAgen, elementAt, ival_eq_int, low]
              norm_num }) fun _ => by cases h; exact hk

theorem integerArithmetic : Claims.IntegerArithmetic := by
  intro i e h hk
  cases i
  case add => cases h; exact computes_intTwo (fun _ => rfl) ScaleRule.apply_eq (fun _ _ x y _ _ => wrap_int_add _ x y) nofun
  case sub => cases h; exact computes_intTwo (fun _ => rfl) ScaleRule.apply_eq (fun _ _ x _ _ hy => wrap_int_sub x hy) nofun
  case mul => cases h; exact computes_intTwo (fun _ => rfl) (ScaleRule.apply_sum _) (fun _ _ x y _ _ => wrap_int_mul _ x y) nofun
  case mulh =>
    cases h
    exact computes_intTwo (fun _ => rfl) (ScaleRule.apply_sum _) (fun _ _ x y _ _ => by push_cast; rfl) nofun
  case div => cases h; exact computes_intTwo (fun _ => rfl) ScaleRule.apply_diff (fun _ _ x _ _ hy => wrap_intDiv x hy) nofun
  case rem => cases h; exact computes_intTwo (fun _ => rfl) ScaleRule.apply_left (fun _ _ _ _ hx hy => wrap_intRem hx hy) nofun
  case min => cases h; exact computes_intTwo (fun _ => rfl) ScaleRule.apply_eq (fun _ _ _ _ hx hy => wrap_min hx hy) nofun
  case max => cases h; exact computes_intTwo (fun _ => rfl) ScaleRule.apply_eq (fun _ _ _ _ hx hy => wrap_max hx hy) nofun
  case abs => cases h; exact computes_intOne (fun _ => rfl) ScaleRule.apply_left (fun _ _ hx => wrap_natAbs hx) nofun
  case neg => cases h; exact computes_intOne (fun _ => rfl) ScaleRule.apply_left (fun _ _ hx => wrap_zero_sub_int hx) nofun
  case cmp w =>
    cases h
    refine computes_intTwo (fun _ => rfl) ScaleRule.apply_eqZero (fun hint _ x y _ _ => ?_) nofun
    rw [wrap_one_zero hint]
    exact if_congr (intCond_iff ..) rfl rfl
  case adds | subs => cases h; exact computes_intTwo (fun _ => rfl) ScaleRule.apply_eq (fun _ _ _ _ _ _ => by rw [clampTo_eq]) nofun
  case madk w => cases h; exact computes_madk w
  case agen w => exact computes_agen w h (hk w rfl)
  all_goals cases h

end Sys2Proof.Machine

/-! PROOFS. Bits of elements (R149, R157): logic, shifts, counts and fields at the width of the format. -/

namespace Sys2Proof.Machine

/-! ## Logic and shifts (R149) -/

theorem flip_lt (n x : Nat) : flip n x < 2 ^ n := by
  have hpos := Nat.two_pow_pos n
  rw [flip]
  omega

theorem shlBits_mod (n x a : Nat) : shlBits n x a % 2 ^ n = if n ≤ a then 0 else x * 2 ^ a % 2 ^ n := by
  rw [shlBits, apply_ite (· % 2 ^ n), Nat.zero_mod]

theorem shrBits_mod {n x : Nat} (hx : x < 2 ^ n) (a : Nat) : shrBits n x a % 2 ^ n = if n ≤ a then 0 else x / 2 ^ a := by
  rw [shrBits, apply_ite (· % 2 ^ n), Nat.zero_mod, Nat.mod_eq_of_lt ((Nat.div_le_self ..).trans_lt hx)]

theorem sarBits_mod (n x a : Nat) : sarBits n x a % 2 ^ n = ((sval n x / 2 ^ min a (n - 1)) % 2 ^ n).toNat := by
  have hpos : (0 : Int) < 2 ^ n := by positivity
  have hlow : low n (sval n x / (2 ^ min a (n - 1) : Nat)) = ((sval n x / 2 ^ min a (n - 1)) % 2 ^ n).toNat := by
    rw [low]
    push_cast
    rfl
  rw [sarBits, hlow]
  refine Nat.mod_eq_of_lt ?_
  have hlt := Int.emod_lt_of_pos (sval n x / 2 ^ min a (n - 1)) hpos
  zify
  omega

/-- The bits that leave a rotation at the top come in below the others. -/
theorem rolBits_mod {n x : Nat} (hx : x < 2 ^ n) (hn : 0 < n) (a : Nat) :
    rolBits n x a % 2 ^ n = x * 2 ^ (a % n) % 2 ^ n + x / 2 ^ (n - a % n) := by
  have hr : a % n < n := Nat.mod_lt _ hn
  have hsplit : 2 ^ n = 2 ^ (n - a % n) * 2 ^ (a % n) := by rw [← Nat.pow_add]; congr 1; omega
  have hlow : x / 2 ^ (n - a % n) < 2 ^ (a % n) := Nat.div_lt_of_lt_mul (hsplit ▸ hx)
  have hhigh : x * 2 ^ (a % n) % 2 ^ n = x % 2 ^ (n - a % n) * 2 ^ (a % n) := by rw [hsplit, Nat.mul_mod_mul_right]
  have hrem : x % 2 ^ (n - a % n) + 1 ≤ 2 ^ (n - a % n) := Nat.mod_lt _ (Nat.two_pow_pos _)
  have hfit : x * 2 ^ (a % n) % 2 ^ n + x / 2 ^ (n - a % n) < 2 ^ n := by
    have := Nat.mul_le_mul_right (2 ^ (a % n)) hrem
    rw [Nat.add_mul, one_mul, ← hsplit] at this
    omega
  rw [rolBits, ← Nat.mod_add_mod, Nat.mod_eq_of_lt hfit]

/-! ## Counts (R149) -/

theorem clz_eq (n v : Nat) : clz n v = if v % 2 ^ n = 0 then n else n - 1 - Nat.log2 (v % 2 ^ n) := by
  induction n with
  | zero => simp [clz, Nat.mod_one]
  | succ n ih =>
    have hpos := Nat.two_pow_pos n
    have hlt := Nat.mod_lt v hpos
    rcases Nat.mod_two_eq_zero_or_one (v / 2 ^ n) with hbit | hbit
    · rw [clz, Nat.mod_pow_succ, hbit, ih]
      by_cases hzero : v % 2 ^ n = 0
      · simp [hzero]
      · have hlog : Nat.log2 (v % 2 ^ n) < n := (Nat.log2_lt hzero).mpr hlt
        simp only [Nat.mul_zero, Nat.add_zero, hzero, if_false]
        simp
        omega
    · have hlog : Nat.log2 (v % 2 ^ n + 2 ^ n) = n := (Nat.log2_eq_iff (by omega)).mpr ⟨by omega, by rw [Nat.pow_succ]; omega⟩
      rw [clz, Nat.mod_pow_succ, hbit, Nat.mul_one, hlog]
      simp

theorem popcount_eq_countP (n v : Nat) : popcount n v = (List.range n).countP fun i => v.testBit i := by
  induction n generalizing v with
  | zero => rfl
  | succ n ih =>
    rw [popcount, ih, List.range_succ_eq_map, List.countP_cons, List.countP_map, Nat.add_comm]
    congr 1
    · simp [Function.comp_def, Nat.testBit_succ]
    · rw [Nat.testBit_zero]
      rcases Nat.mod_two_eq_zero_or_one v with h | h <;> simp [h]

theorem popcount_mod (n v : Nat) : popcount n v = (List.range n).countP fun i => (v % 2 ^ n).testBit i := by
  rw [popcount_eq_countP]
  exact List.countP_congr fun i hi => by simp [Nat.testBit_mod_two_pow, List.mem_range.mp hi]

/-! ## Fields (R149) -/

theorem low_low_mod {n m : Nat} (h : n ≤ m) (z : Int) : low m z % 2 ^ n = low n z := by
  have hpos : (0 : Int) ≤ z % (2 ^ m : Nat) := Int.emod_nonneg _ (by positivity)
  have hdvd : ((2 ^ n : Nat) : Int) ∣ (2 ^ m : Nat) := by exact_mod_cast Nat.pow_dvd_pow 2 h
  zify
  rw [low, low, Int.toNat_of_nonneg hpos, Int.toNat_of_nonneg (Int.emod_nonneg _ (by positivity))]
  exact_mod_cast Int.emod_emod_of_dvd z hdvd

theorem sval_of_testBit {w v : Nat} (hv : v < 2 ^ w) (htop : v.testBit (w - 1) = true) : sval w v = v - (2 ^ w : Nat) := by
  have hge : 2 ^ (w - 1) ≤ v := Nat.ge_two_pow_of_testBit htop
  simp only [sval, Nat.mod_eq_of_lt hv, if_neg (Nat.not_lt.mpr hge)]

/-- BFX's field, at the width of the format: extended by its own top bit where K[16] says so. -/
theorem bitField_mod {n wid v : Nat} (hn : n ≤ 64) (k x : Nat) (hwid : wid = k / 2 ^ 8 % 2 ^ 7)
    (hv : v = x / 2 ^ (k % 2 ^ 6) % 2 ^ wid) : bitField k x % 2 ^ n =
      if k.testBit 16 ∧ 0 < wid ∧ v.testBit (wid - 1) then (((v : Int) - (2 ^ wid : Nat)) % (2 ^ n : Nat)).toNat
      else v % 2 ^ n := by
  have hlsb : bits k 5 0 = k % 2 ^ 6 := by simp [bits]
  have hbits : bits k 14 8 = wid := by simp [bits, hwid]
  have hlt : v < 2 ^ wid := hv ▸ Nat.mod_lt _ (Nat.two_pow_pos _)
  have htop : v.testBit (wid - 1) = true → 0 < wid := by
    intro h
    by_contra hzero
    have hwid : wid = 0 := by omega
    have hv : v = 0 := by simpa [hwid] using hlt
    simp [hv] at h
  have hfield : bitField k x = if k.testBit 16 && v.testBit (wid - 1) then low 64 (sval wid v) else v := by
    simp only [bitField, hlsb, hbits, bit_eq_testBit, ← hv]
  rw [hfield, apply_ite (· % 2 ^ n)]
  by_cases h : k.testBit 16 = true ∧ v.testBit (wid - 1) = true
  · rw [if_pos (by simpa using h), if_pos ⟨h.1, htop h.2, h.2⟩, low_low_mod hn, sval_of_testBit hlt h.2, low]
  · rw [if_neg (by simpa using h), if_neg fun hc => h ⟨hc.1, hc.2.2⟩]

/-! ## The bit instructions -/

section
variable {i : Instr} {w : DWord}

theorem computes_bitOp {f g : Nat → Nat → Nat} (hruns : ∀ s, exec i s = firing s fun t p => s.lanewise t p w (bitOp w f))
    (hval : ∀ a b, f a b % 2 ^ fmtBits w.fmt.toNat = g (a % 2 ^ fmtBits w.fmt.toNat) (b % 2 ^ fmtBits w.fmt.toNat))
    (hk : i = .agen w → w.kr = 0) : Claims.Computes i (Claims.intTwo w Claims.scLeft fun _ => g) :=
  computes_of_firesBy (.of_sameFmt hruns rfl ScaleRule.apply_left (fun _ => rfl) rfl (fun _ => rfl) rfl)
    { two := rfl, out := rfl, cls := rfl, value := fun _ _ _ a b => congrArg (fun v => (some v, 0)) (hval a b) } hk

theorem computes_shift {f g : Nat → Nat → Nat → Nat} (hruns : ∀ s, exec i s = firing s fun t p => s.lanewise t p w (shiftOp w f))
    (hval : ∀ n x a, 0 < n → x < 2 ^ n → f n x a % 2 ^ n = g n x a) (hk : i = .agen w → w.kr = 0) :
    Claims.Computes i (Claims.shift w g) :=
  computes_of_firesBy (.of_rightFmt hruns rfl ScaleRule.apply_left (fun _ => rfl) rfl rfl)
    { two := rfl, out := rfl, cls := rfl
      value := fun _ hint _ a b => congrArg (fun v => (some v, 0))
        (hval _ _ b (Nat.lt_of_lt_of_le (by decide) (eight_le_fmtBits hint)) (Nat.mod_lt a (Nat.two_pow_pos _))) } hk

/-- A unary row given by its value on the raw element and K. -/
theorem computes_bitOne {o : LaneOp} {scale : Int → Option Int → Option Int} {g : Nat → Nat → Nat}
    (hruns : ∀ s, exec i s = firing s fun t p => s.lanewise t p w o) (htwo : o.two = false) (hok : o.ok = sameFmt w false)
    (hscale : ∀ l r, o.rule.apply l r = scale l r) (hout : o.out = w.fmt) (hcls : o.cls = .simple)
    (hval : ∀ z a b, o.f z a b = (some (g z.k (a % 2 ^ fmtBits w.fmt.toNat)), 0)) (hk : i = .agen w → w.kr = 0) :
    Claims.Computes i (Claims.intOne w scale g) :=
  computes_of_firesBy (.of_left hruns htwo hscale (fun _ => rfl) hok)
    { two := htwo, out := hout, cls := hcls, value := fun z _ _ => hval z } hk

end

theorem integerBits : Claims.IntegerBits := by
  intro i e h
  cases i
  case and => cases h; exact computes_bitOp (fun _ => rfl) (fun _ _ => Nat.and_mod_two_pow) nofun
  case or => cases h; exact computes_bitOp (fun _ => rfl) (fun _ _ => Nat.or_mod_two_pow) nofun
  case xor => cases h; exact computes_bitOp (fun _ => rfl) (fun _ _ => Nat.xor_mod_two_pow) nofun
  case andn =>
    cases h
    refine computes_bitOp (fun _ => rfl) (fun a b => ?_) nofun
    rw [Nat.and_mod_two_pow, Nat.mod_eq_of_lt (flip_lt ..), flip]
  case not => cases h; exact computes_bitOne (fun _ => rfl) rfl rfl ScaleRule.apply_left rfl rfl (fun _ _ _ => rfl) nofun
  case clz =>
    cases h
    exact computes_bitOne (fun _ => rfl) rfl rfl ScaleRule.apply_zero rfl rfl
      (fun _ a _ => congrArg (fun v => (some v, 0)) (clz_eq _ a)) nofun
  case popc =>
    cases h
    exact computes_bitOne (fun _ => rfl) rfl rfl ScaleRule.apply_zero rfl rfl
      (fun _ a _ => congrArg (fun v => (some v, 0)) (popcount_mod _ a)) nofun
  case bfx =>
    cases h
    exact computes_bitOne (fun _ => rfl) rfl rfl ScaleRule.apply_left rfl rfl
      (fun z a _ => congrArg (fun v => (some v, 0)) (bitField_mod (fmtBits_le _) z.k _ rfl rfl)) nofun
  case shl => cases h; exact computes_shift (fun _ => rfl) (fun n x a _ _ => shlBits_mod n x a) nofun
  case shr => cases h; exact computes_shift (fun _ => rfl) (fun _ _ a _ hx => shrBits_mod hx a) nofun
  case sar => cases h; exact computes_shift (fun _ => rfl) (fun n x a _ _ => sarBits_mod n x a) nofun
  case rol => cases h; exact computes_shift (fun _ => rfl) (fun _ _ a hn hx => rolBits_mod hx hn a) nofun
  case plane =>
    cases h
    exact computes_of_firesBy (.of_rightFmt (fun _ => rfl) rfl ScaleRule.apply_zero (fun _ => rfl) rfl rfl)
      { two := rfl, out := rfl, cls := rfl, value := fun _ _ _ _ _ => rfl } nofun
  all_goals cases h

/-- Settles O16: each row of the executor gives at every tag what its row of the claims says. -/
theorem integerElements : Obligations.IntegerElements := ⟨integerArithmetic, integerBits⟩

end Sys2Proof.Machine

/-! PROOFS. Float elements, the special functions and the local conversions (R151 to R157): the rows of the executor and of the
claims name the same values, once the rounding mode, K's scale and L's format are read as the claims read them. -/

namespace Sys2Proof.Machine

/-! ## Values of float elements (R129, R147, R151) -/

theorem roundingOf_eq (w : DWord) (z : Lanes) : roundingOf w z = if w.mod = 5 then z.mode % 8 else w.mod.toNat :=
  if_congr ⟨fun h => BitVec.eq_of_toNat_eq h, fun h => congrArg BitVec.toNat h⟩ rfl rfl

/-- An exact value rounded once, as the claims write its rounding mode and the addend K. -/
theorem roundOnce_eq {w : DWord} {z : Lanes} (hks : z.ks = 0) (f : Nat → Val → Val → Val → Val × Nat) (a b : Nat) :
    roundOnce w z (f (roundingOf w z) (foldK w z) (foldL w z a) (foldR w z b)) =
      (some (elementAt (Claims.rounded w f) z a b).1, (elementAt (Claims.rounded w f) z a b).2) := by
  simp only [foldK, hks, elementAt, Claims.rounded, ← roundingOf_eq w z]
  rfl

/-- A row that rounds one exact value computes its row of the claims. -/
theorem valuedBy_rounded {w : DWord} {o : LaneOp} {f : Nat → Val → Val → Val → Val × Nat} {kind : Lanes → Prop} (htwo : o.two = true)
    (hout : o.out = w.fmt) (hcls : o.cls = .multiply)
    (hf : ∀ z a b, o.f z a b = roundOnce w z (f (roundingOf w z) (foldK w z) (foldL w z a) (foldR w z b))) :
    ValuedBy (Claims.rounded w f) o kind :=
  ⟨htwo, hout, hcls, fun z _ hks a b => (hf z a b).trans (roundOnce_eq hks f a b)⟩

/-- So does a row that gives its bits and flags from its elements. -/
theorem valuedBy_float {w : DWord} {o : LaneOp} {two : Bool} {cls : Hold} {scale : Int → Option Int → Option Int}
    {f : FloatFmt → Nat → Nat → Int → Int → Nat → Nat → Nat × Nat} {kind : Lanes → Prop} (htwo : o.two = two)
    (hout : o.out = w.fmt) (hcls : o.cls = cls)
    (hf : ∀ z a b, o.f z a b =
      let r := f (DWordFloat w) (roundingOf w z) z.mode z.sl (if w.kr = 1 then 0 else z.sr) a b
      (some r.1, r.2)) :
    ValuedBy (Claims.float w two cls scale f) o kind :=
  ⟨htwo, hout, hcls, fun z _ _ a b => (hf z a b).trans (by simp only [roundingOf_eq]; rfl)⟩

theorem computes_fscale (w : DWord) {e : Claims.Element} (h : Claims.floating (.fscale w) = some e) : Claims.Computes (.fscale w) e := by
  cases h
  refine computes_of_firesBy (.of_rightFmt (o := laneFscale w) (fun _ => rfl) rfl ScaleRule.apply_zero (fun _ => rfl) rfl rfl)
    ⟨rfl, rfl, rfl, fun z _ _ a b => ?_⟩ nofun
  have hscaled : (match floatVal (DWordFloat w) a z.sl z.mode with
      | .fin n m e => Val.fin n m (e + sval 32 b)
      | x => x) = (foldL w z a).scaleBy (sval 32 b) := by
    cases h : foldL w z a <;> simp only [foldL] at h <;> rw [h] <;> rfl
  simp only [laneFscale, elementAt, roundOnce, ← roundingOf_eq w z, Nat.zero_or, ← hscaled]
  rfl

theorem floatArithmetic : Claims.FloatArithmetic := by
  intro i e h
  cases i
  case fadd | fsub | fmul | fmak | fnmsk =>
    cases h
    exact computes_of_firesBy (.of_sameFmt (fun _ => rfl) rfl ScaleRule.apply_zero (fun _ => rfl) rfl (fun _ => rfl) rfl)
      (valuedBy_rounded rfl rfl rfl fun _ _ _ => rfl) nofun
  case fdiv | fcmp =>
    cases h
    exact computes_of_firesBy (.of_sameFmt (fun _ => rfl) rfl ScaleRule.apply_zero (fun _ => rfl) rfl (fun _ => rfl) rfl)
      (valuedBy_float rfl rfl rfl fun _ _ _ => rfl) nofun
  case fmin | fmax =>
    cases h
    exact computes_of_firesBy (.of_sameFmt (fun _ => rfl) rfl ScaleRule.apply_eq (fun _ => rfl) rfl (fun _ => rfl) rfl)
      (valuedBy_float rfl rfl rfl fun _ _ _ => rfl) nofun
  case fcpys =>
    cases h
    exact computes_of_firesBy (.of_sameFmt (fun _ => rfl) rfl ScaleRule.apply_left (fun _ => rfl) rfl (fun _ => rfl) rfl)
      (valuedBy_float rfl rfl rfl fun _ _ _ => rfl) nofun
  case fsqrt | fround =>
    cases h
    exact computes_of_firesBy (.of_left (fun _ => rfl) rfl ScaleRule.apply_zero (fun _ => rfl) rfl)
      (valuedBy_float rfl rfl rfl fun _ _ _ => rfl) nofun
  case fabs | fneg =>
    cases h
    exact computes_of_firesBy (.of_left (fun _ => rfl) rfl ScaleRule.apply_left (fun _ => rfl) rfl)
      (valuedBy_float rfl rfl rfl fun _ _ _ => rfl) nofun
  case fclass =>
    cases h
    exact computes_of_firesBy (.of_left (fun _ => rfl) rfl ScaleRule.apply_zero (fun _ => rfl) rfl)
      ⟨rfl, rfl, rfl, fun _ _ _ _ _ => rfl⟩ nofun
  case fscale w => exact computes_fscale w h
  all_goals cases h

/-! ## Special functions and estimates (R154, R155) -/

theorem computes_special {i : Instr} {w : DWord} {cls : Hold} {f : Nat → Val → Nat × Nat}
    (hruns : ∀ s, exec i s = firing s fun t p => s.lanewise t p w (specOp w cls f)) (hk : i = .agen w → w.kr = 0) :
    Claims.Computes i (Claims.spec w cls f) :=
  computes_of_firesBy (.of_left hruns rfl ScaleRule.apply_zero (fun _ => rfl) rfl) ⟨rfl, rfl, rfl, fun _ _ _ _ _ => rfl⟩ hk

theorem specialFunctionElements : Claims.SpecialFunctionElements := by
  intro i e h
  cases i
  case frsqe | frcpe | fexp2 | flog2 | fsin | fcos | ftanh | fsigm => cases h; exact computes_special (fun _ => rfl) nofun
  all_goals cases h

/-! ## Local conversions (R156, R157) -/

/-- A row that reads L alone in the one format `sf`, where its operation knows that format. -/
theorem computes_of_format {i : Instr} {e : Claims.Element} {sf : Nat} {o : LaneOp}
    (hruns : ∀ s t p, s.focus = .firing t p → p.left.fmt.toNat = sf → exec i s = .next (s.lanewise t p e.w o))
    (htwo : e.two = false) (hleft : ∀ g, e.left g = decide (g = sf)) (hok : ∀ l r : Token, l.fmt.toNat = sf → o.ok l r = none)
    (hscale : ∀ l r, o.rule.apply l r = e.scale l r) (ho : ValuedBy e o fun z => z.l.fmt.toNat = sf) : Claims.Computes i e := by
  intro s t p sc hfocus hpos _ _ hl hfmt _ hsc r
  have hsf : p.left.fmt.toNat = sf := by simpa [hleft] using hfmt
  rw [hruns s t p hfocus hsf]
  exact congrArg _ (State.lanewise_eq_emits ho hsf hpos hl (fun h => by simp [htwo] at h) (hok _ _ hsf) ((hscale _ _).trans hsc))

theorem pairFmt_none {w : DWord} {pair : Nat → Nat → Bool} {sf : Nat} {l : Token} (hpair : pair sf w.fmt.toNat = true)
    (r : Token) (hl : l.fmt.toNat = sf) : pairFmt w pair l r = none := if_pos (hl.symm ▸ hpair)

theorem not_fmtFloat_of_int {f : Nat} (h : fmtInt f = true) : fmtFloat f = false :=
  (by decide : ∀ f ∈ [8, 9, 10, 11, 12, 13, 28, 29], fmtFloat f = false) f (fmtInt_mem h)

theorem widens_of_wider {sf df : Nat} (hs : fmtInt sf = true) (hd : fmtInt df = true) (hwide : fmtBytes sf < fmtBytes df)
    (hsign : fmtSigned df = true ∨ fmtSigned sf = false) : widens sf df = true := by
  simpa [widens, hs, hd, hwide] using hsign

/-- No format is wider than I64 and N64, so that a widened format is one of those that CVTL takes. -/
theorem cvtlPair_of_wider {sf df : Nat} (hs : fmtInt sf = true) (hd : fmtInt df = true) (hwide : fmtBytes sf < fmtBytes df)
    (hsign : fmtSigned df = true ∨ fmtSigned sf = false) : cvtlPair sf df = true := by
  have hw := widens_of_wider hs hd hwide hsign
  have hpairs : ∀ sf ∈ [8, 9, 10, 11, 12, 13, 28, 29], ∀ df ∈ [8, 9, 10, 11, 12, 13, 28, 29],
      fmtBytes sf < fmtBytes df → cvtlPair sf df = widens sf df := by decide
  exact (hpairs sf (fmtInt_mem hs) df (fmtInt_mem hd) hwide).trans hw

theorem cvtlPair_of_float {sf df : Nat} (h : (sf = 1 ∧ df ∈ [3, 4, 8, 11]) ∨ (df = 1 ∧ sf ∈ [3, 4, 8, 11])) :
    cvtlPair sf df = true ∧ (fmtFloat sf || fmtFloat df) = true := by
  rcases h with ⟨rfl, h⟩ | ⟨rfl, h⟩
  · exact (by decide : ∀ df ∈ [3, 4, 8, 11], cvtlPair 1 df = true ∧ (fmtFloat 1 || fmtFloat df) = true) df h
  · exact (by decide : ∀ sf ∈ [3, 4, 8, 11], cvtlPair sf 1 = true ∧ (fmtFloat sf || fmtFloat 1) = true) sf h

theorem execCvtl_next {s : State} {t : Nat} {p : Pairing} {w : DWord} {sf : Nat} (hfocus : s.focus = .firing t p)
    (hsf : p.left.fmt.toNat = sf) : exec (.cvtl w) s = .next (s.lanewise t p w (laneCvtl w sf)) :=
  hsf ▸ firing_next _ hfocus

theorem localConversions : Claims.LocalConversions := by
  intro w sf df n unary
  refine ⟨fun hs hd hnarrow => ?narrow, fun hs hd hwide hsign => ?widen, fun hpair => ?convert, fun hs hd hwide hsign => ?integer⟩
  case narrow =>
    have hpair : narrows sf df = true := by simp [narrows, hs, hd, hnarrow]
    refine computes_of_format (o := laneNarrow w) (fun s t p hfocus _ => firing_next _ hfocus) rfl (fun _ => rfl)
      (fun _ r => pairFmt_none hpair r) ScaleRule.apply_left ⟨rfl, rfl, rfl, fun z hsf _ a _ => ?_⟩
    simp only [laneNarrow, hsf, low_eq_wrap, clampTo_eq, ival_eq_int]
    rfl
  case widen =>
    refine computes_of_format (o := laneWiden w) (fun s t p hfocus _ => firing_next _ hfocus) rfl (fun _ => rfl)
      (fun _ r => pairFmt_none (widens_of_wider hs hd hwide hsign) r) ScaleRule.apply_left ⟨rfl, rfl, rfl, fun z hsf _ a _ => ?_⟩
    simp only [laneWiden, hsf, low_eq_wrap, ival_eq_int]
    rfl
  case convert =>
    obtain ⟨hpair, hfolds⟩ := cvtlPair_of_float hpair
    refine computes_of_format (o := laneCvtl w sf) (fun s t p => execCvtl_next) rfl (fun _ => rfl)
      (fun _ r => pairFmt_none hpair r) (fun l r => ?_) ⟨rfl, rfl, rfl, fun z _ _ a _ => ?_⟩
    · simp only [laneCvtl, df, hfolds, if_true, ScaleRule.apply_zero]
      rfl
    · simp only [laneCvtl, df, hfolds, if_true, roundingOf_eq]
      rfl
  case integer =>
    have hfolds : (fmtFloat sf || fmtFloat df) = false := by rw [not_fmtFloat_of_int hs, not_fmtFloat_of_int hd]; rfl
    refine computes_of_format (o := laneCvtl w sf) (fun s t p => execCvtl_next) rfl (fun _ => rfl)
      (fun _ r => pairFmt_none (cvtlPair_of_wider hs hd hwide hsign) r) (fun l r => ?_) ⟨rfl, rfl, rfl, fun z _ _ a _ => ?_⟩
    · simp only [laneCvtl, df, hfolds, Bool.false_eq_true, if_false, ScaleRule.apply_left]
      rfl
    · simp only [laneCvtl, df, hfolds, Bool.false_eq_true, if_false, low_eq_wrap, ival_eq_int]
      rfl

/-- Settles O17: the executor's rows name the values that the claims name, and a firing rounds and flags them alike. -/
theorem floatElements : Obligations.FloatElements := ⟨floatArithmetic, specialFunctionElements, localConversions⟩

end Sys2Proof.Machine

/-! PROOFS. The run instructions on integers (R157 to R160): sums by a tree and in order, extremes and their positions, and elements
that move. -/

namespace Sys2Proof.Machine

/-! ## Trees of an associative operation (R158) -/

section
variable {α : Type} {f : α → α → α}

@[simp] theorem joinPair_none_right (x : Option α) : joinPair f x none = x := by cases x <;> rfl

theorem joinPair_assoc (hf : ∀ a b c, f (f a b) c = f a (f b c)) (x y z : Option α) :
    joinPair f (joinPair f x y) z = joinPair f x (joinPair f y z) := by
  cases x with
  | none => rfl
  | some a =>
    cases y with
    | none => rfl
    | some b =>
      cases z with
      | none => rfl
      | some c => exact congrArg some (hf a b c)

/-- A level of a tree keeps what its elements come to in order. -/
theorem foldr_treeLevel (hf : ∀ a b c, f (f a b) c = f a (f b c)) :
    ∀ l : List (Option α), (treeLevel f l).foldr (joinPair f) none = l.foldr (joinPair f) none
  | [] => rfl
  | [_] => rfl
  | _ :: _ :: rest => by simp only [treeLevel, List.foldr_cons, foldr_treeLevel hf rest, joinPair_assoc hf]

theorem length_treeLevel : ∀ l : List (Option α), (treeLevel f l).length = (l.length + 1) / 2
  | [] => by simp [treeLevel]
  | [_] => by simp [treeLevel]
  | _ :: _ :: rest => by simp only [treeLevel, List.length_cons, length_treeLevel rest]; omega

/-- A run's tree of an associative operation is its elements taken in order. -/
theorem treeRoot_eq_foldr (hf : ∀ a b c, f (f a b) c = f a (f b c)) {l : List (Option α)} (hl : l.length ≤ 32) :
    treeRoot f l = l.foldr (joinPair f) none := by
  have hleaves : (l ++ List.replicate (32 - l.length) none).foldr (joinPair f) none = l.foldr (joinPair f) none := by
    have hnone : ∀ n, (List.replicate n none).foldr (joinPair f) none = none := fun n => by
      induction n with
      | zero => rfl
      | succ n ih => rw [List.replicate_succ, List.foldr_cons, ih, joinPair_none_right]
    rw [List.foldr_append, hnone]
  obtain ⟨v, hv⟩ : ∃ v, treeLevel f (treeLevel f (treeLevel f (treeLevel f (treeLevel f (l ++ List.replicate (32 - l.length) none))))) = [v] :=
    List.length_eq_one_iff.mp (by
      simp only [length_treeLevel, List.length_append, List.length_replicate, Nat.add_sub_of_le hl])
  have hroot : treeRoot f l = v := by simp only [treeRoot, hv]
  have hfold : [v].foldr (joinPair f) none = l.foldr (joinPair f) none := by
    rw [← hv]
    simp only [foldr_treeLevel hf, hleaves]
  rw [hroot, ← hfold, List.foldr_cons, List.foldr_nil, joinPair_none_right]

end

/-! ## Integer sums (R158) -/

/-- The sum of a run's elements, as its tree gives it: the sum modulo the width, and reduced where the elements are. -/
theorem foldr_joinPair_add (m : Nat) {l : List Nat} (hl : l ≠ []) :
    ∃ v, (l.map some).foldr (joinPair fun a b => (a + b) % m) none = some v ∧ v % m = l.sum % m ∧ ((∀ x ∈ l, x < m) → v < m) := by
  induction l with
  | nil => exact absurd rfl hl
  | cons a l ih =>
    by_cases hnil : l = []
    · subst hnil
      exact ⟨a, rfl, by simp, fun h => h a (by simp)⟩
    · obtain ⟨v, hv, hmod, -⟩ := ih hnil
      refine ⟨(a + v) % m, by rw [List.map_cons, List.foldr_cons, hv]; rfl, ?_, fun h => Nat.mod_lt _ (Nat.pos_of_ne_zero ?_)⟩
      · rw [Nat.mod_mod, List.sum_cons, Nat.add_mod, hmod, ← Nat.add_mod]
      · have := h a (by simp)
        omega

section
variable {w : DWord} {z : Lanes} {l : List Nat} (hint : fmtInt w.fmt.toNat = true) (hx : z.x = l.map some)
include hint hx

theorem treeSum_of_int (hne : l ≠ []) (hlen : l.length ≤ 32) :
    ∃ v, treeSum w z = (some v, 0) ∧ v % 2 ^ fmtBits w.fmt.toNat = l.sum % 2 ^ fmtBits w.fmt.toNat ∧
      ((∀ x ∈ l, x < 2 ^ fmtBits w.fmt.toNat) → v < 2 ^ fmtBits w.fmt.toNat) := by
  have hassoc (a b c : Nat) : ((a + b) % 2 ^ fmtBits w.fmt.toNat + c) % 2 ^ fmtBits w.fmt.toNat =
      (a + (b + c) % 2 ^ fmtBits w.fmt.toNat) % 2 ^ fmtBits w.fmt.toNat := by
    rw [Nat.mod_add_mod, Nat.add_mod_mod, Nat.add_assoc]
  obtain ⟨v, hv, hrest⟩ := foldr_joinPair_add (2 ^ fmtBits w.fmt.toNat) hne
  refine ⟨v, ?_, hrest⟩
  rw [treeSum, not_fmtFloat_of_int hint, hx, treeRoot_eq_foldr hassoc (by simpa using hlen), hv]
  rfl

end

/-- The sum of a run's integers, at the width, is the sum of its elements. -/
theorem wrap_sum_ival (f : Nat) (l : List Nat) : Claims.wrap f (l.map (ival f)).sum = l.sum % 2 ^ fmtBits f := by
  refine wrap_of_modEq ?_
  induction l with
  | nil => rfl
  | cons a l ih =>
    have ha : ival f a ≡ a [ZMOD 2 ^ fmtBits f] := by
      rw [ival_eq_int]
      exact (int_modEq f _).trans (by push_cast; exact Int.mod_modEq _ _)
    simpa using ha.add ih

/-- Running sums are the sums of the run's beginnings (R158). -/
theorem scanInts_eq (m acc : Nat) (l : List Nat) :
    scanInts m acc (l.map some) = (List.range l.length).map fun j => some ((acc + (l.take (j + 1)).sum) % m) := by
  induction l generalizing acc with
  | nil => rfl
  | cons a l ih =>
    simp only [List.map_cons, scanInts, ih, List.length_cons, List.range_succ_eq_map, List.map_map]
    simp [Function.comp_def, Nat.add_assoc]

/-! ## Integer extremes (R160) -/

/-- One element more in the search for a run's extreme. -/
def extremeStep (fmt mode : Nat) (max? : Bool) (z : Option Nat × Nat) (a : Nat) : Option Nat × Nat :=
  let r := pickElem fmt mode max? (z.1.getD a) a
  (some r.1, z.2 ||| r.2)

theorem extreme_eq_foldl (fmt mode : Nat) (max? : Bool) (l : List Nat) :
    extreme fmt mode max? (l.map some) = l.foldl (extremeStep fmt mode max?) (none, 0) := by
  have hstep : extreme fmt mode max? (l.map some) = ((l.map some).filterMap id).foldl (extremeStep fmt mode max?) (none, 0) := by
    refine congrArg (fun g => ((l.map some).filterMap id).foldl g (none, 0)) (funext fun z => funext fun a => ?_)
    obtain ⟨_ | _, _⟩ := z <;> rfl
  simpa using hstep

/-- A pick of two elements is one of them, has the integer that `op` gives, and sets no flag. -/
def PicksBy (fmt mode : Nat) (max? : Bool) (op : Int → Int → Int) : Prop :=
  ∀ a b, ((pickElem fmt mode max? a b).1 = a ∨ (pickElem fmt mode max? a b).1 = b) ∧
    ival fmt (pickElem fmt mode max? a b).1 = op (ival fmt a) (ival fmt b) ∧ (pickElem fmt mode max? a b).2 = 0

section
variable {fmt mode : Nat} {max? : Bool} {op : Int → Int → Int} (hpick : PicksBy fmt mode max? op)
include hpick

theorem foldl_extremeStep (l : List Nat) (b : Nat) :
    ∃ v ∈ b :: l, l.foldl (extremeStep fmt mode max?) (some b, 0) = (some v, 0) ∧
      ival fmt v = (l.map (ival fmt)).foldl op (ival fmt b) := by
  induction l generalizing b with
  | nil => exact ⟨b, by simp, rfl, rfl⟩
  | cons c l ih =>
    obtain ⟨hmem, hval, hflag⟩ := hpick b c
    obtain ⟨v, hv, hfold, hop⟩ := ih (pickElem fmt mode max? b c).1
    refine ⟨v, ?_, ?_, ?_⟩
    · rcases List.mem_cons.mp hv with rfl | hv
      · rcases hmem with h | h <;> simp [h]
      · simp [hv]
    · simpa [extremeStep, hflag] using hfold
    · simpa [hval] using hop

/-- The extreme of a run is an element whose integer is that of the whole run. -/
theorem extreme_cons (a : Nat) (l : List Nat) :
    ∃ v ∈ a :: l, extreme fmt mode max? ((a :: l).map some) = (some v, 0) ∧
      ival fmt v = (l.map (ival fmt)).foldl op (ival fmt a) := by
  obtain ⟨hmem, -, hflag⟩ := hpick a a
  have hfirst : extremeStep fmt mode max? (none, 0) a = (some a, 0) :=
    Prod.ext (congrArg some (hmem.elim id id)) (by simp [extremeStep, hflag])
  rw [extreme_eq_foldl, List.foldl_cons, hfirst]
  exact foldl_extremeStep hpick l a

end

theorem picksBy_max {fmt : Nat} (hint : fmtInt fmt = true) (mode : Nat) : PicksBy fmt mode true max := by
  intro a b
  rw [pickElem, not_fmtFloat_of_int hint]
  by_cases h : ival fmt a < ival fmt b
  · simp [h, h.le]
  · simp [h, not_lt.mp h]

theorem picksBy_min {fmt : Nat} (hint : fmtInt fmt = true) (mode : Nat) : PicksBy fmt mode false min := by
  intro a b
  rw [pickElem, not_fmtFloat_of_int hint]
  by_cases h : ival fmt b < ival fmt a
  · simp [h, h.le]
  · simp [h, not_lt.mp h]

theorem wrap_ival {f x : Nat} (hx : x < 2 ^ fmtBits f) : Claims.wrap f (ival f x) = x := by
  rw [ival_eq_int, Nat.mod_eq_of_lt hx, wrap_int hx]

section
variable {fmt : Nat} (hint : fmtInt fmt = true) {l : List Nat} (hne : l ≠ []) (hlt : ∀ x ∈ l, x < 2 ^ fmtBits fmt)
include hint hne hlt

theorem extreme_max (mode : Nat) :
    extreme fmt mode true (l.map some) = (some (((l.map (ival fmt)).max?.map (Claims.wrap fmt)).getD 0), 0) := by
  obtain ⟨a, l, rfl⟩ := List.exists_cons_of_ne_nil hne
  obtain ⟨v, hv, hext, hop⟩ := extreme_cons (picksBy_max hint mode) a l
  rw [hext, List.map_cons, List.max?_cons', ← hop, Option.map_some, Option.getD_some, wrap_ival (hlt v hv)]

theorem extreme_min (mode : Nat) :
    extreme fmt mode false (l.map some) = (some (((l.map (ival fmt)).min?.map (Claims.wrap fmt)).getD 0), 0) := by
  obtain ⟨a, l, rfl⟩ := List.exists_cons_of_ne_nil hne
  obtain ⟨v, hv, hext, hop⟩ := extreme_cons (picksBy_min hint mode) a l
  rw [hext, List.map_cons, List.min?_cons', ← hop, Option.map_some, Option.getD_some, wrap_ival (hlt v hv)]

end

/-! ## The position of the greatest (R160) -/

/-- Of the positions below `n`, `skip` left out, the lowest with the greatest number; none where no position is left. -/
def GreatestBelow (g : Nat → Int) (skip : Option Nat) (n : Nat) : Option Nat → Prop
  | none => ∀ j < n, skip = some j
  | some a => a < n ∧ skip ≠ some a ∧ ∀ j < n, skip ≠ some j → g j ≤ g a ∧ (j < a → g j < g a)

/-- One position more in the search for the greatest. -/
def greatestStep (g : Nat → Int) (skip best : Option Nat) (i : Nat) : Option Nat :=
  if skip = some i then best
  else
    match best with
    | none => some i
    | some j => if g j < g i then some i else best

theorem GreatestBelow.step {g : Nat → Int} {skip best : Option Nat} {n : Nat} (h : GreatestBelow g skip n best) :
    GreatestBelow g skip (n + 1) (greatestStep g skip best n) := by
  unfold greatestStep
  split
  · next hskip =>
    cases best with
    | none => exact fun j hj => (Nat.lt_succ_iff_lt_or_eq.mp hj).elim (h j) fun he => he ▸ hskip
    | some a =>
      obtain ⟨ha, hne, hall⟩ := h
      exact ⟨ha.trans (Nat.lt_succ_self n), hne, fun j hj hj' => (Nat.lt_succ_iff_lt_or_eq.mp hj).elim (hall j · hj')
        fun he => absurd hskip (he ▸ hj')⟩
  · next hskip =>
    cases best with
    | none =>
      refine ⟨Nat.lt_succ_self n, hskip, fun j hj hj' => ?_⟩
      obtain rfl : j = n := (Nat.lt_succ_iff_lt_or_eq.mp hj).resolve_left fun hlt => hj' (h j hlt)
      exact ⟨le_rfl, fun hlt => absurd hlt (lt_irrefl _)⟩
    | some a =>
      obtain ⟨ha, hne, hall⟩ := h
      dsimp only
      split
      · next hgt =>
        refine ⟨Nat.lt_succ_self n, hskip, fun j hj hj' => ?_⟩
        rcases Nat.lt_succ_iff_lt_or_eq.mp hj with hlt | rfl
        · have hj := (hall j hlt hj').1.trans_lt hgt
          exact ⟨hj.le, fun _ => hj⟩
        · exact ⟨le_rfl, fun hlt => absurd hlt (lt_irrefl _)⟩
      · next hgt =>
        refine ⟨ha.trans (Nat.lt_succ_self n), hne, fun j hj hj' => ?_⟩
        rcases Nat.lt_succ_iff_lt_or_eq.mp hj with hlt | rfl
        · exact hall j hlt hj'
        · exact ⟨not_lt.mp hgt, fun hlt => absurd ha (Nat.not_lt.mpr hlt.le)⟩

theorem greatestBelow_foldl (g : Nat → Int) (skip : Option Nat) (n : Nat) :
    GreatestBelow g skip n ((List.range n).foldl (greatestStep g skip) none) := by
  induction n with
  | zero => exact fun j hj => absurd hj (Nat.not_lt_zero j)
  | succ n ih =>
    rw [List.range_succ, List.foldl_append]
    exact ih.step

/-- The integer of a run's element at a position. -/
def intAt (fmt : Nat) (l : List Nat) (j : Nat) : Int := ival fmt (l.getD j 0)

theorem intAt_of_lt {l : List Nat} {j : Nat} (fmt : Nat) (hj : j < l.length) : intAt fmt l j = ival fmt l[j] := by
  simp [intAt, hj]

/-- On integers the search goes by the integers of the elements. -/
theorem greatestAt_int {fmt : Nat} (hint : fmtInt fmt = true) (mode : Nat) (l : List Nat) (skip : Option Nat) :
    GreatestBelow (intAt fmt l) skip l.length (greatestAt fmt mode (l.map some) skip) := by
  have hfloat := not_fmtFloat_of_int hint
  have hzip : (l.map some).zipIdx = (List.range l.length).map fun i => (some (l.getD i 0), i) :=
    List.ext_getElem (by simp) fun i hi _ => by
      have hi : i < l.length := by simpa using hi
      simp [hi]
  have hlook (j : Nat) : ((l.map some).getD j none).getD 0 = l.getD j 0 := by
    cases h : l[j]? <;> simp [h]
  have hat : greatestAt fmt mode (l.map some) skip =
      (List.range l.length).foldl (greatestStep (intAt fmt l) skip) none := by
    rw [greatestAt, hzip, List.foldl_map]
    refine congrArg (fun f => (List.range l.length).foldl f none) (funext fun best => funext fun i => ?_)
    simp only [isNumber, elemGt, hfloat, hlook, greatestStep, intAt, Bool.false_and, Bool.not_false, Bool.not_true, Bool.false_or,
      decide_eq_true_eq, Bool.false_eq_true, if_false, eq_comm (a := some i)]
    cases best <;> rfl
  exact hat ▸ greatestBelow_foldl _ skip _

/-- RARGMX's position: the first whose integer is the greatest. -/
theorem greatestAt_eq_findIdx {fmt : Nat} (hint : fmtInt fmt = true) (mode : Nat) {l : List Nat} (hne : l ≠ []) :
    greatestAt fmt mode (l.map some) none =
      some ((l.map (ival fmt)).findIdx fun v => (l.map (ival fmt)).max? = some v) := by
  have hgreatest := greatestAt_int hint mode l none
  cases hat : greatestAt fmt mode (l.map some) none with
  | none =>
    rw [hat] at hgreatest
    exact absurd (hgreatest 0 (List.length_pos_iff.mpr hne)) nofun
  | some a =>
    rw [hat] at hgreatest
    obtain ⟨ha, -, hall⟩ := hgreatest
    have hmax : (l.map (ival fmt)).max? = some (ival fmt l[a]) := by
      refine List.max?_eq_some_iff.mpr ⟨List.mem_map_of_mem (List.getElem_mem ha), fun b hb => ?_⟩
      obtain ⟨x, hx, rfl⟩ := List.mem_map.mp hb
      obtain ⟨j, hj, rfl⟩ := List.getElem_of_mem hx
      have hle := (hall j hj nofun).1
      rwa [intAt_of_lt fmt hj, intAt_of_lt fmt ha] at hle
    refine congrArg some ((List.findIdx_eq (by simpa using ha)).mpr ⟨by simp [hmax], fun j hj => ?_⟩).symm
    have hlt := (hall j (hj.trans ha) nofun).2 hj
    rw [intAt_of_lt fmt (hj.trans ha), intAt_of_lt fmt ha] at hlt
    simpa [hmax] using hlt.ne'

/-! ## Elements that move, and bits of elements (R157, R160) -/

theorem bitLanes_eq_sum (l : List Nat) :
    bitLanes (l.map some) = ((List.range l.length).map fun i => ((l.map some).getD i none).getD 0 % 2 * 2 ^ i).sum := by
  induction l with
  | nil => rfl
  | cons a l ih =>
    have hrest : (List.range l.length).map (fun i => ((l.map some).getD i none).getD 0 % 2 * 2 ^ (i + 1)) =
        (List.range l.length).map fun i => 2 * (((l.map some).getD i none).getD 0 % 2 * 2 ^ i) :=
      List.map_congr_left fun i _ => by rw [Nat.pow_succ]; ring
    simp only [List.map_cons, bitLanes, ih, List.length_cons, List.range_succ_eq_map, List.map_map, List.sum_cons, Function.comp_def,
      Nat.succ_eq_add_one, List.getD_cons_succ, hrest, List.sum_map_mul_left]
    simp

/-- Where Rt holds every element, EXPAND leaves L's where they are. -/
theorem expandLanes_present (xs : List (Option Nat)) (ys : List Nat) (j : Nat) :
    expandLanes xs (ys.map some) j = (List.range ys.length).map fun i => xs.getD (j + i) none := by
  induction ys generalizing j with
  | nil => rfl
  | cons y ys ih =>
    simp only [List.map_cons, expandLanes, ih, List.length_cons, List.range_succ_eq_map, List.map_map, Function.comp_def]
    simp [Nat.add_right_comm, Nat.add_assoc]

end Sys2Proof.Machine

/-! PROOFS. The firings of the run instructions on runs with every element (R145, R157 to R160). -/

namespace Sys2Proof.Machine

/-! ## A run instruction on whole operands -/

/-- What a run instruction computes on where L holds every element, each within the width of the slot's format. -/
structure WholeRun (w : DWord) (p : Pairing) (z : Lanes) : Prop where
  pos : 0 < p.len
  len : p.len ≤ 32
  full : Claims.Full p.left p
  left : z.l = p.left
  elems : z.x = p.lefts.map some
  fits : ∀ x ∈ p.lefts, x < 2 ^ fmtBits w.fmt.toNat
  form : fmtInt w.fmt.toNat = true ∨ fmtFloat w.fmt.toNat = true

/-- What the claims say of the row `e`: the instruction sends the result of its body. -/
def RunsAs (i : Instr) (e : Claims.Run) : Prop :=
  ∀ (s : State) (t : Nat) (p : Pairing), s.focus = .firing t p → WholeRun e.w p (Claims.lanes s t p e.w e.two) → p.left.fmt = e.w.fmt →
    (e.two = true → e.w.kr = 0 → Claims.Full p.right p ∧ e.right p.right.fmt.toNat = true) →
    let r := e.body (Claims.lanes s t p e.w e.two)
    exec i s = .next (((s.hold t (e.cls.cycles e.w.fmt.toNat p.len)).addFlags p.ctx r.2).emitRes t p
      (s.targets t e.w.nt e.w.t1 e.w.t0) false r.1)

section
variable {i : Instr} {e : Claims.Run} {body : Pairing → Lanes → Res × Nat}

theorem State.runwise_of_whole {s : State} {t : Nat} {p : Pairing} {w : DWord} {two : Bool} {out : Fmt} {cls : Hold}
    {ok : Token → Token → Option (Nat × Nat)} (hl : Claims.Full p.left p)
    (hr : two = true → w.kr = 0 → Claims.Full p.right p) (hok : ok p.left p.right = none) (body : Lanes → Res × Nat) :
    let r := body (Claims.lanes s t p w two)
    s.runwise t p w two out cls ok body =
      ((s.hold t (cls.cycles w.fmt.toNat p.len)).addFlags p.ctx r.2).emitRes t p (s.targets t w.nt w.t1 w.t0) false r.1 :=
  State.withLanes_eq_lanes hl hr hok _ true

/-- A row that reads L alone sends what its body gives on L's elements. -/
theorem runsAs_of_left (htwo : e.two = false)
    (hruns : ∀ s t p, s.focus = .firing t p → exec i s = .next (s.runwise1 t p e.w e.out e.cls (body p)))
    (hbody : ∀ p z, WholeRun e.w p z → body p z = e.body z) : RunsAs i e := by
  intro s t p hfocus hwhole hfmt _ r
  have hok : sameFmt e.w false p.left p.right = none := sameFmt_none (congrArg _ hfmt) nofun
  rw [hruns s t p hfocus, State.runwise1, State.runwise_of_whole (two := false) hwhole.full nofun hok, ← htwo, hbody p _ hwhole]

/-- So does a row that reads both operands, each with every element. -/
theorem runsAs_of_both (htwo : e.two = true)
    (hruns : ∀ s t p, s.focus = .firing t p →
      exec i s = .next (s.runwise t p e.w true e.out e.cls (rightFmt e.w e.right) (body p)))
    (hbody : ∀ p z (ys : List Nat), WholeRun e.w p z → z.y = ys.map some → ys.length = p.len → body p z = e.body z) : RunsAs i e := by
  intro s t p hfocus hwhole hfmt hr r
  have hok : rightFmt e.w e.right p.left p.right = none := rightFmt_none (congrArg _ hfmt) fun hkr => (hr htwo hkr).2
  have hy : (Claims.lanes s t p e.w e.two).y = ((List.range p.len).map (Claims.rightElem s t p e.w)).map some := by
    simp [Claims.lanes, htwo]
  rw [hruns s t p hfocus, State.runwise_of_whole hwhole.full (fun _ hkr => (hr htwo hkr).1) hok, ← htwo,
    hbody p _ _ hwhole hy (by simp)]

end

namespace WholeRun

variable {w : DWord} {p : Pairing} {z : Lanes} (h : WholeRun w p z)
include h

theorem ne_nil : p.lefts ≠ [] := Pairing.lefts_ne_nil h.pos

theorem length_elems : z.x.length = p.len := by rw [h.elems, List.length_map, Pairing.lefts_length]

theorem filter_elems : (z.x.filter fun v => v.isSome) = z.x := List.filter_eq_self.mpr (by simp [h.elems])

/-- L holds an element, so that absences in a result are the instruction's own (R97). -/
theorem some_eq : z.some? = true := by
  simpa [Lanes.some?, h.elems, Pairing.lefts] using ⟨0, h.pos⟩

theorem ints_eq : Claims.ints w z = p.lefts.map (ival w.fmt.toNat) := by simp [Claims.ints, h.elems]

theorem present_isEmpty : z.l.present.isEmpty = false := by
  have hmem : 0 ∈ p.left.present := List.mem_filter.mpr ⟨List.mem_range.mpr
    (of_decide_eq_true (Bool.and_elim_left (h.full.2 0 h.pos))), h.full.2 0 h.pos⟩
  rw [h.left]
  simpa using List.ne_nil_of_mem hmem

theorem fmtFloat_of_not_int (hint : ¬ fmtInt w.fmt.toNat = true) : fmtFloat w.fmt.toNat = true := h.form.resolve_left hint

theorem treeSum_eq (hint : fmtInt w.fmt.toNat = true) : treeSum w z = (some (Claims.wrap w.fmt.toNat (Claims.ints w z).sum), 0) := by
  obtain ⟨v, hv, hmod, hlt⟩ := treeSum_of_int hint h.elems h.ne_nil (by simpa using h.len)
  rw [hv, h.ints_eq, wrap_sum_ival, ← hmod, Nat.mod_eq_of_lt (hlt h.fits)]

theorem scanInts_eq : scanInts (2 ^ fmtBits w.fmt.toNat) 0 z.x =
    (List.range z.x.length).map fun j => some (Claims.wrap w.fmt.toNat ((Claims.ints w z).take (j + 1)).sum) := by
  rw [h.length_elems, h.elems, Machine.scanInts_eq, Pairing.lefts_length, h.ints_eq]
  refine List.map_congr_left fun j _ => ?_
  rw [← List.map_take, wrap_sum_ival, Nat.zero_add]

end WholeRun

/-! ## Results on integers and floats (R158, R160) -/

theorem runsAs_rsum {w : DWord} {e : Claims.Run} (h : Claims.runs (.rsum w) = some e) : RunsAs (.rsum w) e := by
  have hkr : ¬ w.kr = 1 := fun hkr => by simp [Claims.runs, hkr] at h
  simp only [Claims.runs, if_neg hkr, Option.some.injEq] at h
  subst h
  refine runsAs_of_left rfl (fun s t p hfocus => (firing_next _ hfocus).trans (congrArg _ (if_neg hkr))) fun p z hz => ?_
  by_cases hint : fmtInt w.fmt.toNat = true
  · simp only [hint, if_true, hz.treeSum_eq hint, sumScale, not_fmtFloat_of_int hint, Bool.false_eq_true, if_false]
    rfl
  · simp only [hint]
    rfl

theorem runsAs_rscan {w : DWord} {e : Claims.Run} (h : Claims.runs (.rscan w) = some e) : RunsAs (.rscan w) e := by
  cases h
  refine runsAs_of_left rfl (fun s t p hfocus => firing_next _ hfocus) fun p z hz => ?_
  by_cases hint : fmtInt w.fmt.toNat = true
  · simp only [hint, if_true, sumScale, not_fmtFloat_of_int hint, Bool.false_eq_true, if_false, hz.scanInts_eq]
    rfl
  · simp only [hint, sumScale, hz.fmtFloat_of_not_int hint, if_true, roundingOf_eq]
    rfl

theorem runsAs_rmax {w : DWord} {e : Claims.Run} (h : Claims.runs (.rmax w) = some e) : RunsAs (.rmax w) e := by
  cases h
  refine runsAs_of_left rfl (fun s t p hfocus => firing_next _ hfocus) fun p z hz => ?_
  by_cases hint : fmtInt w.fmt.toNat = true
  · simp only [hint, if_true, hz.ints_eq, hz.elems, extreme_max hint hz.ne_nil hz.fits]
    rfl
  · simp only [hint]
    rfl

theorem runsAs_rmin {w : DWord} {e : Claims.Run} (h : Claims.runs (.rmin w) = some e) : RunsAs (.rmin w) e := by
  cases h
  refine runsAs_of_left rfl (fun s t p hfocus => firing_next _ hfocus) fun p z hz => ?_
  by_cases hint : fmtInt w.fmt.toNat = true
  · simp only [hint, if_true, hz.ints_eq, hz.elems, extreme_min hint hz.ne_nil hz.fits]
    rfl
  · simp only [hint]
    rfl

theorem snanFlags_of_int {f : Nat} (hint : fmtInt f = true) (l : List (Option Nat)) : snanFlags f l = 0 := by
  rw [snanFlags, not_fmtFloat_of_int hint]
  rfl

theorem runsAs_rargmx {w : DWord} {e : Claims.Run} (h : Claims.runs (.rargmx w) = some e) : RunsAs (.rargmx w) e := by
  cases h
  refine runsAs_of_left rfl (fun s t p hfocus => firing_next _ hfocus) fun p z hz => ?_
  by_cases hint : fmtInt w.fmt.toNat = true
  · simp only [hint, if_true, hz.some_eq, snanFlags_of_int hint, hz.ints_eq, hz.elems, greatestAt_eq_findIdx hint _ hz.ne_nil]
  · simp only [hint, hz.some_eq]
    rfl

/-! ## Counts, bits and elements that move (R157, R160) -/

theorem runsAs_bits {w : DWord} {e : Claims.Run} (h : Claims.runs (.bits w) = some e) : RunsAs (.bits w) e := by
  cases h
  refine runsAs_of_left rfl (fun s t p hfocus => firing_next _ hfocus) fun p z hz => ?_
  simp only [hz.some_eq, if_true, hz.elems, bitLanes_eq_sum, List.length_map]

theorem runsAs_rpop {w : DWord} {e : Claims.Run} (h : Claims.runs (.rpop w) = some e) : RunsAs (.rpop w) e := by
  cases h
  refine runsAs_of_left rfl (fun s t p hfocus => firing_next _ hfocus) fun p z hz => ?_
  simp only [hz.present_isEmpty, hz.filter_elems, Bool.false_and, Bool.false_eq_true, if_false]

theorem runsAs_bcast {w : DWord} {e : Claims.Run} (h : Claims.runs (.bcast w) = some e) : RunsAs (.bcast w) e := by
  cases h
  refine runsAs_of_left rfl (fun s t p hfocus => firing_next _ hfocus) fun p z hz => ?_
  simp only [hz.some_eq]
  rfl

theorem runsAs_rotl {w : DWord} {e : Claims.Run} (h : Claims.runs (.rotl w) = some e) : RunsAs (.rotl w) e := by
  cases h
  refine runsAs_of_left rfl (fun s t p hfocus => firing_next _ hfocus) fun p z hz => ?_
  simp only [hz.length_elems]
  rfl

theorem runsAs_compact {w : DWord} {e : Claims.Run} (h : Claims.runs (.compact w) = some e) : RunsAs (.compact w) e := by
  cases h
  refine runsAs_of_left rfl (fun s t p hfocus => firing_next _ hfocus) fun p z hz => ?_
  simp only [hz.filter_elems, hz.length_elems, Nat.sub_self, List.replicate_zero, List.append_nil]
  rfl

theorem any_isSome {z : Lanes} {ys : List Nat} {p : Pairing} (hy : z.y = ys.map some) (hlen : ys.length = p.len) (hpos : 0 < p.len) :
    (z.y.any fun v => v.isSome) = true := by
  have hne : ys ≠ [] := List.length_pos_iff.mp (hlen ▸ hpos)
  simpa [hy] using List.exists_mem_of_ne_nil ys hne

theorem runsAs_shuf {w : DWord} {e : Claims.Run} (h : Claims.runs (.shuf w) = some e) : RunsAs (.shuf w) e := by
  cases h
  refine runsAs_of_both rfl (fun s t p hfocus => firing_next _ hfocus) fun p z ys hz hy hlen => ?_
  simp only [hz.some_eq, any_isSome hy hlen hz.pos, Bool.and_self]
  simp only [hy, List.map_map]
  rfl

theorem runsAs_expand {w : DWord} {e : Claims.Run} (h : Claims.runs (.expand w) = some e) : RunsAs (.expand w) e := by
  cases h
  refine runsAs_of_both rfl (fun s t p hfocus => firing_next _ hfocus) fun p z ys hz hy hlen => ?_
  have hkeep : expandLanes z.x z.y 0 = z.x := by
    rw [hy, expandLanes_present, hlen, ← hz.length_elems]
    exact List.ext_getElem (by simp) fun i hi _ => by
      have hi : i < z.x.length := by simpa using hi
      simp [hi]
  simp only [hz.some_eq, any_isSome hy hlen hz.pos, hkeep, Bool.and_self]
  rfl

theorem runsAs_of_runs {i : Instr} {e : Claims.Run} (h : Claims.runs i = some e) : RunsAs i e := by
  cases i
  case rsum => exact runsAs_rsum h
  case rscan => exact runsAs_rscan h
  case rmax => exact runsAs_rmax h
  case rmin => exact runsAs_rmin h
  case rargmx => exact runsAs_rargmx h
  case bits => exact runsAs_bits h
  case rpop => exact runsAs_rpop h
  case bcast => exact runsAs_bcast h
  case rotl => exact runsAs_rotl h
  case compact => exact runsAs_compact h
  case shuf => exact runsAs_shuf h
  case expand => exact runsAs_expand h
  all_goals cases h

theorem runResults : Claims.RunResults := by
  intro s t p i e h hfocus hpos hlen hl hfmt hlt hr hform
  exact runsAs_of_runs h s t p hfocus
    { pos := hpos, len := hlen, full := hl, left := rfl, elems := lanes_x .., form := hform
      fits := by simpa [Pairing.lefts] using hlt } hfmt hr

end Sys2Proof.Machine

/-! PROOFS. RTOP2 and the accumulating RSUM on integers (R159, R160). -/

namespace Sys2Proof.Machine

/-! ## The two greatest (R160) -/

theorem intAt_lefts {p : Pairing} {j : Nat} (fmt : Nat) (hj : j < p.len) : intAt fmt p.lefts j = ival fmt (p.left.elem j) := by
  simp [intAt, Pairing.lefts, hj]

/-- A run of two integers or more has a greatest, and a greatest of the rest. -/
theorem greatestAt_two {fmt : Nat} (hint : fmtInt fmt = true) (mode : Nat) {l : List Nat} (hlen : 2 ≤ l.length) :
    ∃ a b, greatestAt fmt mode (l.map some) none = some a ∧ greatestAt fmt mode (l.map some) (some a) = some b ∧
      (a < l.length ∧ ∀ j < l.length, intAt fmt l j ≤ intAt fmt l a ∧ (j < a → intAt fmt l j < intAt fmt l a)) ∧
      (b < l.length ∧ a ≠ b ∧ ∀ j < l.length, j ≠ a → intAt fmt l j ≤ intAt fmt l b) := by
  have hfirst := greatestAt_int hint mode l none
  cases ha : greatestAt fmt mode (l.map some) none with
  | none =>
    rw [ha] at hfirst
    exact absurd (hfirst 0 (by omega)) nofun
  | some a =>
    rw [ha] at hfirst
    obtain ⟨halt, -, hgreatest⟩ := hfirst
    have hsecond := greatestAt_int hint mode l (some a)
    cases hb : greatestAt fmt mode (l.map some) (some a) with
    | none =>
      rw [hb] at hsecond
      have h0 : a = 0 := Option.some.inj (hsecond 0 (by omega))
      have h1 : a = 1 := Option.some.inj (hsecond 1 (by omega))
      omega
    | some b =>
      rw [hb] at hsecond
      obtain ⟨hblt, hne, hrest⟩ := hsecond
      exact ⟨a, b, rfl, hb, ⟨halt, fun j hj => hgreatest j hj nofun⟩, hblt, fun h => hne (congrArg some h),
        fun j hj hja => (hrest j hj fun h => hja (Option.some.inj h).symm).1⟩

/-- A result of two elements over a pairing's tags. -/
theorem Res.token_pair (p : Pairing) (fwd : Bool) (f : Fmt) (sc : Int) (x y : Nat) (own : Bool) :
    Res.token { fmt := f, scale := sc, vals := [some x, some y], own := own } p fwd = some (Claims.fullRun p f sc [x, y]) :=
  Res.tokenAt_present _ [x, y] rfl (List.cons_ne_nil _ _) ..

theorem fullRun_wraps (p : Pairing) (f : Fmt) (sc : Int) (l : List Nat) :
    (Claims.fullRun p f sc l).wraps = decide (2 ^ 32 < p.itag.toNat + l.length) := Token.wraps_of_run (.inl rfl)

section
variable {s : State} {t : Nat} {p : Pairing} {w : DWord} (hfocus : s.focus = .firing t p) (hl : Claims.Full p.left p)
  (hfmt : p.left.fmt = w.fmt) (hint : fmtInt w.fmt.toNat = true)
include hfocus hl hfmt hint

theorem exec_rtop2_of_greatest {a b : Nat} (ha : a < p.len) (hb : b < p.len)
    (hfirst : greatestAt w.fmt.toNat (s.ctx p.ctx).mode.toNat (p.lefts.map some) none = some a)
    (hsecond : greatestAt w.fmt.toNat (s.ctx p.ctx).mode.toNat (p.lefts.map some) (some a) = some b) :
    exec (.rtop2 w) s = .next
      (Claims.sentTo ((s.hold t (Hold.reduce.cycles w.fmt.toNat p.len)).addFlags p.ctx 0) t p (s.targets t w.nt w.t1 w.t0) w.fmt 2
        [{ ix := 0, tgt := w.t0, tok := Claims.fullRun p w.fmt p.left.scale.toInt [p.left.elem a, p.left.elem b] },
         { ix := 1, tgt := w.t1, tok := Claims.fullRun p 11 0 [a, b] }]) := by
  have hok : sameFmt w false p.left p.right = none := sameFmt_none (congrArg _ hfmt) nofun
  have helem (j : Nat) (hj : j < p.len) : ((p.lefts.map some).getD j none).getD 0 = p.left.elem j := by simp [Pairing.lefts, hj]
  have hself (e : Nat) : (pickElem w.fmt.toNat (s.ctx p.ctx).mode.toNat true e e).1 = e :=
    (picksBy_max hint _ e e).1.elim id id
  have hmode : (Claims.lanes s t p w false).mode = (s.ctx p.ctx).mode.toNat := rfl
  refine (firing_next _ hfocus).trans (congrArg _ ?_)
  rw [State.withLanes_eq_lanes (two := false) hl nofun hok]
  simp only [lanes_x, hmode, hfirst, hsecond, reduceCtorEq, if_false, Option.map_some, helem a ha, helem b hb, hself, Res.token_pair,
    snanFlags_of_int hint]
  exact State.wrapOr_eq_sentTo (by simp [fullRun_wraps])

end

theorem topTwo : Claims.TopTwo := by
  intro s t p w hfocus hlen _ hl hfmt hint
  obtain ⟨a, b, hfirst, hsecond, ⟨ha, hgreatest⟩, hb, hne, hrest⟩ :=
    greatestAt_two hint (s.ctx p.ctx).mode.toNat (l := p.lefts) (by simpa using hlen)
  rw [Pairing.lefts_length] at ha hb hgreatest hrest
  have hat (j : Nat) (hj : j < p.len) := intAt_lefts w.fmt.toNat hj
  refine ⟨a, b, ha, hb, hne, fun j hj => ?_, fun j hj hja => ?_, fun j hj => ?_,
    exec_rtop2_of_greatest hfocus hl hfmt hint ha hb hfirst hsecond⟩
  · rw [← hat j hj, ← hat a ha]
    exact (hgreatest j hj).1
  · rw [← hat j hj, ← hat b hb]
    exact hrest j hj hja
  · rw [← hat j (hj.trans ha), ← hat a ha]
    exact (hgreatest j (hj.trans ha)).2 hj

/-! ## The accumulation register (R159) -/

theorem assocSet_assocSet {α : Type} (a : Assoc α) (i : Nat) (v u : α) : assocSet (assocSet a i v) i u = assocSet a i u := by
  induction a with
  | nil => simp [assocSet]
  | cons q rest ih =>
    obtain ⟨k, x⟩ := q
    by_cases hk : k = i
    · simp [assocSet, hk]
    · by_cases hlt : i < k
      · simp [assocSet, hk, hlt]
      · simp [assocSet, hk, hlt, ih]

theorem State.setTile_setTile (s : State) (t : Nat) (x y : Tile) : (s.setTile t x).setTile t y = s.setTile t y := by
  simp [State.setTile, assocSet_assocSet]

section
variable {x : Tile} {c slot : Nat}

/-- The register that a firing adds to: the one taken, or a new one. -/
def Tile.total (x : Tile) (c slot : Nat) : AccReg := (x.accReg c slot).getD { ctx := c, slot := slot }

theorem Tile.total_place (x : Tile) (c slot : Nat) : (x.total c slot).ctx = c ∧ (x.total c slot).slot = slot := by
  unfold Tile.total
  cases h : x.accReg c slot with
  | none => exact ⟨rfl, rfl⟩
  | some a => simpa using List.find?_some h

theorem Tile.total_takeAccReg (x : Tile) (c slot : Nat) : (x.takeAccReg c slot).total c slot = x.total c slot := by
  unfold Tile.takeAccReg
  split
  · rfl
  · next h =>
    have hnone : x.accReg c slot = none := by simpa using h
    have hrest : (x.accs.filter fun b => !(b.ctx = c && b.slot = slot)).find? (fun a => a.ctx = c && a.slot = slot) = none :=
      List.find?_eq_none.mpr fun b hb hat => by simp only [List.mem_filter, hat, Bool.not_true, Bool.false_eq_true, and_false] at hb
    have htaken : (x.setAccReg { ctx := c, slot := slot }).accReg c slot = some { ctx := c, slot := slot } := by
      rw [Tile.accReg, Tile.setAccReg, List.find?_append, hrest]
      simp
    rw [Tile.total, Tile.total, htaken, hnone]
    rfl

/-- Taking the register first changes nothing about what is written to it. -/
theorem Tile.setAccReg_takeAccReg {a : AccReg} (hc : a.ctx = c) (hslot : a.slot = slot) :
    (x.takeAccReg c slot).setAccReg a = x.setAccReg a := by
  unfold Tile.takeAccReg
  split
  · rfl
  · simp [Tile.setAccReg, hc, hslot, List.filter_append, List.filter_filter]

theorem Tile.takeAccReg_of_isSome (h : (x.accReg c slot).isSome = true) : x.takeAccReg c slot = x := if_pos h

theorem Tile.takeAccReg_block (x : Tile) (c slot : Nat) : (x.takeAccReg c slot).block = x.block := by
  unfold Tile.takeAccReg
  split <;> rfl

end

/-! ## The accumulating form (R159) -/

/-- On integers the register takes the run's sum at the width, and keeps L's scale or refuses another. -/
theorem accumulate_of_int {w : DWord} {z : Lanes} {l : List Nat} {a : AccReg} (hint : fmtInt w.fmt.toNat = true)
    (hx : z.x = l.map some) (hne : l ≠ []) (hlen : l.length ≤ 32) :
    accumulate w z a =
      if a.scale = none ∨ a.scale = some z.l.scale then
        some ({ a with total := BitVec.ofNat 64 ((a.total.toNat + l.sum) % 2 ^ fmtBits w.fmt.toNat), scale := some z.l.scale }, 0)
      else none := by
  obtain ⟨v, hv, hmod, -⟩ := treeSum_of_int hint hx hne hlen
  have htotal : (a.total.toNat + v) % 2 ^ fmtBits w.fmt.toNat = (a.total.toNat + l.sum) % 2 ^ fmtBits w.fmt.toNat :=
    Nat.ModEq.add_left _ hmod
  obtain ⟨c, n, total, scale⟩ := a
  simp only [accumulate, hv, not_fmtFloat_of_int hint, Option.getD_some, Bool.false_eq_true, if_false, htotal]
  cases scale with
  | none => simp
  | some sc =>
    by_cases hsc : sc = z.l.scale
    · simp [hsc]
    · simp [hsc]

theorem State.updTile_updTile (s : State) (t : Nat) (f g : Tile → Tile) :
    (s.updTile t f).updTile t g = s.updTile t fun x => g (f x) := by
  simp only [State.updTile_eq, State.setTile_setTile, State.tile_setTile]

theorem State.tile_hold (s : State) (t n : Nat) : (s.hold t n).tile t = { s.tile t with lastRound := s.cycle + (n - 1) } := by
  rw [State.hold, State.updTile_eq, State.tile_setTile]

/-- The register is taken before the hold or after it. -/
theorem State.hold_takeAccReg (s : State) (t c slot n : Nat) :
    (s.updTile t fun x => x.takeAccReg c slot).hold t n = (s.hold t n).updTile t fun x => x.takeAccReg c slot := by
  have htile (x : Tile) (m : Nat) : { x.takeAccReg c slot with lastRound := m } = ({ x with lastRound := m } : Tile).takeAccReg c slot := by
    by_cases h : (x.accReg c slot).isSome = true
    · rw [Tile.takeAccReg_of_isSome h]
      exact (Tile.takeAccReg_of_isSome (x := { x with lastRound := m }) h).symm
    · rw [Tile.takeAccReg, if_neg h]
      exact (if_neg h).symm
  unfold State.hold
  rw [State.updTile_updTile, State.updTile_updTile]
  exact congrArg (s.updTile t) (funext fun x => htile x _)

/-- Where the tile has the register, a firing takes none. -/
theorem State.hold_takeAccReg_of_isSome {s : State} {t c slot : Nat} (n : Nat) (h : ((s.tile t).accReg c slot).isSome = true) :
    (s.updTile t fun x => x.takeAccReg c slot).hold t n = s.hold t n := by
  have htaken : (s.tile t).takeAccReg c slot = s.tile t := Tile.takeAccReg_of_isSome h
  unfold State.hold
  rw [State.updTile_updTile, State.updTile_eq, State.updTile_eq, htaken]
  rfl

section
variable {s : State} {t : Nat} {p : Pairing} {w : DWord} (hfocus : s.focus = .firing t p) (hpos : 0 < p.len) (hlen : p.len ≤ 32)
  (hkr : w.kr = 1) (hord : w.ord = 0) (hl : Claims.Full p.left p) (hfmt : p.left.fmt = w.fmt) (hint : fmtInt w.fmt.toNat = true)
include hfocus hpos hlen hkr hord hl hfmt hint

/-- A firing of the accumulating form on a whole run of integers, by what the register holds. -/
theorem exec_rsumAcc :
    exec (.rsum w) s = .next
      (let z := (s.updTile t fun x => x.takeAccReg p.ctx p.slot).hold t (Hold.reduce.cycles w.fmt.toNat p.len)
       let ts := s.targets t w.nt w.t1 w.t0
       let a := (s.tile t).total p.ctx p.slot
       let total := (a.total.toNat + p.lefts.sum) % 2 ^ fmtBits w.fmt.toNat
       if a.scale = none ∨ a.scale = some p.left.scale then
         ((z.updTile t fun x => x.setAccReg { a with total := BitVec.ofNat 64 total, scale := some p.left.scale }).addFlags p.ctx 0).emit
           t p.slot p.ctx p.itag.toNat (toAll ts (Claims.fullRun p w.fmt p.left.scale.toInt [total]))
       else z.fireFault t p ts w.fmt p.itag.toNat illScale.1 illScale.2) := by
  have hok : sameFmt w false p.left p.right = none := sameFmt_none (congrArg _ hfmt) nofun
  have hord : ¬ w.ord = 1 := by simp [hord]
  have htargets : (s.updTile t fun x => x.takeAccReg p.ctx p.slot).targets t w.nt w.t1 w.t0 = s.targets t w.nt w.t1 w.t0 := by
    simp only [State.targets, State.blockOf, State.updTile_eq, State.tile_setTile, Tile.takeAccReg_block]
  have hregister (n : Nat) : ((((s.updTile t fun x => x.takeAccReg p.ctx p.slot).hold t n).tile t).accReg p.ctx p.slot).getD
      { ctx := p.ctx, slot := p.slot } = (s.tile t).total p.ctx p.slot := by
    rw [State.hold_takeAccReg, State.updTile_eq, State.tile_setTile, State.tile_hold]
    exact Tile.total_takeAccReg ..
  have hleft : (Claims.lanes (s.updTile t fun x => x.takeAccReg p.ctx p.slot) t p w false).l = p.left := rfl
  have htotal (n : Nat) : (BitVec.ofNat 64 (n % 2 ^ fmtBits w.fmt.toNat)).toNat = n % 2 ^ fmtBits w.fmt.toNat := by
    have hlt : n % 2 ^ fmtBits w.fmt.toNat < 2 ^ 64 :=
      (Nat.mod_lt _ (Nat.two_pow_pos _)).trans_le (Nat.pow_le_pow_right (by decide) (fmtBits_le _))
    rw [BitVec.toNat_ofNat, Nat.mod_eq_of_lt hlt]
  have htag : p.itag.toNat + 1 ≤ 2 ^ 32 := p.itag.isLt
  refine (firing_next _ hfocus).trans (congrArg _ ((if_pos hkr).trans ?_))
  rw [State.rsumAcc, State.withLanes_eq_lanes (two := false) hl nofun hok, htargets]
  simp only [hregister, hleft, accumulate_of_int hint (lanes_x ..) (Pairing.lefts_ne_nil hpos) (p.lefts_length.trans_le hlen)]
  by_cases hscale : ((s.tile t).total p.ctx p.slot).scale = none ∨ ((s.tile t).total p.ctx p.slot).scale = some p.left.scale
  · simp only [if_pos hscale, if_neg hord, htotal, Option.getD_some]
    rw [State.emitRes_eq_fullRun (l := [_]) rfl (List.cons_ne_nil _ _)]
    exact if_pos htag
  · simp only [if_neg hscale]

end

theorem accumulatingSum : Claims.AccumulatingSum := by
  intro s t p w hfocus hpos hlen hkr hord hl hfmt hint a total z ts
  have hexec := exec_rsumAcc hfocus hpos hlen hkr hord hl hfmt hint
  obtain ⟨hctx, hslot⟩ := (s.tile t).total_place p.ctx p.slot
  refine ⟨fun hscale => hexec.trans (congrArg _ ((if_pos hscale).trans ?_)), fun sc hsc hne =>
    hexec.trans (congrArg _ ((if_neg ?_).trans ?_))⟩
  · rw [State.hold_takeAccReg, State.updTile_updTile]
    have hset : (fun x : Tile => (x.takeAccReg p.ctx p.slot).setAccReg { a with total := BitVec.ofNat 64 total, scale := some p.left.scale }) =
        fun x => x.setAccReg { a with total := BitVec.ofNat 64 total, scale := some p.left.scale } :=
      funext fun x => Tile.setAccReg_takeAccReg hctx hslot
    exact congrArg (fun f : Tile → Tile => ((z.updTile t f).addFlags p.ctx 0).emit t p.slot p.ctx p.itag.toNat
      (toAll ts (Claims.fullRun p w.fmt p.left.scale.toInt [total]))) hset
  · exact show ¬ (a.scale = none ∨ a.scale = some p.left.scale) by simp [hsc, hne]
  · have hregister : ((s.tile t).accReg p.ctx p.slot).isSome = true := by
      by_contra hnone
      have ha : a.scale = none := congrArg AccReg.scale (congrArg (Option.getD · _) (Option.not_isSome_iff_eq_none.mp hnone))
      exact absurd (ha.symm.trans hsc) nofun
    rw [State.hold_takeAccReg_of_isSome _ hregister]
    rfl

/-- Settles O22: the run instructions on whole runs, with the tree, the running sums and the searches of the executor read as sums
and extremes of integers. -/
theorem runInstructions : Obligations.RunInstructions := ⟨runResults, topTwo, accumulatingSum⟩

end Sys2Proof.Machine

/-! PROOFS. Matrix, Registrar and converter instructions on an L with every element (R163, R176, R182, R250, R260): each joins its
engine's queue, but MMSTAT, which is answered at once. -/

namespace Sys2Proof.Machine

/-! ## The lowest element of a whole operand (R109) -/

theorem Token.present_of_has_zero {a : Token} (h : a.has 0 = true) : ∃ rest, a.present = 0 :: rest := by
  have hpos : 0 < a.len := of_decide_eq_true (Bool.and_elim_left h)
  obtain ⟨n, hn⟩ := Nat.exists_eq_add_one.mpr hpos
  rw [Token.present, hn, List.range_succ_eq_map, List.filter_cons_of_pos h]
  exact ⟨_, rfl⟩

theorem Token.present_isEmpty_of_full {a : Token} {p : Pairing} (h : Claims.Full a p) (hpos : 0 < p.len) : a.present.isEmpty = false := by
  obtain ⟨rest, hrest⟩ := Token.present_of_has_zero (h.2 0 hpos)
  rw [hrest, List.isEmpty_cons]

theorem Token.lowest_of_full {a : Token} {p : Pairing} (h : Claims.Full a p) (hpos : 0 < p.len) : a.lowest = a.elem 0 := by
  obtain ⟨rest, hrest⟩ := Token.present_of_has_zero (h.2 0 hpos)
  rw [Token.lowest, hrest, List.headD_cons]

/-! ## Commands of a firing -/

/-- The command of a matrix instruction's pairing, for an accumulator handle. -/
def State.arrayCmdOf (s : State) (t : Nat) (p : Pairing) (w : EWord) (op : ArrayOp) (g : BitVec 32) : ArrayCmd :=
  { op := op, fmt := w.fmt.toNat, desc := s.konst t w.kidx.toNat, shape := s.konst t w.kidx.toNat, handle := g,
    src := .slot t p.slot p.left, ctx := p.ctx, tenant := (s.ctx p.ctx).tenant, itag := p.itag, l := p.left, r := p.right }

/-- The command of a Registrar instruction's pairing, which carries L's lowest element. -/
def State.regCmdOf (s : State) (t : Nat) (p : Pairing) (w : EWord) (op : RegOp) : RegCmd :=
  { op := op, desc := s.konst t w.kidx.toNat, code := s.konst t w.kidx.toNat % 8, value := p.left.elem 0,
    src := .slot t p.slot p.left, ctx := p.ctx, tenant := (s.ctx p.ctx).tenant, itag := p.itag }

section
variable {s : State} {t : Nat} {p : Pairing} {w : EWord} (hpos : 0 < p.len) (hl : Claims.Full p.left p)
include hpos hl

/-- On a whole L an engine instruction is its body, in the cycle that it holds its tile for. -/
theorem State.engineFire_of_full (out : Fmt) (body : State → List (Nat × BitVec 18) → Token → State) :
    s.engineFire t p w out body = body (s.hold t 1) (s.targets t w.nt w.t1 w.t0) p.left := by
  simp only [State.engineFire, if_neg hl.1, Token.present_isEmpty_of_full hl hpos, Bool.false_eq_true, if_false]

section
variable {op : ArrayOp} {out : Fmt} {handle : Token → Option Nat}

/-- A matrix instruction that names its accumulator joins the queue under that handle. -/
theorem State.arrayFire_of_handle {h : Nat} (hh : handle p.left = some h) :
    s.arrayFire t p w op out handle = (s.hold t 1).queueArray (clusterOf t) (s.arrayCmdOf t p w op (BitVec.ofNat 32 h)) := by
  rw [State.arrayFire, State.engineFire_of_full hpos hl]
  simp only [hh, State.hold_konst, State.hold_ctx, State.arrayCmdOf]

/-- One whose descriptor names it joins under the handle that stands there now (log entry 67). -/
theorem State.arrayFire_of_descriptor (hh : handle p.left = none) :
    s.arrayFire t p w op out handle = (s.hold t 1).queueArray (clusterOf t)
      (s.arrayCmdOf t p w op (s.peekHandle (clusterOf t) (s.konst t w.kidx.toNat))) := by
  rw [State.arrayFire, State.engineFire_of_full hpos hl]
  simp only [hh, State.hold_konst, State.hold_ctx, State.arrayCmdOf, State.peekHandle, State.hold_mem]

/-- ACCZ and ACCRD take the handle from L's lowest element. -/
theorem State.arrayFire_of_lowest :
    s.arrayFire t p w op out (fun l => some l.lowest) =
      (s.hold t 1).queueArray (clusterOf t) (s.arrayCmdOf t p w op (BitVec.ofNat 32 (p.left.elem 0))) :=
  State.arrayFire_of_handle hpos hl (congrArg some (Token.lowest_of_full hl hpos))

end

theorem State.regFire_of_full (op : RegOp) (out : Fmt) :
    s.regFire t p w op out = (s.hold t 1).queueReg (clusterOf t) (s.regCmdOf t p w op) := by
  rw [State.regFire, State.engineFire_of_full hpos hl]
  simp only [Token.lowest_of_full hl hpos, State.hold_konst, State.hold_ctx, State.regCmdOf]

end

/-! ## The instructions with operands or checks of their own (R182, R260) -/

/-- An array with no command and no held GIVE reports its two counters alone. -/
theorem State.arrayStat_of_idle {s : State} {c : Nat} (hqueue : (s.cluster c).array.queue = []) (hgives : (s.cluster c).array.gives = []) :
    s.arrayStat c = [0, (s.cluster c).array.done.toNat, (s.cluster c).array.busy.toNat, 0] := by
  simp [State.arrayStat, hqueue, hgives, List.range_succ]

theorem regFmt_eq (code : Nat) : regFmt code = if code = 0 ∨ code = 1 ∨ code = 4 then 1 else 11 := by
  simp [regFmt, or_assoc]

section
variable {s : State} {t : Nat} {p : Pairing} {w : EWord} (hfocus : s.focus = .firing t p) (hpos : 0 < p.len) (hl : Claims.Full p.left p)
include hfocus hpos hl

/-- ACCWR takes the handle from Rt's lowest element. -/
theorem exec_accwr (hr : Claims.Full p.right p) : exec (.accwr w) s =
    .next ((s.hold t 1).queueArray (clusterOf t) (s.arrayCmdOf t p w .accwr (BitVec.ofNat 32 (p.right.elem 0)))) := by
  refine (firing_next _ hfocus).trans (congrArg _ ?_)
  simp only [hr.1, Token.present_isEmpty_of_full hr hpos, decide_false, Bool.and_false, Bool.false_eq_true, if_false]
  exact State.arrayFire_of_handle hpos hl (congrArg some (Token.lowest_of_full hr hpos))

theorem exec_mmstat_of_idle (hqueue : (s.cluster (clusterOf t)).array.queue = []) (hgives : (s.cluster (clusterOf t)).array.gives = []) :
    exec (.mmstat w) s = .next (Claims.sentTo (s.hold t 1) t p (s.targets t w.nt w.t1 w.t0) 11 4
      (toAll (s.targets t w.nt w.t1 w.t0)
        { act := .normal, fmt := 11, len := 4, ctx := p.ctx, itag := p.itag, mask := 15,
          data := [0, (s.cluster (clusterOf t)).array.done.setWidth 64, (s.cluster (clusterOf t)).array.busy.setWidth 64, 0] })) := by
  refine (firing_next _ hfocus).trans (congrArg _ ?_)
  rw [State.engineFire_of_full hpos hl, State.emitRun_eq_sentTo (.inl rfl) rfl]
  have hword (b : BitVec 32) : BitVec.ofNat 64 (b.toNat % 2 ^ 32) = b.setWidth 64 := by
    rw [Nat.mod_eq_of_lt b.isLt, BitVec.ofNat_toNat]
  have hstat := State.arrayStat_of_idle (s := s.hold t 1) hqueue hgives
  rw [fourN32, hstat]
  simp only [List.map_cons, List.map_nil, hword]
  rfl

/-- AUCSTEP of an N32 run counts from 1 to 65536 rounds; any other L is the pairing's own fault. -/
theorem exec_aucstep : exec (.aucstep w) s = .next
    (if p.left.fmt ≠ 11 ∨ p.left.elem 0 = 0 ∨ 65536 < p.left.elem 0 then
      (s.hold t 1).slotFault t p.slot p.ctx (s.targets t w.nt w.t1 w.t0) 11 p.itag 1 p.itag.toNat 0x0B 0x02 0 0 0
    else (s.hold t 1).queueReg (clusterOf t) (s.regCmdOf t p w .aucstep)) := by
  refine (firing_next _ hfocus).trans (congrArg _ ?_)
  simp [hl.1, Token.present_isEmpty_of_full hl hpos, Token.lowest_of_full hl hpos, State.regFire_of_full hpos hl, or_assoc]

/-- AUCSET joins the queue where the register takes L's value in L's format, and else is a Reg fault. -/
theorem exec_aucset : let code := s.konst t w.kidx.toNat % 8
    exec (.aucset w) s = .next
      (if p.left.fmt ≠ regFmt code ∨ ((s.cluster (clusterOf t)).registrar.write code (p.left.elem 0)).isSome = false then
        (s.hold t 1).slotFault t p.slot p.ctx (s.targets t w.nt w.t1 w.t0) p.left.fmt p.itag p.len p.itag.toNat 0x0B 0x11 0 0 0
      else (s.hold t 1).queueReg (clusterOf t) (s.regCmdOf t p w .aucset)) := by
  refine (firing_next _ hfocus).trans (congrArg _ ?_)
  simp [hl.1, Token.present_isEmpty_of_full hl hpos, Token.lowest_of_full hl hpos, State.regFire_of_full hpos hl]

end

/-- Settles O32: on a whole L each instruction is one command put into its engine's queue, or, where its own check fails, a fault. -/
theorem engineInstructionsQueue : Obligations.EngineInstructionsQueue := by
  intro s t p w hfocus hpos _ hl c k h z array registrar node
  have hstep (i : Instr) {f : Nat → Pairing → State} (hi : exec i s = firing s f) {y : State} (hy : f t p = y) :
      exec i s = .next y := hi.trans ((firing_next f hfocus).trans (congrArg _ hy))
  have hrounds := exec_aucstep (w := w) hfocus hpos hl
  have hset := exec_aucset (w := w) hfocus hpos hl
  simp only [regFmt_eq] at hset
  exact ⟨hstep _ rfl (State.arrayFire_of_descriptor hpos hl rfl), hstep _ rfl (State.arrayFire_of_descriptor hpos hl rfl),
    hstep _ rfl (State.arrayFire_of_lowest hpos hl), hstep _ rfl (State.arrayFire_of_lowest hpos hl),
    exec_accwr hfocus hpos hl, exec_mmstat_of_idle hfocus hpos hl,
    hstep _ rfl (State.regFire_of_full hpos hl ..),
    fun hfmt hlow hhigh => hrounds.trans (congrArg _ (if_neg
      (not_or.mpr ⟨not_not.mpr hfmt, not_or.mpr ⟨Nat.one_le_iff_ne_zero.mp hlow, not_lt.mpr hhigh⟩⟩))),
    fun hbad => hrounds.trans (congrArg _ (if_pos hbad)),
    fun hfmt hwrite => hset.trans (congrArg _ (if_neg (not_or.mpr ⟨not_not.mpr hfmt, ne_false_of_eq_true hwrite⟩))),
    fun hbad => hset.trans (congrArg _ (if_pos hbad)),
    hstep _ rfl (State.regFire_of_full hpos hl ..), hstep _ rfl (State.regFire_of_full hpos hl ..),
    hstep _ rfl rfl, hstep _ rfl rfl, hstep _ rfl rfl, hstep _ rfl rfl, hstep _ rfl rfl⟩

end Sys2Proof.Machine

/-! PROOFS. Matrix events (R176, R180 to R182, R344): commands and rows start, and commands complete. A write of ACCWR is read through
the cells that its elements go to. -/

namespace Sys2Proof.Machine

/-! ## The cells of an accumulator (R175) -/

theorem Acc.at_put_self (x : Acc) (r c : Nat) (v : Word) : (x.put r c v.toNat).at_ r c = v.toNat := by
  rw [Acc.put, Acc.at_, assocGet_set_self, BitVec.ofNat_toNat, BitVec.setWidth_eq]

/-- Two cells within the 64 columns are stored apart. -/
theorem Acc.at_put_other (x : Acc) {r c r' c' : Nat} (v : Nat) (hc : c < 64) (hc' : c' < 64) (hne : ¬ (r' = r ∧ c' = c)) :
    (x.put r' c' v).at_ r c = x.at_ r c := by
  rw [Acc.put, Acc.at_, assocGet_set_other _ _ _ _ _ (by omega), Acc.at_]

/-- The elements of a run, at the places given, put into the cells of their tags (R182). -/
def ArrayCmd.putElems (q : ArrayCmd) (is : List Nat) (x : Acc) : Acc :=
  is.foldl (fun z i => z.put ((q.itag.toNat + i) / 64 % 32) ((q.itag.toNat + i) % 64) (q.l.elem i)) x

theorem ArrayCmd.putElems_kind (q : ArrayCmd) (is : List Nat) (x : Acc) : (q.putElems is x).kind = x.kind := by
  induction is generalizing x with
  | nil => rfl
  | cons i is ih => exact ih _

theorem ArrayCmd.putElems_at_other (q : ArrayCmd) {is : List Nat} (x : Acc) {r c : Nat} (hc : c < 64)
    (hne : ∀ i ∈ is, ¬ ((q.itag.toNat + i) / 64 % 32 = r ∧ (q.itag.toNat + i) % 64 = c)) : (q.putElems is x).at_ r c = x.at_ r c := by
  induction is generalizing x with
  | nil => rfl
  | cons j is ih =>
    obtain ⟨hj, his⟩ := List.forall_mem_cons.mp hne
    exact (ih _ his).trans (Acc.at_put_other x _ hc (Nat.mod_lt _ (by decide)) hj)

/-- Places of a run of at most 2048 elements have cells of their own, so none is overwritten. -/
theorem ArrayCmd.putElems_at_self (q : ArrayCmd) {is : List Nat} (x : Acc) {i : Nat} (hi : i ∈ is) (hlt : ∀ j ∈ is, j < 2048) :
    (q.putElems is x).at_ ((q.itag.toNat + i) / 64 % 32) ((q.itag.toNat + i) % 64) = q.l.elem i := by
  have hi2048 := hlt i hi
  induction is generalizing x with
  | nil => exact absurd hi List.not_mem_nil
  | cons j is ih =>
    obtain ⟨hj, his⟩ := List.forall_mem_cons.mp hlt
    by_cases hmem : i ∈ is
    · exact ih _ hmem his
    · obtain rfl : i = j := (List.mem_cons.mp hi).resolve_right hmem
      have hapart : ∀ k ∈ is, ¬ ((q.itag.toNat + k) / 64 % 32 = (q.itag.toNat + i) / 64 % 32 ∧
          (q.itag.toNat + k) % 64 = (q.itag.toNat + i) % 64) := by
        intro k hk hcell
        have hk2048 := his k hk
        exact hmem ((show k = i by omega) ▸ hk)
      exact (q.putElems_at_other _ (Nat.mod_lt _ (by decide)) hapart).trans (Acc.at_put_self ..)

theorem Token.mem_present {l : Token} {i : Nat} : i ∈ l.present ↔ i < l.len ∧ l.has i = true := by
  rw [Token.present, List.mem_filter, List.mem_range]

/-- ACCWR into an accumulator of kind F32 as it stands: the kind and the columns hold (R175). -/
theorem accWrite_f32 {q : ArrayCmd} {x : Acc} (tick : Nat) (hfmt : q.fmt = q.l.fmt.toNat) (hkind : kindOf q.fmt = .f32) (hx : x.kind = .f32) :
    accWrite q x tick = .ok (q.putElems q.l.present x) := by
  have hretyped : x.retyped (kindOf q.fmt) tick = x := if_pos (hx.trans hkind.symm)
  have hcolumns : (q.l.present.any fun i => decide (x.kind.columns ≤ (q.itag.toNat + i) % 64)) = false :=
    List.any_eq_false.mpr fun i _ => by simp [hx, AccKindM.columns, Nat.mod_lt]
  have hkeeps : ({ x with scale := if x.kind = .i32 then some q.l.scale.toInt else x.scale } : Acc) = x := by
    rw [if_neg (hx ▸ nofun)]
  simp only [accWrite, hretyped, hcolumns, hkeeps, ArrayCmd.putElems]
  simp [hfmt, hx]

/-! ## Starts (R176, R181) -/

section
variable {s y : State} {u k : Nat} {q : ArrayCmd}

section
variable (hfocus : s.focus = .event u k) (hq : (s.cluster u).array.queue[k]? = some q) (hmay : s.mayStart u k q = true)
include hfocus hq hmay

/-- A command that names its accumulator itself starts once the handle passes its checks. -/
theorem exec_arrayCommandStart_of_handle (hop : q.op = .accz ∨ q.op = .accrd ∨ q.op = .accwr)
    (hcheck : s.accCheck u q.handle.toNat q.ctx (decide (q.op ≠ .accrd)) = none) :
    exec .arrayCommandStart s = .next (s.setArrayCmd u k { q with started := true }) := by
  have hmma : q.op ≠ .mma := by rintro h; simp [h] at hop
  have hmmac : q.op ≠ .mmac := by rintro h; simp [h] at hop
  show execArrayCommandStart s = _
  simp only [execArrayCommandStart, hfocus, hq, hmay, hmma, hmmac, hcheck, decide_false, Bool.not_true, Bool.or_false,
    Bool.false_eq_true, if_false]

theorem exec_arrayCommandStart_of_mma {q' : ArrayCmd} (hop : q.op = .mma) (hopen : s.openMma u q = .ok (q', y)) :
    exec .arrayCommandStart s = .next (y.setArrayCmd u k q') := by
  show execArrayCommandStart s = _
  simp [execArrayCommandStart, hfocus, hq, hmay, hop, hopen]

end

/-- A command opens with the format and descriptor that its checks give. -/
theorem State.openMma_of_check {bs : List Byte} {fa : Nat} {d : MDesc} (hread : s.readCommons u q.tenant q.desc 32 = .ok (bs, y))
    (hcheck : y.checkMma u q bs = .ok (fa, d)) :
    s.openMma u q = .ok ({ q with fmt := fa, d := d, handle := d.acch, started := true }, y) := by
  simp only [State.openMma, hread, hcheck]

/-- A group within the mesh, each member within the region: the executor's check, as it computes it (R181). -/
theorem State.group_inside {d : MDesc} (ctx : Nat) (hwest : d.gx ≤ u % 32) (hnorth : d.gy ≤ u / 32)
    (hregion : ∀ i < d.gw, ∀ j < d.gh, s.memberOk ctx (u % 32 - d.gx + i) (u / 32 - d.gy + j) = true) :
    (decide (d.gx ≤ u % 32) && decide (d.gy ≤ u / 32) && (List.range d.gw).all fun i => (List.range d.gh).all fun j =>
      s.memberOk ctx (u % 32 - d.gx + i) (u / 32 - d.gy + j)) = true := by
  simpa [hwest, hnorth] using hregion

end

/-! ## Completion (R180, R182) -/

/-- The executor's guard, as it computes it: no command before one has started on its accumulator. -/
theorem none_started_before {zs : List ArrayCmd} {g : BitVec 32}
    (h : ∀ z ∈ zs, hSlot z.handle.toNat ≠ hSlot g.toNat ∨ z.started = false) :
    (zs.all fun z => decide (hSlot z.handle.toNat ≠ hSlot g.toNat) || !z.started) = true :=
  List.all_eq_true.mpr fun z hz => by simpa using h z hz

section
variable {s : State} {u k : Nat} {q : ArrayCmd} (hfocus : s.focus = .event u k)
  (hq : (s.cluster u).array.queue[k]? = some q) (hstarted : q.started = true)
  (hfirst : ((s.cluster u).array.queue.take k).all (fun z => decide (hSlot z.handle.toNat ≠ hSlot q.handle.toNat) || !z.started) = true)
include hfocus hq hstarted hfirst

theorem exec_arrayCommandComplete_accz (hop : q.op = .accz) : exec .arrayCommandComplete s =
    .next ((s.setAcc u q.handle.toNat { kind := kindOf q.fmt }).completeAcc u k q [q.l]) := by
  show execArrayCommandComplete s = _
  simp only [execArrayCommandComplete, hfocus, hq, hstarted, hfirst, hop, Bool.not_true, Bool.or_false,
    Bool.false_eq_true, if_false]

theorem exec_arrayCommandComplete_accrd (hop : q.op = .accrd) : exec .arrayCommandComplete s =
    .next (s.completeAcc u k q (accRuns q ((s.cluster u).array.acc q.handle.toNat))) := by
  show execArrayCommandComplete s = _
  simp only [execArrayCommandComplete, hfocus, hq, hstarted, hfirst, hop, Bool.not_true, Bool.or_false,
    Bool.false_eq_true, if_false]

theorem exec_arrayCommandComplete_accwr {x : Acc} (hop : q.op = .accwr)
    (hwrite : accWrite q ((s.cluster u).array.acc q.handle.toNat) s.tick = .ok x) : exec .arrayCommandComplete s =
    .next ((({ s with tick := s.tick + 2048 } : State).setAcc u q.handle.toNat x).completeAcc u k q
      [{ q.l with act := .normal, fmt := 11, scale := 0,
                  data := (List.range q.l.len).map fun i => if q.l.has i then BitVec.ofNat 64 q.handle.toNat else 0 }]) := by
  show execArrayCommandComplete s = _
  simp only [execArrayCommandComplete, hfocus, hq, hstarted, hfirst, hop, hwrite, Bool.not_true, Bool.or_false,
    Bool.false_eq_true, if_false]

theorem exec_arrayCommandComplete_of_multiplies (hop : q.op = .mma ∨ q.op = .mmac) :
    exec .arrayCommandComplete s = .next (s.completeMma u k q) := by
  show execArrayCommandComplete s = _
  obtain hop | hop := hop
  all_goals simp only [execArrayCommandComplete, hfocus, hq, hstarted, hfirst, hop, Bool.not_true, Bool.or_false,
    Bool.false_eq_true, if_false]

end

/-- A product whose rows of A are there, without a fault, goes into its accumulator, and the handle is its result. -/
theorem State.completeMma_of_rows {s z : State} {u k : Nat} {q : ArrayCmd} {rows : List (List (List Byte))} {x : Acc} {fl : Nat}
    (hready : q.op = .mmac → q.passed.isSome = true) (hrows : s.rowsOf u q = ((rows, none), z))
    (hsum : z.sum u q.fmt q.ctx q.d rows = .ok x fl) :
    s.completeMma u k q = ((((z.setAcc u q.d.acch.toNat x).addFlags q.ctx fl).countMma u q).countMacs q).completeAcc u k q
      [oneN32 q.ctx q.itag q.d.acch.toNat] := by
  have hwaits : (q.op = .mmac && q.d.gx ≠ 0 && q.passed.isNone) = false := by
    by_cases hop : q.op = .mmac
    · simp [Option.isNone_eq_false_iff.mpr (hready hop)]
    · simp [hop]
  simp only [State.completeMma, hwaits, hrows, hsum, Bool.false_eq_true, if_false]
  rfl

theorem State.rowsOf_of_passed {s : State} {u : Nat} {q : ArrayCmd} {z : List (List (List Byte)) × Option OperandFault}
    (hpassed : q.passed = some z) : s.rowsOf u q = (z, s) := by
  simp only [State.rowsOf, hpassed]

theorem State.rowsOf_of_mma {s : State} {u : Nat} {q : ArrayCmd} (hop : q.op = .mma) (hpassed : q.passed = none) :
    s.rowsOf u q = s.rowsAt u q := by
  simp only [State.rowsOf, hpassed, hop, reduceCtorEq, if_false]

/-- Settles O35: each event is the branch of its executor that the command's operation and checks choose; ACCWR's elements all have
cells of their own, so that each is read back where it was written. -/
theorem matrixEvents : Obligations.MatrixEvents := by
  intro s u k q hfocus hq h x gone macs
  have hmacs (y : State) : macs y = y.countMacs q := by
    dsimp only [macs, State.countMacs]
    cases mclass q.fmt with
    | none => rfl
    | some c => cases c <;> rfl
  refine ⟨fun _ hmay => ⟨exec_arrayCommandStart_of_handle hfocus hq hmay, fun hop bs y fa d hread hcheck =>
    exec_arrayCommandStart_of_mma hfocus hq hmay hop (State.openMma_of_check hread hcheck)⟩, ?row, ?_⟩
  case row =>
    intro _ hhead bs z ms opened y hread d hwest hnorth hgx hgy hregion hmembers hopen hagree hbeside
    subst d
    have hinside := State.group_inside q.ctx hwest hnorth hregion
    have hmember : (decide ((mdescOf bs).gw ≤ (mdescOf bs).gx) || decide ((mdescOf bs).gh ≤ (mdescOf bs).gy)) = false := by
      simp [hgx, hgy]
    have hothers : (opened.flatMap y.discord).isEmpty = true := List.isEmpty_iff.mpr (List.flatMap_eq_nil_iff.mpr hbeside)
    show execMmacRowStart s = _
    simp only [execMmacRowStart, hfocus, hhead, hread, hinside, hmember, hmembers, hopen, List.all_eq_true.mpr hagree, hothers, Bool.not_true,
      Bool.false_eq_true, if_true, if_false]
  intro hstarted hbefore
  have hfirst := none_started_before hbefore
  refine ⟨exec_arrayCommandComplete_accz hfocus hq hstarted hfirst, exec_arrayCommandComplete_accrd hfocus hq hstarted hfirst,
    ?accwr, ?mma, ?mmac⟩
  case accwr =>
    intro hop hfmt hkind hx
    refine ⟨q.putElems q.l.present x, (q.putElems_kind _ x).trans hx,
      exec_arrayCommandComplete_accwr hfocus hq hstarted hfirst hop (accWrite_f32 _ hfmt hkind hx), fun hlen i hi hhas => ?_,
      fun r _ c hc hfree => q.putElems_at_other x hc fun i hi => ?_⟩
    · refine q.putElems_at_self x (Token.mem_present.mpr ⟨hi, hhas⟩) fun j hj => ?_
      exact (Token.mem_present.mp hj).1.trans_le (hlen.trans (by decide))
    · obtain ⟨hi, hhas⟩ := Token.mem_present.mp hi
      exact hfree i hi hhas
  case mma =>
    intro hop hpassed rows z y fl hrows hsum
    rw [hmacs]
    exact (exec_arrayCommandComplete_of_multiplies hfocus hq hstarted hfirst (.inl hop)).trans
      (congrArg _ (State.completeMma_of_rows (by simp [hop]) ((State.rowsOf_of_mma hop hpassed).trans hrows) hsum))
  case mmac =>
    intro hop rows y fl hpassed hsum
    rw [hmacs]
    exact (exec_arrayCommandComplete_of_multiplies hfocus hq hstarted hfirst (.inr hop)).trans
      (congrArg _ (State.completeMma_of_rows (by simp [hpassed]) (State.rowsOf_of_passed hpassed) hsum))

end Sys2Proof.Machine

/-! PROOFS. Streamer instructions on an L with every element (R190, R195, R198, R199, R201): a command is accepted with its
descriptor, a template is bound or left, and an AGN's status is sent. -/

namespace Sys2Proof.Machine

/-! ## Acceptance of a command (R187, R188, R201) -/

@[simp] theorem State.hold_slotCmd (s : State) (t n : Nat) (p : Pairing) (w : EWord) (op : StreamOp) (l : Token) :
    (s.hold t n).slotCmd t p w op l = s.slotCmd t p w op l := rfl

section
variable {s y : State} {c va : Nat} {q q' : StreamCmd}

/-- A command whose descriptor passes its checks joins the streamer's queue in this cycle. -/
theorem State.acceptStream_of_openDesc (hopen : s.openDesc c va q false = .ok (q', y)) :
    s.acceptStream c va q = y.setStreamer c { (y.cluster c).streamer with
      queue := (y.cluster c).streamer.queue ++ [{ q' with born := y.cycle }] } := by
  simp only [State.acceptStream, hopen]

/-- A free template and a free channel are bound to each other. -/
theorem State.bindTemplate_of_free (htmpl : assocHas (s.cluster c).streamer.templates q.d.tmpl = false)
    (hchan : assocGet Chan.none (s.cluster c).streamer.chans q.d.chan = .none) :
    s.bindTemplate c q = some (s.setStreamer c { (s.cluster c).streamer with
      templates := assocSet (s.cluster c).streamer.templates q.d.tmpl { cmd := q, chan := q.d.chan },
      chans := assocSet (s.cluster c).streamer.chans q.d.chan (.template q.d.tmpl) }) := by
  simp [State.bindTemplate, htmpl, hchan]

/-- ARM binds, and its source then has its result. -/
theorem State.acceptArm_of_bindTemplate {z : State} (hopen : s.openDesc c va q true = .ok (q', y))
    (hbind : y.bindTemplate c q' = some z) : s.acceptArm c va q = z.disarmed q'.ctx q'.src := by
  simp only [State.acceptArm, hopen, hbind]

/-- DISARM of a template that is not bound has its result at once (log entry 23). -/
theorem State.acceptDisarm_of_unbound {bs : List Byte} (halign : va % 128 = 0) (hread : s.readCommons c q.tenant va 128 = .ok (bs, y))
    (hdesc : ({ q with d := descOf bs } : StreamCmd).descOk bs true = true)
    (htmpl : assocHas (y.cluster c).streamer.templates (descOf bs).tmpl = false) :
    s.acceptDisarm c va q = y.disarmed q.ctx q.src := by
  simp [State.acceptDisarm, halign, hread, hdesc, htmpl]

end

/-! ## The status of an AGN (R198) -/

section
variable {s : State} {c a : Nat}

theorem State.agnStat_of_free (h : assocHas (s.cluster c).streamer.agns a = false) :
    s.agnStat c a = [0, (assocGet {} (s.cluster c).streamer.agns a).cursor, (assocGet {} (s.cluster c).streamer.agns a).cmd.d.citag.toNat,
      (s.cluster c).streamer.queue.length] := by
  simp [State.agnStat, h]

theorem State.agnStat_of_resume (h : assocHas (s.cluster c).streamer.agns a = true)
    (hstall : (assocGet {} (s.cluster c).streamer.agns a).stall = .resume) :
    s.agnStat c a = [2, (assocGet {} (s.cluster c).streamer.agns a).cursor, (assocGet {} (s.cluster c).streamer.agns a).cmd.d.citag.toNat,
      (s.cluster c).streamer.queue.length] := by
  simp only [State.agnStat, h, hstall, Bool.not_true, Bool.false_eq_true, if_false, if_true]

/-- CPSTOP leaves an AGN of another context alone. -/
theorem State.stopAgn_of_ctx_ne {ctx : Nat} (h : (assocGet {} (s.cluster c).streamer.agns a).cmd.ctx ≠ ctx) : s.stopAgn c a ctx = s :=
  if_pos (Bool.or_eq_true_iff.mpr (.inr (decide_eq_true h)))

end

/-! ## Firings on a whole L (R199) -/

section
variable {s : State} {t : Nat} {p : Pairing} {w : EWord} (hpos : 0 < p.len) (hl : Claims.Full p.left p)
include hpos hl

theorem State.streamFire_of_full (op : StreamOp) :
    s.streamFire t p w op = (s.hold t 1).acceptStream (clusterOf t) (s.konst t w.kidx.toNat) (s.slotCmd t p w op p.left) := by
  rw [State.streamFire, State.engineFire_of_full hpos hl, State.hold_konst, State.hold_slotCmd]

variable (hfocus : s.focus = .firing t p)
include hfocus

theorem exec_arm_of_full : exec (.arm w) s =
    .next ((s.hold t 1).acceptArm (clusterOf t) (s.konst t w.kidx.toNat) (s.slotCmd t p w .copy p.left)) := by
  refine (firing_next _ hfocus).trans (congrArg _ ?_)
  rw [State.engineFire_of_full hpos hl, State.hold_konst, State.hold_slotCmd]

theorem exec_disarm_of_full : exec (.disarm w) s =
    .next ((s.hold t 1).acceptDisarm (clusterOf t) (s.konst t w.kidx.toNat) (s.slotCmd t p w .copy p.left)) := by
  refine (firing_next _ hfocus).trans (congrArg _ ?_)
  rw [State.engineFire_of_full hpos hl, State.hold_konst, State.hold_slotCmd]

/-- CPSTAT sends the status of the AGN that L's lowest element names. -/
theorem exec_cpstat_of_agnStat {vs : List Nat} (hstat : (s.hold t 1).agnStat (clusterOf t) (p.left.elem 0 % 8) = vs) :
    exec (.cpstat w) s = .next (Claims.sentTo (s.hold t 1) t p (s.targets t w.nt w.t1 w.t0) 11 4
      (toAll (s.targets t w.nt w.t1 w.t0) (fourN32 p vs))) := by
  refine (firing_next _ hfocus).trans (congrArg _ ?_)
  rw [State.engineFire_of_full hpos hl, Token.lowest_of_full hl hpos, hstat]
  exact State.emitRun_eq_sentTo (.inl rfl) rfl

/-- CPSTOP of an AGN of another context sends L. -/
theorem exec_cpstop_of_ctx_ne
    (hctx : (assocGet {} (s.cluster (clusterOf t)).streamer.agns (p.left.elem 0 % 8)).cmd.ctx ≠ p.ctx) :
    exec (.cpstop w) s = .next ((s.hold t 1).emit t p.slot p.ctx p.itag.toNat (toAll (s.targets t w.nt w.t1 w.t0) p.left)) := by
  refine (firing_next _ hfocus).trans (congrArg _ ?_)
  rw [State.engineFire_of_full hpos hl, Token.lowest_of_full hl hpos]
  exact congrArg (State.emit · ..) (State.stopAgn_of_ctx_ne (s := s.hold t 1) hctx)

end

/-- Settles O31: on a whole L each instruction is the acceptance of its command, or the status of an AGN, whose checks the
hypotheses decide. -/
theorem streamInstructions : Obligations.StreamInstructions := by
  intro s t p w hfocus hpos _ hl c k n x z cmd joins passes reply
  have haccept (op : StreamOp) {q : StreamCmd} {y : State} (hopen : z.openDesc c k (cmd op) false = .ok (q, y)) :
      firing s (fun t p => s.streamFire t p w op) = .next (joins q y) :=
    (firing_next _ hfocus).trans (congrArg _ ((State.streamFire_of_full hpos hl op).trans (State.acceptStream_of_openDesc hopen)))
  refine ⟨fun _ _ => haccept .copy, fun _ _ => haccept .gather, fun _ _ => haccept .scatter, ?arm, ?disarm,
    fun hfree => exec_cpstat_of_agnStat hpos hl hfocus (State.agnStat_of_free (s := z) hfree),
    fun hbusy hstall => exec_cpstat_of_agnStat hpos hl hfocus (State.agnStat_of_resume (s := z) hbusy hstall),
    exec_cpstop_of_ctx_ne hpos hl hfocus⟩
  case arm =>
    intro q y hopen hctx hsrc htmpl hchan
    have hbound := State.acceptArm_of_bindTemplate hopen (State.bindTemplate_of_free htmpl hchan)
    rw [hctx, hsrc] at hbound
    exact (exec_arm_of_full hpos hl hfocus).trans (congrArg _ hbound)
  case disarm =>
    intro bs y _ halign hread hdesc htmpl
    exact (exec_disarm_of_full hpos hl hfocus).trans (congrArg _ (State.acceptDisarm_of_unbound halign hread hdesc htmpl))

end Sys2Proof.Machine

/-! PROOFS. Streamer events (R187, R193, R194, R195): the queue's head takes an AGN, an AGN's command completes, a trigger token
fires a template, and a run comes back from a transform. -/

namespace Sys2Proof.Machine

/-! ## AGNs taken and given back (R187, R193) -/

section
variable {s : State} {u k : Nat} (hfocus : s.focus = .event u k)
include hfocus

/-- A command with neither gate nor transform takes the lowest free AGN. -/
theorem exec_agnAssign_of_plain {q : StreamCmd} {rest : List StreamCmd} {a : Nat} (hqueue : (s.cluster u).streamer.queue = q :: rest)
    (hfree : (s.cluster u).streamer.freeAgn = some a) (hgate : q.d.gate = false) (hxform : q.d.xform = false) :
    exec .agnAssign s = .next
      (let y := (s.setStreamer u { (s.cluster u).streamer with queue := rest }).wake u .engine
       y.setStreamer u { (y.cluster u).streamer with
         agns := assocSet (y.cluster u).streamer.agns a { cmd := q, total := q.positions } }) := by
  show execAgnAssign s = _
  simp only [execAgnAssign, hfocus, hqueue, hfree, hgate, hxform, Bool.false_and, Bool.false_eq_true, if_false]

/-- An AGN that has done all its work without a fault is free, and its command's source has the count. -/
theorem exec_streamComplete_of_finished {g : Agn} (hg : assocGet {} (s.cluster u).streamer.agns k = g)
    (hbusy : assocHas (s.cluster u).streamer.agns k = true) (hstall : g.stall = .none) (hfinished : g.finished = true)
    (hfailed : g.failed = none) (hfollow : g.cmd.follow = false) :
    exec .streamComplete s = .next ((((s.freeAgn u k g.cmd).streamDone u g.cmd
      (if g.cmd.d.gate then g.cmd.gateTokens else g.total)).unbindTemplates u).progressed g.cmd.ctx) := by
  show execStreamComplete s = _
  simp only [execStreamComplete, hfocus, hg, hbusy, hstall, hfinished, hfailed, hfollow, Bool.not_true, Bool.or_false, Bool.false_eq_true,
    if_false, ne_eq, not_true_eq_false, decide_false]

/-! ## Trigger tokens (R195) -/

section
variable {p : Packet} {i : Nat} (hhead : s.unitHead (.trig u k) = some (p, i)) (hact : p.tok.act = .normal)
include hhead hact

theorem exec_triggerToken_of_unbound (hchan : assocGet Chan.none (s.cluster u).streamer.chans k = .none) :
    exec .triggerToken s = .next (({ s with net := s.net.eraseIdx i } : State).noTemplate u p.tok) := by
  show execTriggerToken s = _
  simp only [execTriggerToken, hfocus, hhead, hact, hchan, reduceCtorEq, if_false]

/-- A token of four words on a template's channel puts the template's firing into the streamer's queue. -/
theorem exec_triggerToken_of_template {j : Nat} {x : Template} {q : StreamCmd}
    (hchan : assocGet Chan.none (s.cluster u).streamer.chans k = .template j)
    (hx : assocGet {} (s.cluster u).streamer.templates j = x) (hctx : x.cmd.ctx = p.tok.ctx) (hunbind : x.unbind = [])
    (hroom : s.streamRoom u = true) (hfires : p.tok.fires = true) (hq : x.fire j p.tok = q) :
    exec .triggerToken s = .next (({ s with net := s.net.eraseIdx i } : State).setStreamer u { (s.cluster u).streamer with
      queue := (s.cluster u).streamer.queue ++ [{ q with born := s.cycle }] }) := by
  show execTriggerToken s = _
  simp only [execTriggerToken, hfocus, hhead, hact, hchan, hx, hctx, hunbind, hroom, hfires, hq, reduceCtorEq, if_true, if_false, ne_eq,
    not_true_eq_false, decide_false, List.isEmpty_nil, Bool.not_true, Bool.or_false, Bool.false_eq_true]
  rfl

end

end

theorem Token.fires_of_words {a : Token} (hfmt : a.fmt = 11 ∨ a.fmt = 8) (hlen : a.len = 4) (hmask : a.mask = 15) : a.fires = true := by
  simpa [Token.fires, hlen, hmask] using hfmt

/-- A firing to memory: elements 0 and 1 move the source and the destination. -/
theorem Template.fire_of_memory {x : Template} (j : Nat) (a : Token) (hkind : x.cmd.d.dkind ≠ 4) :
    x.fire j a = { x.cmd with
      src := .template j (BitVec.ofNat 32 (a.elem 2))
      d := { x.cmd.d with soff := sval 32 (a.elem 0), doff := sval 32 (a.elem 1), citag := BitVec.ofNat 32 (a.elem 2) } } := by
  simp only [Template.fire, hkind, if_false]

/-- A firing to the fabric: element 0 moves the source, and element 3 the first tag (log entry 25). -/
theorem Template.fire_of_fabric {x : Template} (j : Nat) (a : Token) (hkind : x.cmd.d.dkind = 4) :
    x.fire j a = { x.cmd with
      src := .template j (BitVec.ofNat 32 (a.elem 2))
      d := { x.cmd.d with
        soff := sval 32 (a.elem 0), citag := BitVec.ofNat 32 (a.elem 2)
        daddr := (x.cmd.d.daddr / 2 ^ 32 + a.elem 3) % 2 ^ 32 * 2 ^ 32 + x.cmd.d.daddr % 2 ^ 32 } } := by
  simp only [Template.fire, hkind, if_true]

/-! ## Runs back from a transform (R194) -/

/-- A change of an AGN is what it makes of that AGN. -/
theorem State.updAgn_congr {s : State} {u a : Nat} {f h : Agn → Agn}
    (heq : f (assocGet {} (s.cluster u).streamer.agns a) = h (assocGet {} (s.cluster u).streamer.agns a)) :
    s.updAgn u a f = s.updAgn u a h := by
  simp only [State.updAgn, heq]

/-- The bytes of element n of a returned run, each with the address that its position gives. -/
def Agn.elemBytes (g : Agn) (a : Token) (n : Nat) : List (Nat × Byte) :=
  match g.posAt (a.lo + n) with
  | .at_ _ z => (toBytes g.cmd.d.dbytes (a.elem n)).zipIdx.map fun b => ((g.cmd.d.daddrOf z + b.2) % 2 ^ 64, b.1)
  | _ => []

theorem flatMap_filter_eq_ite {α β : Type} (c : α → Bool) (f : α → List β) (l : List α) :
    (l.filter c).flatMap f = l.flatMap fun x => if c x then f x else [] := by
  induction l with
  | nil => rfl
  | cons x l ih => cases hx : c x <;> simp [hx, ih]

/-- What a returned run writes: the bytes of its present elements whose positions the command has. -/
theorem Agn.returned_eq (g : Agn) (a : Token) :
    g.returned a = ((List.range a.len).filter fun n => a.has n && decide (a.lo + n < g.total)).flatMap (g.elemBytes a) := by
  have hpresent : ((List.range a.len).filter fun n => a.has n && decide (a.lo + n < g.total)) =
      a.present.filter fun n => decide (a.lo + n < g.total) := by
    simp only [Token.present, List.filter_filter, Bool.and_comm]
  rw [hpresent, flatMap_filter_eq_ite]
  refine List.flatMap_congr fun n _ => ?_
  by_cases hn : a.lo + n < g.total
  · rw [if_neg (not_le.mpr hn), if_pos (decide_eq_true hn)]
    rfl
  · rw [if_pos (not_lt.mp hn), if_neg (by simpa using hn)]

/-- An AGN that takes a returned run, with what the run writes and where the cursor comes to. -/
theorem State.updAgn_returned {z : State} {u a : Nat} {g : Agn} {tok : Token} {bytes : List (Nat × Byte)}
    (hg : assocGet {} (z.cluster u).streamer.agns a = g) (hbytes : g.returned tok = bytes) :
    (z.updAgn u a fun x => { x with wleft := x.returned tok, wend := x.pastRun tok, gotOut := x.gotOut + 1,
                                    cursor := if (x.returned tok).isEmpty then x.pastRun tok else x.cursor }) =
      z.updAgn u a fun x => { x with wleft := bytes, wend := g.pastRun tok, gotOut := x.gotOut + 1,
                                     cursor := if bytes = [] then g.pastRun tok else x.cursor } := by
  refine State.updAgn_congr ?_
  simp only [hg, hbytes, List.isEmpty_iff]

section
variable {s : State} {u k i a : Nat} {p : Packet} {g : Agn} (hfocus : s.focus = .event u k)
  (hhead : s.unitHead (.trig u k) = some (p, i)) (hchan : assocGet Chan.none (s.cluster u).streamer.chans k = .xform a)
  (hg : assocGet {} (s.cluster u).streamer.agns a = g) (hctx : p.tok.ctx = g.cmd.ctx) (hfailed : g.failed = none) (hwleft : g.wleft = [])
include hfocus hhead hchan hg hctx hfailed hwleft

/-- An EMPTY or CANCEL run counts as received. -/
theorem exec_transformReturn_of_absent (hact : p.tok.act = .empty ∨ p.tok.act = .cancel) :
    exec .transformReturn s = .next (({ s with net := s.net.eraseIdx i } : State).updAgn u a fun x =>
      { x with gotOut := x.gotOut + 1, cursor := x.pastRun p.tok }) := by
  show execTransformReturn s = _
  rcases hact with hact | hact <;>
    simp only [execTransformReturn, hfocus, hhead, hchan, hg, hctx, hfailed, hwleft, hact, reduceCtorEq, if_false, ne_eq,
      not_true_eq_false, Option.isSome_none, List.isEmpty_nil, Bool.not_true, Bool.false_eq_true]

/-- A NORMAL run of the command's format is written into the slot that a handle names, or is to be written to memory. -/
theorem exec_transformReturn_of_normal (hact : p.tok.act = .normal) (hfmt : p.tok.fmt.toNat = g.cmd.d.dfmt) :
    exec .transformReturn s = .next
      (if g.cmd.d.dkind = 3 then
        (({ s with net := s.net.eraseIdx i } : State).returnHandle u a g p.tok p.tok.present).updAgn u a fun x =>
          { x with gotOut := x.gotOut + 1, cursor := x.pastRun p.tok }
      else
        ({ s with net := s.net.eraseIdx i } : State).updAgn u a fun x =>
          { x with wleft := x.returned p.tok, wend := x.pastRun p.tok, gotOut := x.gotOut + 1,
                   cursor := if (x.returned p.tok).isEmpty then x.pastRun p.tok else x.cursor }) := by
  show execTransformReturn s = _
  simp only [execTransformReturn, hfocus, hhead, hchan, hg, hctx, hfailed, hwleft, hact, hfmt, reduceCtorEq, if_false, ne_eq,
    not_true_eq_false, Option.isSome_none, List.isEmpty_nil, Bool.not_true, Bool.false_eq_true]
  split <;> rfl

end

/-- Settles O34: each event is the branch of its executor that the streamer's state and the token choose; a firing's command and
what a returned run writes are given by equations of their own. -/
theorem streamEvents : Obligations.StreamEvents := by
  intro s u k hfocus st
  refine ⟨fun q rest a hqueue hfree => exec_agnAssign_of_plain hfocus hqueue hfree, exec_streamComplete_of_finished hfocus rfl,
    fun p i hhead hact _ => ⟨exec_triggerToken_of_unbound hfocus hhead hact, ?memory, ?fabric⟩, ?run⟩
  case memory =>
    intro j hchan x hctx hunbind hroom hfmt hlen hmask hkind
    exact exec_triggerToken_of_template hfocus hhead hact hchan rfl hctx hunbind (decide_eq_true hroom)
      (Token.fires_of_words hfmt hlen hmask) (Template.fire_of_memory j p.tok hkind)
  case fabric =>
    intro j hchan x hctx hunbind hroom hfmt hlen hmask hkind
    exact exec_triggerToken_of_template hfocus hhead hact hchan rfl hctx hunbind (decide_eq_true hroom)
      (Token.fires_of_words hfmt hlen hmask) (Template.fire_of_fabric j p.tok hkind)
  case run =>
    intro p i a hhead hchan g z lo past hctx hfailed hwleft
    refine ⟨fun hact => ?_, fun hact hfmt => ?_⟩
    · rw [exec_transformReturn_of_absent hfocus hhead hchan rfl hctx hfailed hwleft hact]
      exact congrArg _ (State.updAgn_congr rfl)
    · have hrun := exec_transformReturn_of_normal hfocus hhead hchan rfl hctx hfailed hwleft hact hfmt
      exact ⟨fun hkind => (hrun.trans (congrArg _ (if_neg hkind))).trans
          (congrArg _ (State.updAgn_returned (z := z) rfl (g.returned_eq p.tok))),
        fun hkind => hrun.trans (congrArg _ (if_pos hkind))⟩

end Sys2Proof.Machine
